-- ==== Sys2Proof/Word.lean ====
section
/-! DEFINITION. The word types of the machine (R3): byte, half, word, dword, and the wide registers of R238. -/

namespace Sys2Proof

/-- 8 bits (R3). -/
abbrev Byte := BitVec 8
/-- 64 bits, an x register (R3, R238). -/
abbrev Dword := BitVec 64
/-- A vector register: 128 lanes of 32 bits, lane i at bits [32 i + 31 : 32 i] (R238). -/
abbrev Vec := BitVec 4096
/-- A predicate register: one bit per lane (R238). -/
abbrev Pred := BitVec 128
/-- One tile element: an ACC40 code (R210). -/
abbrev Acc40 := BitVec 40

end Sys2Proof
end

