-- ==== Sys2Proof/Syntax.lean ====
section
/-! DEFINITION. The syntax of the Nyermay instruction set: the operand formats of the slot words and `Instr`, one
constructor per row of the opcode table (slot operations as the chapters give them, then the rows that share an opcode
with one of them and differ by what a register, a block or a descriptor holds, then the events of
device units and of the outside, which have no encoding and carry what the event needs to be said of it). -/

namespace Sys2Proof

/-- The fields of a slot word that every operation carries (R223): latency bound, predicate code, predicate complement. -/
structure Ctl where
  lat : BitVec 4
  pred : BitVec 5
  pn : Bool
  deriving DecidableEq, Repr

/-- R251, format SR: destination and three source x registers. -/
structure SR where
  xd : BitVec 6
  xa : BitVec 6
  xb : BitVec 6
  xc : BitVec 6
  deriving DecidableEq, Repr

/-- R251, format SR as SEL uses it: the third source field names the predicate PA. -/
structure SSel where
  xd : BitVec 6
  xa : BitVec 6
  xb : BitVec 6
  pa : BitVec 5
  deriving DecidableEq, Repr

/-- R251, format SI: signed 34-bit immediate. -/
structure SI where
  xd : BitVec 6
  xa : BitVec 6
  imm : BitVec 34
  deriving DecidableEq, Repr

/-- R251, format SB: lowest bit and length - 1 of a bit field. -/
structure SB where
  xd : BitVec 6
  xa : BitVec 6
  pos : BitVec 6
  len : BitVec 6
  deriving DecidableEq, Repr

/-- R251, format SL: 40-bit immediate. -/
structure SL where
  xd : BitVec 6
  imm : BitVec 40
  deriving DecidableEq, Repr

/-- R251, format SP: predicates and compares. -/
structure SP where
  d : BitVec 6
  cond : BitVec 3
  xa : BitVec 6
  xb : BitVec 6
  pa : BitVec 5
  pb : BitVec 5
  h : BitVec 1
  deriving DecidableEq, Repr

/-- R251, format SP as CMPI uses it: a signed 31-bit immediate in place of XB and what follows. -/
structure SPI where
  d : BitVec 6
  cond : BitVec 3
  xa : BitVec 6
  imm : BitVec 31
  deriving DecidableEq, Repr

/-- R251, format SJ: offset in 4-byte units. -/
structure SJ where
  off : BitVec 46
  deriving DecidableEq, Repr

/-- R251, format SC: CSR operations. -/
structure SC where
  xd : BitVec 6
  xa : BitVec 6
  csr : BitVec 12
  deriving DecidableEq, Repr

/-- R251, format SF: format registers. -/
structure SF where
  xd : BitVec 6
  fs : BitVec 3
  xa : BitVec 6
  deriving DecidableEq, Repr

/-- R251, format ST: TRAP code. -/
structure ST where
  code : BitVec 16
  deriving DecidableEq, Repr

/-- R325, format SM: loads and stores. -/
structure SM where
  xd : BitVec 6
  xa : BitVec 6
  ord : BitVec 2
  scope : BitVec 3
  off : BitVec 29
  deriving DecidableEq, Repr

/-- R325, format SA: atomics. -/
structure SA where
  xd : BitVec 6
  xa : BitVec 6
  xb : BitVec 6
  xc : BitVec 6
  ord : BitVec 2
  scope : BitVec 3
  aop : BitVec 4
  sz : BitVec 1
  deriving DecidableEq, Repr

/-- R325, format SY: synchronisation. -/
structure SY where
  xd : BitVec 6
  xa : BitVec 6
  xb : BitVec 6
  pd : BitVec 5
  lvl : BitVec 3
  kind : BitVec 3
  sp : BitVec 1
  deriving DecidableEq, Repr

/-- R225, format VR: destination, three sources, format register, modifier. -/
structure VR where
  dst : BitVec 8
  opa : BitVec 9
  opb : BitVec 9
  opc : BitVec 9
  fsel : BitVec 3
  fn : BitVec 8
  deriving DecidableEq, Repr

/-- R283, format VP: vector compare into a predicate. -/
structure VP where
  pd : BitVec 5
  opa : BitVec 9
  opb : BitVec 9
  cond : BitVec 3
  deriving DecidableEq, Repr

/-- R283, format VX: one lane to an x register. -/
structure VX where
  xd : BitVec 6
  opa : BitVec 9
  lane : BitVec 7
  deriving DecidableEq, Repr

/-- R283, format VI: 32-bit value. -/
structure VI where
  dst : BitVec 8
  imm : BitVec 32
  deriving DecidableEq, Repr

/-- R283, format VK: random key register. -/
structure VK where
  dst : BitVec 8
  xk : BitVec 6
  deriving DecidableEq, Repr

/-- R283, format VM: scratchpad access. -/
structure VM where
  data : BitVec 9
  offb : BitVec 15
  step : BitVec 10
  xb : BitVec 6
  mode : BitVec 2
  fsel : BitVec 3
  deriving DecidableEq, Repr

/-- R283, format VG: gather and scatter. -/
structure VG where
  data : BitVec 9
  idx : BitVec 9
  offb : BitVec 15
  xb : BitVec 6
  step : BitVec 7
  deriving DecidableEq, Repr

/-- R305, format MX. -/
structure MX where
  td : BitVec 4
  xa : BitVec 6
  xb : BitVec 6
  pd : BitVec 10
  kb : BitVec 4
  fa : BitVec 3
  fb : BitVec 3
  kind : BitVec 2
  sta : BitVec 4
  stb : BitVec 4
  deriving DecidableEq, Repr

/-- R305, format MS. -/
structure MS where
  td : BitVec 4
  xa : BitVec 6
  xb : BitVec 6
  pd : BitVec 10
  kb : BitVec 4
  fa : BitVec 3
  fb : BitVec 3
  ntc : BitVec 2
  lvf : BitVec 4
  sta : BitVec 2
  stb : BitVec 2
  deriving DecidableEq, Repr

/-- R305, format MK. -/
structure MK where
  td : BitVec 4
  xa : BitVec 6
  sk : BitVec 4
  pd : BitVec 10
  kb : BitVec 4
  fa : BitVec 3
  nr : BitVec 7
  sta : BitVec 4
  deriving DecidableEq, Repr

/-- R305, format MR. -/
structure MR where
  td : BitVec 4
  xa : BitVec 6
  row : BitVec 7
  nr : BitVec 7
  ty : BitVec 2
  fs : BitVec 3
  sto : BitVec 9
  str : BitVec 8
  deriving DecidableEq, Repr

/-- R305, format MT. -/
structure MT where
  td : BitVec 4
  ta : BitVec 4
  tb : BitVec 4
  src : BitVec 9
  deriving DecidableEq, Repr

/-- R305, format MV. -/
structure MV where
  dst : BitVec 8
  ta : BitVec 4
  deriving DecidableEq, Repr

/-- R316, format CK: a descriptor in the scratchpad. -/
structure CK where
  offb : BitVec 15
  xb : BitVec 6
  step : BitVec 10
  sidx : BitVec 4
  deriving DecidableEq, Repr

/-- The three kinds of access a walk checks (R19). -/
inductive Access where
  | fetch | read | write
  deriving DecidableEq, Repr

/-- What waits for a block or a segment: the task on a core, or an engine command (R41, R72). -/
inductive Holder where
  | core (n : Nat)
  | cmd (id : Nat)
  deriving DecidableEq, Repr

/-- A link that can be lost: between two dies, or to a Brodilo peer (R140, R163). -/
inductive Link where
  | die (a b : Nat)
  | peer (fab : Nat)
  deriving DecidableEq, Repr

/-- What an ATS translation completion says of a 4 KiB page (R49): its permissions, with the translated page and the size, in pages of 4 KiB,
of the naturally aligned range that the answer is for; or a refusal. -/
inductive AtsResult where
  | granted (r w : Bool) (xpage pages : Nat)
  | unsupported
  deriving DecidableEq, Repr

/-- What a page request group response says (R50). -/
inductive PrgResult where
  | success | invalid | failure
  deriving DecidableEq, Repr

/-- What bring-up finds outside the device (R413): the firmware image and the configuration record of the boot flash, whether each
verification and the training succeed, and what the image gives: MCBTAB[0], ENTRY and PT_ROOT of the root, and the bytes that it puts
into memory. (DESIGN CHOICE, log entry 25) -/
structure BootRecord where
  signatureOk : Bool
  certificateOk : Bool
  recordOk : Bool
  trainingOk : Bool
  image : List (BitVec 8)
  record : List (BitVec 8)
  mcbtab : Nat
  entry : BitVec 52
  ptRoot : BitVec 48
  cells : List (Nat × BitVec 8)
  deriving DecidableEq, Repr


/-- The attributes of a posted write of the host: EP, its data is poisoned (R416); Relaxed Ordering (R142). -/
structure PostAttr where
  ep : Bool
  ro : Bool
  deriving DecidableEq, Repr

/-- The attributes of an access of a peer: its data is poisoned (R416); it is ordered at `.SYS` after the peer's writes before it (R139). -/
structure PeerAttr where
  ep : Bool
  sys : Bool
  deriving DecidableEq, Repr

/-- What a peer asks the second stage for: a block, and whether a read walk asks, which pins it (R61, R62). -/
structure KvAsk where
  gbn : Nat
  read : Bool
  deriving DecidableEq, Repr

/-- One constructor per row of the opcode table. -/
inductive Instr where
  | nop
  | idle
  | add (c : Ctl) (o : SR)
  | sub (c : Ctl) (o : SR)
  | mul (c : Ctl) (o : SR)
  | mulh (c : Ctl) (o : SR)
  | mulhu (c : Ctl) (o : SR)
  | div (c : Ctl) (o : SR)
  | divu (c : Ctl) (o : SR)
  | rem (c : Ctl) (o : SR)
  | remu (c : Ctl) (o : SR)
  | and (c : Ctl) (o : SR)
  | or (c : Ctl) (o : SR)
  | xor (c : Ctl) (o : SR)
  | shl (c : Ctl) (o : SR)
  | shr (c : Ctl) (o : SR)
  | sra (c : Ctl) (o : SR)
  | min (c : Ctl) (o : SR)
  | max (c : Ctl) (o : SR)
  | minu (c : Ctl) (o : SR)
  | maxu (c : Ctl) (o : SR)
  | clz (c : Ctl) (o : SR)
  | ctz (c : Ctl) (o : SR)
  | popc (c : Ctl) (o : SR)
  | sel (c : Ctl) (o : SSel)
  | addi (c : Ctl) (o : SI)
  | andi (c : Ctl) (o : SI)
  | ori (c : Ctl) (o : SI)
  | xori (c : Ctl) (o : SI)
  | shli (c : Ctl) (o : SI)
  | shri (c : Ctl) (o : SI)
  | srai (c : Ctl) (o : SI)
  | bfx (c : Ctl) (o : SB)
  | bfi (c : Ctl) (o : SB)
  | li (c : Ctl) (o : SL)
  | lih (c : Ctl) (o : SL)
  | addpc (c : Ctl) (o : SL)
  | cmp (c : Ctl) (o : SP)
  | cmpi (c : Ctl) (o : SPI)
  | pand (c : Ctl) (o : SP)
  | por (c : Ctl) (o : SP)
  | pxor (c : Ctl) (o : SP)
  | pnot (c : Ctl) (o : SP)
  | pset (c : Ctl) (o : SP)
  | pget (c : Ctl) (o : SP)
  | br (c : Ctl) (o : SJ)
  | jmp (c : Ctl) (o : SJ)
  | jmpx (c : Ctl) (o : SR)
  | call (c : Ctl) (o : SJ)
  | callx (c : Ctl) (o : SR)
  | ret (c : Ctl) (o : SR)
  | loopC (c : Ctl) (o : SJ)
  | loopM (c : Ctl) (o : SJ)
  | setlc (c : Ctl) (o : SI)
  | setsg (c : Ctl) (o : SI)
  | halt (c : Ctl) (o : ST)
  | fmt (c : Ctl) (o : SF)
  | fmtrd (c : Ctl) (o : SF)
  | csrr (c : Ctl) (o : SC)
  | csrw (c : Ctl) (o : SC)
  | csrs (c : Ctl) (o : SC)
  | csrc (c : Ctl) (o : SC)
  | trap (c : Ctl) (o : ST)
  | eret (c : Ctl) (o : ST)
  | mcld (c : Ctl) (o : SR)
  | mcst (c : Ctl) (o : SR)
  | kset (c : Ctl) (o : SR)
  | ringf (c : Ctl) (o : SR)
  | dispatchResume (c : Ctl) (o : SR)
  | sigwaitHalt (c : Ctl) (o : SR)
  | tlbinvAsid (c : Ctl) (o : SR)
  | useal (c : Ctl) (o : SR)
  | pcfgCreate (c : Ctl) (o : SR)
  | ldb (c : Ctl) (o : SM)
  | ldbu (c : Ctl) (o : SM)
  | ldh (c : Ctl) (o : SM)
  | ldhu (c : Ctl) (o : SM)
  | ldw (c : Ctl) (o : SM)
  | ldwu (c : Ctl) (o : SM)
  | ldd (c : Ctl) (o : SM)
  | stb (c : Ctl) (o : SM)
  | sth (c : Ctl) (o : SM)
  | stw (c : Ctl) (o : SM)
  | std (c : Ctl) (o : SM)
  | stnt (c : Ctl) (o : SM)
  | fence (c : Ctl) (o : SY)
  | drainnt (c : Ctl) (o : SY)
  | amo (c : Ctl) (o : SA)
  | cas (c : Ctl) (o : SA)
  | red (c : Ctl) (o : SA)
  | waita (c : Ctl) (o : SY)
  | enq (c : Ctl) (o : SY)
  | exit (c : Ctl) (o : SY)
  | exitS (c : Ctl) (o : SY)
  | barArr (c : Ctl) (o : SY)
  | barWait (c : Ctl) (o : SY)
  | barTry (c : Ctl) (o : SY)
  | vfadd (c : Ctl) (o : VR)
  | vfsub (c : Ctl) (o : VR)
  | vfmul (c : Ctl) (o : VR)
  | vfma (c : Ctl) (o : VR)
  | vfms (c : Ctl) (o : VR)
  | vfnma (c : Ctl) (o : VR)
  | vfmin (c : Ctl) (o : VR)
  | vfmax (c : Ctl) (o : VR)
  | vfabs (c : Ctl) (o : VR)
  | vfneg (c : Ctl) (o : VR)
  | vfcmp (c : Ctl) (o : VP)
  | vhaddBf16 (c : Ctl) (o : VR)
  | vhaddF16 (c : Ctl) (o : VR)
  | vhmulBf16 (c : Ctl) (o : VR)
  | vhmulF16 (c : Ctl) (o : VR)
  | vhfmaBf16 (c : Ctl) (o : VR)
  | vhfmaF16 (c : Ctl) (o : VR)
  | vadd (c : Ctl) (o : VR)
  | vsub (c : Ctl) (o : VR)
  | vmul (c : Ctl) (o : VR)
  | vmulh (c : Ctl) (o : VR)
  | vadds (c : Ctl) (o : VR)
  | vsubs (c : Ctl) (o : VR)
  | vmin (c : Ctl) (o : VR)
  | vmax (c : Ctl) (o : VR)
  | vminu (c : Ctl) (o : VR)
  | vmaxu (c : Ctl) (o : VR)
  | vand (c : Ctl) (o : VR)
  | vor (c : Ctl) (o : VR)
  | vxor (c : Ctl) (o : VR)
  | vshl (c : Ctl) (o : VR)
  | vshr (c : Ctl) (o : VR)
  | vsra (c : Ctl) (o : VR)
  | vcmp (c : Ctl) (o : VP)
  | vabs (c : Ctl) (o : VR)
  | vdot4SS (c : Ctl) (o : VR)
  | vdot4SU (c : Ctl) (o : VR)
  | vdot4US (c : Ctl) (o : VR)
  | vdot4UU (c : Ctl) (o : VR)
  | vdot4sSS (c : Ctl) (o : VR)
  | vdot4sSU (c : Ctl) (o : VR)
  | vdot4sUS (c : Ctl) (o : VR)
  | vdot4sUU (c : Ctl) (o : VR)
  | vdot8SS (c : Ctl) (o : VR)
  | vdot8SU (c : Ctl) (o : VR)
  | vdot8US (c : Ctl) (o : VR)
  | vdot8UU (c : Ctl) (o : VR)
  | vdot8sSS (c : Ctl) (o : VR)
  | vdot8sSU (c : Ctl) (o : VR)
  | vdot8sUS (c : Ctl) (o : VR)
  | vdot8sUU (c : Ctl) (o : VR)
  | vexp2 (c : Ctl) (o : VR)
  | vlog2 (c : Ctl) (o : VR)
  | vrcp (c : Ctl) (o : VR)
  | vrsq (c : Ctl) (o : VR)
  | vtanh (c : Ctl) (o : VR)
  | vsigm (c : Ctl) (o : VR)
  | vrand (c : Ctl) (o : VK)
  | vcvtF32Int (c : Ctl) (o : VR)
  | vcvtF32Uint (c : Ctl) (o : VR)
  | vcvtIntF32 (c : Ctl) (o : VR)
  | vcvtIntF32Rtz (c : Ctl) (o : VR)
  | vcvtUintF32 (c : Ctl) (o : VR)
  | vcvtUintF32Rtz (c : Ctl) (o : VR)
  | vcvtBf16F32 (c : Ctl) (o : VR)
  | vcvtBf16F32Rtz (c : Ctl) (o : VR)
  | vcvtF16F32 (c : Ctl) (o : VR)
  | vcvtF16F32Rtz (c : Ctl) (o : VR)
  | vcvtF32Bf16 (c : Ctl) (o : VR)
  | vcvtF32F16 (c : Ctl) (o : VR)
  | vqnt (c : Ctl) (o : VR)
  | vdqnt (c : Ctl) (o : VR)
  | vscl (c : Ctl) (o : VR)
  | vsel (c : Ctl) (o : VR)
  | vmov (c : Ctl) (o : VR)
  | vmovi (c : Ctl) (o : VI)
  | vbcast (c : Ctl) (o : VR)
  | vextr (c : Ctl) (o : VX)
  | vins (c : Ctl) (o : VR)
  | vperm (c : Ctl) (o : VR)
  | vxcl (c : Ctl) (o : VR)
  | vxclX (c : Ctl) (o : VR)
  | vld (c : Ctl) (o : VM)
  | vst (c : Ctl) (o : VM)
  | vgath (c : Ctl) (o : VG)
  | vscat (c : Ctl) (o : VG)
  | mma (c : Ctl) (o : MX)
  | mmas (c : Ctl) (o : MS)
  | mmat (c : Ctl) (o : MK)
  | mmav (c : Ctl) (o : MK)
  | mred (c : Ctl) (o : MX)
  | mscan (c : Ctl) (o : MX)
  | mld (c : Ctl) (o : MR)
  | mst (c : Ctl) (o : MR)
  | mzero (c : Ctl) (o : MT)
  | madd (c : Ctl) (o : MT)
  | mcopy (c : Ctl) (o : MT)
  | mxpose (c : Ctl) (o : MT)
  | mscale (c : Ctl) (o : MT)
  | mrmax (c : Ctl) (o : MV)
  | kvnew (c : Ctl) (o : CK)
  | kvapp (c : Ctl) (o : CK)
  | kvtrunc (c : Ctl) (o : CK)
  | kvfork (c : Ctl) (o : CK)
  | kvfree (c : Ctl) (o : CK)
  | kvrackRack (c : Ctl) (o : CK)
  | kvbind (c : Ctl) (o : CK)
  | kvqry (c : Ctl) (o : CK)
  | sbind (c : Ctl) (o : CK)
  | sbindg (c : Ctl) (o : CK)
  | sunbind (c : Ctl) (o : CK)
  | sflush (c : Ctl) (o : CK)
  | cpy (c : Ctl) (o : CK)
  | cpy2d (c : Ctl) (o : CK)
  | mcstMulticast (c : Ctl) (o : CK)
  | spmap (c : Ctl) (o : CK)
  | spsync (c : Ctl) (o : CK)
  | spinv (c : Ctl) (o : CK)
  | migrMove (c : Ctl) (o : CK)
  | cred (c : Ctl) (o : CK)
  | cbcast (c : Ctl) (o : CK)
  | attreqWrite (c : Ctl) (o : SC)
  | cxlcapWrite (c : Ctl) (o : SC)
  | gftbaseWrite (c : Ctl) (o : SC)
  | fabidWrite (c : Ctl) (o : SC)
  | hpasidWrite (c : Ctl) (o : SC)
  | eccstatWrite (c : Ctl) (o : SC)
  | mclogWrite (c : Ctl) (o : SC)
  | watchpointWrite (c : Ctl) (o : SC)
  | dispatchTerminate (c : Ctl) (o : SR)
  | dispatchContinue (c : Ctl) (o : SR)
  | sigwaitArm (c : Ctl) (o : SR)
  | tlbinvPages (c : Ctl) (o : SR)
  | tlbinvPartition (c : Ctl) (o : SR)
  | pcfgQuotaGrant (c : Ctl) (o : SR)
  | pcfgQuotaRevoke (c : Ctl) (o : SR)
  | pcfgCal (c : Ctl) (o : SR)
  | pcfgBand (c : Ctl) (o : SR)
  | pcfgSlice (c : Ctl) (o : SR)
  | pcfgStateDrain (c : Ctl) (o : SR)
  | pcfgStateScrub (c : Ctl) (o : SR)
  | pcfgStateRelease (c : Ctl) (o : SR)
  | pcfgStateActive (c : Ctl) (o : SR)
  | pcfgGmapMap (c : Ctl) (o : SR)
  | pcfgGmapUnmap (c : Ctl) (o : SR)
  | pcfgDestroy (c : Ctl) (o : SR)
  | kvrackPooladd (c : Ctl) (o : CK)
  | kvrackPooltake (c : Ctl) (o : CK)
  | spmapUnmap (c : Ctl) (o : CK)
  | migrFetch (c : Ctl) (o : CK)
  | migrFlush (c : Ctl) (o : CK)
  | migrPooladd (c : Ctl) (o : CK)
  | migrPooltake (c : Ctl) (o : CK)
  | sigwaitTimeout (core : Nat)
  | waitaWake (core : Nat)
  | barrierPhaseComplete (mcid : Nat) (lvl : Nat) (dom : Nat)
  | pageWalk (asid : Nat) (va : Nat) (acc : Access)
  | kvWalk (core : Nat) (strm : Nat)
  | pinWaitRelease (core : Nat) (strm : Nat)
  | kvwaitExpire (h : Holder)
  | steepwaitExpire (h : Holder)
  | rackBlockMove (die : Nat) (readFails : Bool)
  | blockRelease (gbn : Nat)
  | remoteKvResolve (peer : Nat) (part : Nat) (gbn : KvAsk)
  | remoteDecrement (peer : Nat) (gbn : Nat)
  | kvStreamPrefetch (core : Nat) (strm : Nat)
  | streamPrefetch (core : Nat) (strm : Nat)
  | steepEntry (mcid : Nat)
  | steepFetchComplete (mcid : Nat) (ent : Nat) (readFails : Bool) (peerData : List (BitVec 8))
  | migrPageComplete (cmd : Nat) (ioError : Bool)
  | granuleFill (core : Nat) (map : Nat) (gran : Nat)
  | backgroundBankTake (core : Nat) (bank : Nat)
  | commandCompletion (cmd : Nat)
  | regionHoldExpire (core : Nat)
  | push (src : Nat) (part : Nat) (pkt : BitVec 512)
  | scanStep (die : Nat)
  | hitch (mcid : Nat)
  | jobLaunch (mcid : Nat)
  | launch (mcid : Nat)
  | taskStop (core : Nat)
  | rollback (core : Nat)
  | groupSwapOut (mcid : Nat) (grp : Nat)
  | spillImage (mcid : Nat) (grp : Nat)
  | groupPark (mcid : Nat) (grp : Nat)
  | parkConditionClear (mcid : Nat) (grp : Nat)
  | taskTerminate (core : Nat) (cause : BitVec 8)
  | uncorrectable (core : Nat) (pa : Nat)
  | poison (pa : Nat)
  | softErrorCorrect
  | patrolScrub (line : Nat)
  | linkDown (link : Link)
  | linkRestore (link : Link)
  | peerAccess (peer : Nat) (part : Nat) (op : Nat) (va : Nat) (data : List (BitVec 8)) (ep : PeerAttr)
  | peerEnq (peer : Nat) (part : Nat) (pkt : BitVec 512)
  | crpIngress (port : Nat) (frame : List (BitVec 8))
  | rawFrameReceive (port : Nat) (frame : List (BitVec 8))
  | crpEgress (cmd : Nat)
  | returnSlotExpire (die : Nat) (slot : Nat)
  | notifyWrite (fn : Nat) (mcid : Nat) (value : BitVec 64)
  | ringFetch (die : Nat) (mcid : Nat)
  | atsCompletion (die : Nat) (fn : Nat) (pasid : Nat) (page : Nat) (res : AtsResult)
  | prgResponse (fn : Nat) (pasid : Nat) (page : Nat) (res : PrgResult)
  | atsInvalidation (fn : Nat) (pasid : Option Nat) (page : Nat) (pages : Nat)
  | hostWrite (fn : Nat) (pa : Nat) (data : List (BitVec 8)) (ep : PostAttr)
  | vfFlr (fn : Nat)
  | frameBoundary
  | calendarSlot (cls : Nat) (unit : Nat) (waiting : List Nat)
  | sliceEnd (mcid : Nat) (grp : Nat)
  | drainComplete (part : Nat)
  | scrubComplete (part : Nat)
  | usageSeal (part : Nat)
  | watch (core : Nat) (va : Nat)
  | watchev (kind : Nat) (who : Nat) (writerMc : Nat) (pa : Nat) (data : List (BitVec 8))
  | bringUp (boot : BootRecord)
  | thermtrip
  | perstAssert
  | peerAcknowledgement (req : Nat) (ok : Bool) (ep : Bool) (data : List (BitVec 8))
  | hostCompletion (req : Nat) (data : List (BitVec 8))
  deriving DecidableEq, Repr

/-- The slot classes of R241 (`none` of a row that has no encoding). -/
inductive Cls where
  | s | v | m | c
  deriving DecidableEq, Repr

end Sys2Proof
end

