-- ==== Sys2Proof/WellFormed.lean ====
section
/-! DEFINITION. Which instructions are well formed: every field check whose failure raises ILLEGAL_SLOT at decode. -/

namespace Sys2Proof

/-- A destination predicate names p0 to p23 (R252). -/
def predOk (d : BitVec 6) : Bool := d.toNat ≤ 23
/-- COND 0 to 5 (R257). -/
def condOk (c : BitVec 3) : Bool := c.toNat ≤ 5
/-- Scope and barrier level codes 0 to 4 (R120, R337). -/
def scopeOk (s : BitVec 3) : Bool := s.toNat ≤ 4
/-- SCOPE is zero when ORD is 0, and a scope code otherwise (R325). -/
def smOk (o : SM) : Bool := if o.ord == 0 then o.scope == 0 else scopeOk o.scope
/-- As `smOk`, for atomics (R325). -/
def saOk (o : SA) : Bool := if o.ord == 0 then o.scope == 0 else scopeOk o.scope
/-- CLASS of a 9-bit source field (R224). -/
def srcCls (f : BitVec 9) : Nat := (f.extractLsb' 7 2).toNat
/-- L of a source field (R224). -/
def srcL (f : BitVec 9) : Bool := f.getLsbD 6
/-- INDEX of a source field (R224). -/
def srcIdx (f : BitVec 9) : Nat := (f.extractLsb' 0 6).toNat
/-- L only on a vector register; a stream below 16; a bypass register below 4 (R224). -/
def srcOk (f : BitVec 9) : Bool :=
  (!srcL f || srcCls f == 0) && (srcCls f != 1 || srcIdx f < 16) && (srcCls f != 2 || srcIdx f < 4)
/-- CLASS of an 8-bit destination field (R225). -/
def dstCls (f : BitVec 8) : Nat := (f.extractLsb' 6 2).toNat
/-- INDEX of a destination field (R225). -/
def dstIdx (f : BitVec 8) : Nat := (f.extractLsb' 0 6).toNat
/-- Class 3 is reserved; a stream is below 16 (R225). -/
def dstOk (f : BitVec 8) : Bool := dstCls f != 3 && (dstCls f != 1 || dstIdx f < 16)
/-- A tile field names t0 to t11 (R305). -/
def tileOk (t : BitVec 4) : Bool := t.toNat ≤ 11
/-- Format VR with `n` sources, FSEL used or not, and the FN bits in `fnMask` used: the rest is zero (R225). -/
def vrOk (o : VR) (n : Nat) (useF : Bool) (fnMask : BitVec 8) : Bool :=
  dstOk o.dst && srcOk o.opa && (if n ≥ 2 then srcOk o.opb else o.opb == 0) && (if n ≥ 3 then srcOk o.opc else o.opc == 0) &&
  (useF || o.fsel == 0) && (o.fn &&& ~~~fnMask == 0)
/-- Format VP (R283, R257). -/
def vpOk (o : VP) : Bool := o.pd.toNat ≤ 23 && srcOk o.opa && srcOk o.opb && condOk o.cond
/-- Format VM: the format register is named in modes 2 and 3 only (R283). -/
def vmOk (o : VM) : Bool := decide (2 ≤ o.mode.toNat) || o.fsel == 0
/-- The CSR numbers whose write is a row of its own: FABID, CXLCAP, GFTBASE, HPASID, WPA and WPC, ATTREQ, ECCSTAT, MCLOG. -/
def rowCsr (n : BitVec 12) : Bool :=
  n == 0x063 || n == 0x064 || n == 0x065 || decide (0x400 ≤ n.toNat ∧ n.toNat < 0x800) ||
  decide (0xC90 ≤ n.toNat ∧ n.toNat < 0xCA0) || n == 0xCF8 || n == 0xCFA || n == 0xCFB


/-- Is an instruction one whose encoding raises no ILLEGAL_SLOT (R224, R225, R232, R234, R252, R255, R257 and the
family rules)? Events have no encoding, and every event is well formed. -/
def Instr.wf : Instr → Bool
  | .nop => true
  | .idle => true
  | .add c o => decide (1 ≤ c.lat.toNat) && o.xc == 0
  | .sub c o => decide (1 ≤ c.lat.toNat) && o.xc == 0
  | .mul c o => decide (3 ≤ c.lat.toNat) && o.xc == 0
  | .mulh c o => decide (3 ≤ c.lat.toNat) && o.xc == 0
  | .mulhu c o => decide (3 ≤ c.lat.toNat) && o.xc == 0
  | .div c o => decide (12 ≤ c.lat.toNat) && o.xc == 0
  | .divu c o => decide (12 ≤ c.lat.toNat) && o.xc == 0
  | .rem c o => decide (12 ≤ c.lat.toNat) && o.xc == 0
  | .remu c o => decide (12 ≤ c.lat.toNat) && o.xc == 0
  | .and c o => decide (1 ≤ c.lat.toNat) && o.xc == 0
  | .or c o => decide (1 ≤ c.lat.toNat) && o.xc == 0
  | .xor c o => decide (1 ≤ c.lat.toNat) && o.xc == 0
  | .shl c o => decide (1 ≤ c.lat.toNat) && o.xc == 0
  | .shr c o => decide (1 ≤ c.lat.toNat) && o.xc == 0
  | .sra c o => decide (1 ≤ c.lat.toNat) && o.xc == 0
  | .min c o => decide (1 ≤ c.lat.toNat) && o.xc == 0
  | .max c o => decide (1 ≤ c.lat.toNat) && o.xc == 0
  | .minu c o => decide (1 ≤ c.lat.toNat) && o.xc == 0
  | .maxu c o => decide (1 ≤ c.lat.toNat) && o.xc == 0
  | .clz c o => decide (1 ≤ c.lat.toNat) && o.xc == 0 && o.xb == 0
  | .ctz c o => decide (1 ≤ c.lat.toNat) && o.xc == 0 && o.xb == 0
  | .popc c o => decide (1 ≤ c.lat.toNat) && o.xc == 0 && o.xb == 0
  | .sel c _ => decide (1 ≤ c.lat.toNat)
  | .addi c _ => decide (1 ≤ c.lat.toNat)
  | .andi c _ => decide (1 ≤ c.lat.toNat)
  | .ori c _ => decide (1 ≤ c.lat.toNat)
  | .xori c _ => decide (1 ≤ c.lat.toNat)
  | .shli c o => decide (1 ≤ c.lat.toNat) && o.imm >>> 6 == 0
  | .shri c o => decide (1 ≤ c.lat.toNat) && o.imm >>> 6 == 0
  | .srai c o => decide (1 ≤ c.lat.toNat) && o.imm >>> 6 == 0
  | .bfx c o => decide (1 ≤ c.lat.toNat) && o.pos.toNat + o.len.toNat ≤ 63
  | .bfi c o => decide (1 ≤ c.lat.toNat) && o.pos.toNat + o.len.toNat ≤ 63
  | .li c _ => decide (1 ≤ c.lat.toNat)
  | .lih c o => decide (1 ≤ c.lat.toNat) && o.imm >>> 24 == 0
  | .addpc c _ => decide (1 ≤ c.lat.toNat)
  | .cmp c o => decide (1 ≤ c.lat.toNat) && predOk o.d && condOk o.cond && o.pa == 0 && o.pb == 0 && o.h == 0
  | .cmpi c o => decide (1 ≤ c.lat.toNat) && predOk o.d && condOk o.cond
  | .pand c o => decide (1 ≤ c.lat.toNat) && predOk o.d && o.cond == 0 && o.xa == 0 && o.xb == 0 && o.h == 0
  | .por c o => decide (1 ≤ c.lat.toNat) && predOk o.d && o.cond == 0 && o.xa == 0 && o.xb == 0 && o.h == 0
  | .pxor c o => decide (1 ≤ c.lat.toNat) && predOk o.d && o.cond == 0 && o.xa == 0 && o.xb == 0 && o.h == 0
  | .pnot c o => decide (1 ≤ c.lat.toNat) && predOk o.d && o.cond == 0 && o.xa == 0 && o.xb == 0 && o.pb == 0 && o.h == 0
  | .pset c o => decide (1 ≤ c.lat.toNat) && predOk o.d && o.cond == 0 && o.pa == 0 && o.pb == 0 && o.h == 0
  | .pget c o => decide (1 ≤ c.lat.toNat) && o.cond == 0 && o.xa == 0 && o.xb == 0 && o.pb == 0
  | .br c _ => c.lat == 0
  | .jmp c _ => c.lat == 0
  | .jmpx c o => c.lat == 0 && o.xd == 0 && o.xb == 0 && o.xc == 0
  | .call c _ => c.lat == 0
  | .callx c o => c.lat == 0 && o.xd == 0 && o.xb == 0 && o.xc == 0
  | .ret c o => c.lat == 0 && o.xd == 0 && o.xa == 0 && o.xb == 0 && o.xc == 0
  | .loopC c _ => c.lat == 0
  | .loopM c _ => c.lat == 0
  | .setlc c o => c.lat == 0 && o.xd == 0
  | .setsg c o => c.lat == 0 && o.xd == 0
  | .halt c o => c.lat == 0 && o.code == 0
  | .fmt c o => c.lat == 0 && o.xd == 0
  | .fmtrd c o => decide (1 ≤ c.lat.toNat) && o.xa == 0
  | .csrr c o => decide (2 ≤ c.lat.toNat) && o.xa == 0
  | .csrw c o => c.lat == 0 && !rowCsr o.csr
  | .csrs c _ => c.lat == 0
  | .csrc c _ => c.lat == 0
  | .trap c _ => c.lat == 0
  | .eret c o => c.lat == 0 && o.code == 0
  | .mcld c o => c.lat == 0 && o.xc == 0
  | .mcst c o => c.lat == 0 && o.xc == 0
  | .kset c o => c.lat == 0 && o.xc == 0
  | .ringf c o => c.lat == 0 && o.xc == 0
  | .dispatchResume c o => c.lat == 0 && o.xc == 0
  | .sigwaitHalt c _ => c.lat == 0
  | .tlbinvAsid c _ => c.lat == 0
  | .useal c o => c.lat == 0 && o.xc == 0 && o.xb == 0
  | .pcfgCreate c o => c.lat == 0 && o.xc == 0
  | .ldb c o => c.lat == 0 && smOk o && o.ord.toNat ≤ 1
  | .ldbu c o => c.lat == 0 && smOk o && o.ord.toNat ≤ 1
  | .ldh c o => c.lat == 0 && smOk o && o.ord.toNat ≤ 1
  | .ldhu c o => c.lat == 0 && smOk o && o.ord.toNat ≤ 1
  | .ldw c o => c.lat == 0 && smOk o && o.ord.toNat ≤ 1
  | .ldwu c o => c.lat == 0 && smOk o && o.ord.toNat ≤ 1
  | .ldd c o => c.lat == 0 && smOk o && o.ord.toNat ≤ 1
  | .stb c o => c.lat == 0 && smOk o && (o.ord == 0 || o.ord == 2)
  | .sth c o => c.lat == 0 && smOk o && (o.ord == 0 || o.ord == 2)
  | .stw c o => c.lat == 0 && smOk o && (o.ord == 0 || o.ord == 2)
  | .std c o => c.lat == 0 && smOk o && (o.ord == 0 || o.ord == 2)
  | .stnt c o => c.lat == 0 && smOk o && o.ord == 0
  | .fence c o => c.lat == 0 && o.xd == 0 && o.xa == 0 && o.xb == 0 && o.pd == 0 && scopeOk o.lvl && decide (1 ≤ o.kind.toNat ∧ o.kind.toNat ≤ 3) && o.sp == 0
  | .drainnt c o => c.lat == 0 && o.xd == 0 && o.xa == 0 && o.xb == 0 && o.pd == 0 && scopeOk o.lvl && o.kind == 0 && o.sp == 0
  | .amo c o => c.lat == 0 && saOk o && o.xc == 0 && o.aop.toNat ≤ 9 && !(o.aop == 9 && o.sz == 1)
  | .cas c o => c.lat == 0 && saOk o && o.aop == 0
  | .red c o => c.lat == 0 && saOk o && o.xd == 0 && o.xc == 0 && o.aop.toNat ≤ 9 && o.aop != 8 && !(o.aop == 9 && o.sz == 1)
  | .waita c o => c.lat == 0 && o.pd == 0 && scopeOk o.lvl && o.kind.toNat ≤ 4
  | .enq c o => c.lat == 0 && o.xa.toNat ≤ 56 && o.pd.toNat ≤ 23 && o.lvl == 0 && o.kind == 0 && o.sp == 0
  | .exit c o => c.lat == 0 && o.xd == 0 && o.xa == 0 && o.xb == 0 && o.pd == 0 && o.lvl == 0 && o.kind == 0 && o.sp == 0
  | .exitS c o => c.lat == 0 && o.xd == 0 && o.xb == 0 && o.pd == 0 && o.lvl == 0 && o.kind == 0 && o.sp == 0
  | .barArr c o => c.lat == 0 && o.xd == 0 && o.xb == 0 && o.pd == 0 && scopeOk o.lvl && o.kind == 0 && o.sp == 0
  | .barWait c o => c.lat == 0 && o.xd == 0 && o.xa == 0 && o.xb == 0 && o.pd == 0 && scopeOk o.lvl && o.kind == 0 && o.sp == 0
  | .barTry c o => c.lat == 0 && o.xd == 0 && o.xa == 0 && o.xb == 0 && o.pd.toNat ≤ 23 && scopeOk o.lvl && o.kind == 0 && o.sp == 0
  | .vfadd c o => decide (4 ≤ c.lat.toNat) && vrOk o 2 false 0
  | .vfsub c o => decide (4 ≤ c.lat.toNat) && vrOk o 2 false 0
  | .vfmul c o => decide (4 ≤ c.lat.toNat) && vrOk o 2 false 0
  | .vfma c o => decide (4 ≤ c.lat.toNat) && vrOk o 3 false 0
  | .vfms c o => decide (4 ≤ c.lat.toNat) && vrOk o 3 false 0
  | .vfnma c o => decide (4 ≤ c.lat.toNat) && vrOk o 3 false 0
  | .vfmin c o => decide (2 ≤ c.lat.toNat) && vrOk o 2 false 0
  | .vfmax c o => decide (2 ≤ c.lat.toNat) && vrOk o 2 false 0
  | .vfabs c o => decide (2 ≤ c.lat.toNat) && vrOk o 1 false 0
  | .vfneg c o => decide (2 ≤ c.lat.toNat) && vrOk o 1 false 0
  | .vfcmp c o => decide (2 ≤ c.lat.toNat) && vpOk o
  | .vhaddBf16 c o => decide (4 ≤ c.lat.toNat) && vrOk o 2 false 0
  | .vhaddF16 c o => decide (4 ≤ c.lat.toNat) && vrOk o 2 false 0
  | .vhmulBf16 c o => decide (4 ≤ c.lat.toNat) && vrOk o 2 false 0
  | .vhmulF16 c o => decide (4 ≤ c.lat.toNat) && vrOk o 2 false 0
  | .vhfmaBf16 c o => decide (4 ≤ c.lat.toNat) && vrOk o 3 false 0
  | .vhfmaF16 c o => decide (4 ≤ c.lat.toNat) && vrOk o 3 false 0
  | .vadd c o => decide (1 ≤ c.lat.toNat) && vrOk o 2 false 0
  | .vsub c o => decide (1 ≤ c.lat.toNat) && vrOk o 2 false 0
  | .vmul c o => decide (3 ≤ c.lat.toNat) && vrOk o 2 false 0
  | .vmulh c o => decide (3 ≤ c.lat.toNat) && vrOk o 2 false 0
  | .vadds c o => decide (1 ≤ c.lat.toNat) && vrOk o 2 false 0
  | .vsubs c o => decide (1 ≤ c.lat.toNat) && vrOk o 2 false 0
  | .vmin c o => decide (1 ≤ c.lat.toNat) && vrOk o 2 false 0
  | .vmax c o => decide (1 ≤ c.lat.toNat) && vrOk o 2 false 0
  | .vminu c o => decide (1 ≤ c.lat.toNat) && vrOk o 2 false 0
  | .vmaxu c o => decide (1 ≤ c.lat.toNat) && vrOk o 2 false 0
  | .vand c o => decide (1 ≤ c.lat.toNat) && vrOk o 2 false 0
  | .vor c o => decide (1 ≤ c.lat.toNat) && vrOk o 2 false 0
  | .vxor c o => decide (1 ≤ c.lat.toNat) && vrOk o 2 false 0
  | .vshl c o => decide (1 ≤ c.lat.toNat) && vrOk o 2 false 0
  | .vshr c o => decide (1 ≤ c.lat.toNat) && vrOk o 2 false 0
  | .vsra c o => decide (1 ≤ c.lat.toNat) && vrOk o 2 false 0
  | .vcmp c o => decide (1 ≤ c.lat.toNat) && vpOk o
  | .vabs c o => decide (1 ≤ c.lat.toNat) && vrOk o 1 false 0
  | .vdot4SS c o => decide (3 ≤ c.lat.toNat) && vrOk o 3 false 0
  | .vdot4SU c o => decide (3 ≤ c.lat.toNat) && vrOk o 3 false 0
  | .vdot4US c o => decide (3 ≤ c.lat.toNat) && vrOk o 3 false 0
  | .vdot4UU c o => decide (3 ≤ c.lat.toNat) && vrOk o 3 false 0
  | .vdot4sSS c o => decide (3 ≤ c.lat.toNat) && vrOk o 3 false 0
  | .vdot4sSU c o => decide (3 ≤ c.lat.toNat) && vrOk o 3 false 0
  | .vdot4sUS c o => decide (3 ≤ c.lat.toNat) && vrOk o 3 false 0
  | .vdot4sUU c o => decide (3 ≤ c.lat.toNat) && vrOk o 3 false 0
  | .vdot8SS c o => decide (3 ≤ c.lat.toNat) && vrOk o 3 false 0
  | .vdot8SU c o => decide (3 ≤ c.lat.toNat) && vrOk o 3 false 0
  | .vdot8US c o => decide (3 ≤ c.lat.toNat) && vrOk o 3 false 0
  | .vdot8UU c o => decide (3 ≤ c.lat.toNat) && vrOk o 3 false 0
  | .vdot8sSS c o => decide (3 ≤ c.lat.toNat) && vrOk o 3 false 0
  | .vdot8sSU c o => decide (3 ≤ c.lat.toNat) && vrOk o 3 false 0
  | .vdot8sUS c o => decide (3 ≤ c.lat.toNat) && vrOk o 3 false 0
  | .vdot8sUU c o => decide (3 ≤ c.lat.toNat) && vrOk o 3 false 0
  | .vexp2 c o => decide (8 ≤ c.lat.toNat) && vrOk o 1 false 0
  | .vlog2 c o => decide (8 ≤ c.lat.toNat) && vrOk o 1 false 0
  | .vrcp c o => decide (8 ≤ c.lat.toNat) && vrOk o 1 false 0
  | .vrsq c o => decide (8 ≤ c.lat.toNat) && vrOk o 1 false 0
  | .vtanh c o => decide (10 ≤ c.lat.toNat) && vrOk o 1 false 0
  | .vsigm c o => decide (10 ≤ c.lat.toNat) && vrOk o 1 false 0
  | .vrand c o => decide (6 ≤ c.lat.toNat) && dstOk o.dst
  | .vcvtF32Int c o => decide (4 ≤ c.lat.toNat) && vrOk o 1 false 0
  | .vcvtF32Uint c o => decide (4 ≤ c.lat.toNat) && vrOk o 1 false 0
  | .vcvtIntF32 c o => decide (4 ≤ c.lat.toNat) && vrOk o 1 false 0
  | .vcvtIntF32Rtz c o => decide (4 ≤ c.lat.toNat) && vrOk o 1 false 0
  | .vcvtUintF32 c o => decide (4 ≤ c.lat.toNat) && vrOk o 1 false 0
  | .vcvtUintF32Rtz c o => decide (4 ≤ c.lat.toNat) && vrOk o 1 false 0
  | .vcvtBf16F32 c o => decide (4 ≤ c.lat.toNat) && vrOk o 2 false 0
  | .vcvtBf16F32Rtz c o => decide (4 ≤ c.lat.toNat) && vrOk o 2 false 0
  | .vcvtF16F32 c o => decide (4 ≤ c.lat.toNat) && vrOk o 2 false 0
  | .vcvtF16F32Rtz c o => decide (4 ≤ c.lat.toNat) && vrOk o 2 false 0
  | .vcvtF32Bf16 c o => decide (2 ≤ c.lat.toNat) && vrOk o 1 false 1
  | .vcvtF32F16 c o => decide (2 ≤ c.lat.toNat) && vrOk o 1 false 1
  | .vqnt c o => decide (4 ≤ c.lat.toNat) && vrOk o 2 true 0
  | .vdqnt c o => decide (4 ≤ c.lat.toNat) && vrOk o 2 true 0
  | .vscl c o => decide (4 ≤ c.lat.toNat) && vrOk o 1 true 0
  | .vsel c o => decide (1 ≤ c.lat.toNat) && vrOk o 2 false 0x1F
  | .vmov c o => decide (1 ≤ c.lat.toNat) && vrOk o 1 false 0
  | .vmovi c o => decide (1 ≤ c.lat.toNat) && dstOk o.dst
  | .vbcast c o => decide (2 ≤ c.lat.toNat) && vrOk o 1 false 0x0F
  | .vextr c o => decide (3 ≤ c.lat.toNat) && srcOk o.opa
  | .vins c o => decide (1 ≤ c.lat.toNat) && vrOk o 1 false 0x7F && dstCls o.dst == 0
  | .vperm c o => decide (2 ≤ c.lat.toNat) && vrOk o 2 false 0
  | .vxcl c o => decide (6 ≤ c.lat.toNat) && vrOk o 2 false 0
  | .vxclX c o => decide (6 ≤ c.lat.toNat) && vrOk o 1 false 0xFF && decide (0x80 ≤ o.fn.toNat)
  | .vld c o => decide (4 ≤ c.lat.toNat) && vmOk o && o.data.toNat % 2 == 0 && dstOk (o.data.extractLsb' 1 8)
  | .vst c o => decide (2 ≤ c.lat.toNat) && vmOk o && srcOk o.data
  | .vgath c o => decide (12 ≤ c.lat.toNat) && o.data.toNat % 2 == 0 && dstOk (o.data.extractLsb' 1 8) && srcOk o.idx
  | .vscat c o => decide (10 ≤ c.lat.toNat) && srcOk o.data && srcOk o.idx
  | .mma c o => c.lat == 0 && tileOk o.td && o.kind.toNat ≤ 2 && (o.kind == 0 || (o.fa == 0 && o.fb == 0))
  | .mmas c o => c.lat == 0 && o.ntc.toNat ≤ 2 && o.lvf.toNat + 1 ≤ 4 * 2 ^ o.ntc.toNat && o.td.toNat + 2 ^ o.ntc.toNat ≤ 12
  | .mmat c o => c.lat == 0 && tileOk o.td && o.kb.toNat ≤ 7
  | .mmav c o => c.lat == 0 && tileOk o.td && o.kb.toNat ≤ 3 && decide (o.nr.toNat < 32 * (o.kb.toNat + 1))
  | .mred c o => c.lat == 0 && tileOk o.td && o.kind.toNat ≤ 2 && (o.kind == 0 || (o.fa == 0 && o.fb == 0)) && o.xb == 0 && o.fb == 0 && o.stb == 0
  | .mscan c o => c.lat == 0 && tileOk o.td && o.kind.toNat ≤ 2 && (o.kind == 0 || (o.fa == 0 && o.fb == 0)) && o.xb == 0 && o.fb == 0 && o.stb == 0
  | .mld c o => c.lat == 0 && tileOk o.td && (o.ty == 3 || o.fs == 0)
  | .mst c o => c.lat == 0 && tileOk o.td && (o.ty == 3 || o.fs == 0)
  | .mzero c o => c.lat == 0 && tileOk o.td && tileOk o.ta && tileOk o.tb && o.ta == 0 && o.tb == 0 && o.src == 0
  | .madd c o => c.lat == 0 && tileOk o.td && tileOk o.ta && tileOk o.tb && o.src == 0
  | .mcopy c o => c.lat == 0 && tileOk o.td && tileOk o.ta && tileOk o.tb && o.tb == 0 && o.src == 0
  | .mxpose c o => c.lat == 0 && tileOk o.td && tileOk o.ta && tileOk o.tb && o.tb == 0 && o.src == 0
  | .mscale c o => c.lat == 0 && tileOk o.td && tileOk o.ta && tileOk o.tb && o.ta == 0 && o.tb == 0 && srcOk o.src
  | .mrmax c o => c.lat == 0 && dstOk o.dst && dstCls o.dst != 2 && tileOk o.ta
  | .kvnew c o => c.lat == 0 && o.sidx == 0
  | .kvapp c o => c.lat == 0 && o.sidx == 0
  | .kvtrunc c o => c.lat == 0 && o.sidx == 0
  | .kvfork c o => c.lat == 0 && o.sidx == 0
  | .kvfree c o => c.lat == 0 && o.sidx == 0
  | .kvrackRack c o => c.lat == 0 && o.sidx == 0
  | .kvbind c _ => c.lat == 0
  | .kvqry c o => c.lat == 0 && o.sidx == 0
  | .sbind c _ => c.lat == 0
  | .sbindg c _ => c.lat == 0
  | .sunbind c o => c.lat == 0 && o.offb == 0 && o.xb == 0 && o.step == 0
  | .sflush c _ => c.lat == 0
  | .cpy c o => c.lat == 0 && o.sidx == 0
  | .cpy2d c o => c.lat == 0 && o.sidx == 0
  | .mcstMulticast c o => c.lat == 0 && o.sidx == 0
  | .spmap c o => c.lat == 0 && o.sidx == 0
  | .spsync c o => c.lat == 0 && o.sidx == 0
  | .spinv c o => c.lat == 0 && o.sidx == 0
  | .migrMove c o => c.lat == 0 && o.sidx == 0
  | .cred c o => c.lat == 0 && o.sidx == 0
  | .cbcast c o => c.lat == 0 && o.sidx == 0
  | .attreqWrite c o => c.lat == 0 && o.csr == 0xCF8
  | .cxlcapWrite c o => c.lat == 0 && o.csr == 0x064
  | .gftbaseWrite c o => c.lat == 0 && o.csr == 0x065
  | .fabidWrite c o => c.lat == 0 && o.csr == 0x063
  | .hpasidWrite c o => c.lat == 0 && decide (0x400 ≤ o.csr.toNat ∧ o.csr.toNat < 0x800)
  | .eccstatWrite c o => c.lat == 0 && o.csr == 0xCFA
  | .mclogWrite c o => c.lat == 0 && o.csr == 0xCFB
  | .watchpointWrite c o => c.lat == 0 && decide (0xC90 ≤ o.csr.toNat ∧ o.csr.toNat < 0xCA0)
  | .dispatchTerminate c o => c.lat == 0 && o.xc == 0
  | .dispatchContinue c o => c.lat == 0 && o.xc == 0
  | .sigwaitArm c _ => c.lat == 0
  | .tlbinvPages c _ => c.lat == 0
  | .tlbinvPartition c _ => c.lat == 0
  | .pcfgQuotaGrant c o => c.lat == 0 && o.xc == 0
  | .pcfgQuotaRevoke c o => c.lat == 0 && o.xc == 0
  | .pcfgCal c o => c.lat == 0 && o.xc == 0
  | .pcfgBand c o => c.lat == 0 && o.xc == 0
  | .pcfgSlice c o => c.lat == 0 && o.xc == 0
  | .pcfgStateDrain c o => c.lat == 0 && o.xc == 0
  | .pcfgStateScrub c o => c.lat == 0 && o.xc == 0
  | .pcfgStateRelease c o => c.lat == 0 && o.xc == 0
  | .pcfgStateActive c o => c.lat == 0 && o.xc == 0
  | .pcfgGmapMap c o => c.lat == 0 && o.xc == 0
  | .pcfgGmapUnmap c o => c.lat == 0 && o.xc == 0
  | .pcfgDestroy c o => c.lat == 0 && o.xc == 0
  | .kvrackPooladd c o => c.lat == 0 && o.sidx == 0
  | .kvrackPooltake c o => c.lat == 0 && o.sidx == 0
  | .spmapUnmap c o => c.lat == 0 && o.sidx == 0
  | .migrFetch c o => c.lat == 0 && o.sidx == 0
  | .migrFlush c o => c.lat == 0 && o.sidx == 0
  | .migrPooladd c o => c.lat == 0 && o.sidx == 0
  | .migrPooltake c o => c.lat == 0 && o.sidx == 0
  | .sigwaitTimeout _ => true
  | .waitaWake _ => true
  | .barrierPhaseComplete _ _ _ => true
  | .pageWalk _ _ _ => true
  | .kvWalk _ _ => true
  | .pinWaitRelease _ _ => true
  | .kvwaitExpire _ => true
  | .steepwaitExpire _ => true
  | .rackBlockMove _ _ => true
  | .blockRelease _ => true
  | .remoteKvResolve _ _ _ => true
  | .remoteDecrement _ _ => true
  | .kvStreamPrefetch _ _ => true
  | .streamPrefetch _ _ => true
  | .steepEntry _ => true
  | .steepFetchComplete _ _ _ _ => true
  | .migrPageComplete _ _ => true
  | .granuleFill _ _ _ => true
  | .backgroundBankTake _ _ => true
  | .commandCompletion _ => true
  | .regionHoldExpire _ => true
  | .push _ _ _ => true
  | .scanStep _ => true
  | .hitch _ => true
  | .jobLaunch _ => true
  | .launch _ => true
  | .taskStop _ => true
  | .rollback _ => true
  | .groupSwapOut _ _ => true
  | .spillImage _ _ => true
  | .groupPark _ _ => true
  | .parkConditionClear _ _ => true
  | .taskTerminate _ _ => true
  | .uncorrectable _ _ => true
  | .poison _ => true
  | .softErrorCorrect => true
  | .patrolScrub _ => true
  | .linkDown _ => true
  | .linkRestore _ => true
  | .peerAccess _ _ _ _ _ _ => true
  | .peerEnq _ _ _ => true
  | .crpIngress _ _ => true
  | .rawFrameReceive _ _ => true
  | .crpEgress _ => true
  | .returnSlotExpire _ _ => true
  | .notifyWrite _ _ _ => true
  | .ringFetch _ _ => true
  | .atsCompletion _ _ _ _ _ => true
  | .prgResponse _ _ _ _ => true
  | .atsInvalidation _ _ _ _ => true
  | .hostWrite _ _ _ _ => true
  | .vfFlr _ => true
  | .frameBoundary => true
  | .calendarSlot _ _ _ => true
  | .sliceEnd _ _ => true
  | .drainComplete _ => true
  | .scrubComplete _ => true
  | .usageSeal _ => true
  | .watch _ _ => true
  | .watchev _ _ _ _ _ => true
  | .bringUp _ => true
  | .thermtrip => true
  | .perstAssert => true
  | .peerAcknowledgement _ _ _ _ => true
  | .hostCompletion _ _ => true

end Sys2Proof
end

