-- ==== Sys2Proof/Decode.lean ====
section
/-! DEFINITION. The decoder, total on any bits, refusing by name, and after it the encoder, both written from the layouts
of R221 to R225 and of the slot formats. -/

namespace Sys2Proof

/-- Why a word is no operation. All of them raise ILLEGAL_SLOT, but `header`, which raises ILLEGAL_BUNDLE (R222). -/
inductive DecodeError where
  /-- A code that no chapter assigns (R241). -/
  | unassigned
  /-- A reserved bit that is not zero (R252, R225). -/
  | reserved
  /-- A field the operation does not allow: a latency bound, a register number, a condition (R234, R252). -/
  | illFormed
  /-- Opcode 0x00 with another bit set (R242). -/
  | zeroOpcode
  /-- A reserved header bit, or LMI without SAFE (R222). -/
  | header
  deriving DecidableEq, Repr

/-- CSRW (R265), or the row that a write of this CSR has in the table. -/
def csrWrite (c : Ctl) (o : SC) : Instr :=
  if o.csr == 0x063 then .fabidWrite c o else if o.csr == 0x064 then .cxlcapWrite c o
  else if o.csr == 0x065 then .gftbaseWrite c o else if 0x400 ≤ o.csr.toNat ∧ o.csr.toNat < 0x800 then .hpasidWrite c o
  else if 0xC90 ≤ o.csr.toNat ∧ o.csr.toNat < 0xCA0 then .watchpointWrite c o
  else if o.csr == 0xCF8 then .attreqWrite c o else if o.csr == 0xCFA then .eccstatWrite c o
  else if o.csr == 0xCFB then .mclogWrite c o else .csrw c o


/-- The fields of SR in OPERANDS; a reserved bit that is not zero is refused (R252). -/
def unpackSR (p : BitVec 46) : Except DecodeError SR :=
  if p.extractLsb' 0 22 == 0 then
    .ok ⟨p.extractLsb' 40 6, p.extractLsb' 34 6, p.extractLsb' 28 6, p.extractLsb' 22 6⟩
  else .error .reserved

/-- OPERANDS of SR. -/
def packSR (o : SR) : BitVec 46 :=
  o.xd ++ o.xa ++ o.xb ++ o.xc ++ 0#22

/-- The fields of SSel in OPERANDS; a reserved bit that is not zero is refused (R252). -/
def unpackSSel (p : BitVec 46) : Except DecodeError SSel :=
  if p.extractLsb' 0 23 == 0 then
    .ok ⟨p.extractLsb' 40 6, p.extractLsb' 34 6, p.extractLsb' 28 6, p.extractLsb' 23 5⟩
  else .error .reserved

/-- OPERANDS of SSel. -/
def packSSel (o : SSel) : BitVec 46 :=
  o.xd ++ o.xa ++ o.xb ++ o.pa ++ 0#23

/-- The fields of SI in OPERANDS; a reserved bit that is not zero is refused (R252). -/
def unpackSI (p : BitVec 46) : Except DecodeError SI :=
  .ok ⟨p.extractLsb' 40 6, p.extractLsb' 34 6, p.extractLsb' 0 34⟩

/-- OPERANDS of SI. -/
def packSI (o : SI) : BitVec 46 :=
  o.xd ++ o.xa ++ o.imm

/-- The fields of SB in OPERANDS; a reserved bit that is not zero is refused (R252). -/
def unpackSB (p : BitVec 46) : Except DecodeError SB :=
  if p.extractLsb' 0 22 == 0 then
    .ok ⟨p.extractLsb' 40 6, p.extractLsb' 34 6, p.extractLsb' 28 6, p.extractLsb' 22 6⟩
  else .error .reserved

/-- OPERANDS of SB. -/
def packSB (o : SB) : BitVec 46 :=
  o.xd ++ o.xa ++ o.pos ++ o.len ++ 0#22

/-- The fields of SL in OPERANDS; a reserved bit that is not zero is refused (R252). -/
def unpackSL (p : BitVec 46) : Except DecodeError SL :=
  .ok ⟨p.extractLsb' 40 6, p.extractLsb' 0 40⟩

/-- OPERANDS of SL. -/
def packSL (o : SL) : BitVec 46 :=
  o.xd ++ o.imm

/-- The fields of SP in OPERANDS; a reserved bit that is not zero is refused (R252). -/
def unpackSP (p : BitVec 46) : Except DecodeError SP :=
  if p.extractLsb' 0 14 == 0 then
    .ok ⟨p.extractLsb' 40 6, p.extractLsb' 37 3, p.extractLsb' 31 6, p.extractLsb' 25 6, p.extractLsb' 20 5, p.extractLsb' 15 5, p.extractLsb' 14 1⟩
  else .error .reserved

/-- OPERANDS of SP. -/
def packSP (o : SP) : BitVec 46 :=
  o.d ++ o.cond ++ o.xa ++ o.xb ++ o.pa ++ o.pb ++ o.h ++ 0#14

/-- The fields of SPI in OPERANDS; a reserved bit that is not zero is refused (R252). -/
def unpackSPI (p : BitVec 46) : Except DecodeError SPI :=
  .ok ⟨p.extractLsb' 40 6, p.extractLsb' 37 3, p.extractLsb' 31 6, p.extractLsb' 0 31⟩

/-- OPERANDS of SPI. -/
def packSPI (o : SPI) : BitVec 46 :=
  o.d ++ o.cond ++ o.xa ++ o.imm

/-- The fields of SJ in OPERANDS; a reserved bit that is not zero is refused (R252). -/
def unpackSJ (p : BitVec 46) : Except DecodeError SJ :=
  .ok ⟨p.extractLsb' 0 46⟩

/-- OPERANDS of SJ. -/
def packSJ (o : SJ) : BitVec 46 :=
  o.off

/-- The fields of SC in OPERANDS; a reserved bit that is not zero is refused (R252). -/
def unpackSC (p : BitVec 46) : Except DecodeError SC :=
  if p.extractLsb' 0 22 == 0 then
    .ok ⟨p.extractLsb' 40 6, p.extractLsb' 34 6, p.extractLsb' 22 12⟩
  else .error .reserved

/-- OPERANDS of SC. -/
def packSC (o : SC) : BitVec 46 :=
  o.xd ++ o.xa ++ o.csr ++ 0#22

/-- The fields of SF in OPERANDS; a reserved bit that is not zero is refused (R252). -/
def unpackSF (p : BitVec 46) : Except DecodeError SF :=
  if p.extractLsb' 0 31 == 0 then
    .ok ⟨p.extractLsb' 40 6, p.extractLsb' 37 3, p.extractLsb' 31 6⟩
  else .error .reserved

/-- OPERANDS of SF. -/
def packSF (o : SF) : BitVec 46 :=
  o.xd ++ o.fs ++ o.xa ++ 0#31

/-- The fields of ST in OPERANDS; a reserved bit that is not zero is refused (R252). -/
def unpackST (p : BitVec 46) : Except DecodeError ST :=
  if p.extractLsb' 16 30 == 0 then
    .ok ⟨p.extractLsb' 0 16⟩
  else .error .reserved

/-- OPERANDS of ST. -/
def packST (o : ST) : BitVec 46 :=
  0#30 ++ o.code

/-- The fields of SM in OPERANDS; a reserved bit that is not zero is refused (R252). -/
def unpackSM (p : BitVec 46) : Except DecodeError SM :=
  .ok ⟨p.extractLsb' 40 6, p.extractLsb' 34 6, p.extractLsb' 32 2, p.extractLsb' 29 3, p.extractLsb' 0 29⟩

/-- OPERANDS of SM. -/
def packSM (o : SM) : BitVec 46 :=
  o.xd ++ o.xa ++ o.ord ++ o.scope ++ o.off

/-- The fields of SA in OPERANDS; a reserved bit that is not zero is refused (R252). -/
def unpackSA (p : BitVec 46) : Except DecodeError SA :=
  if p.extractLsb' 0 12 == 0 then
    .ok ⟨p.extractLsb' 40 6, p.extractLsb' 34 6, p.extractLsb' 28 6, p.extractLsb' 22 6, p.extractLsb' 20 2, p.extractLsb' 17 3, p.extractLsb' 13 4, p.extractLsb' 12 1⟩
  else .error .reserved

/-- OPERANDS of SA. -/
def packSA (o : SA) : BitVec 46 :=
  o.xd ++ o.xa ++ o.xb ++ o.xc ++ o.ord ++ o.scope ++ o.aop ++ o.sz ++ 0#12

/-- The fields of SY in OPERANDS; a reserved bit that is not zero is refused (R252). -/
def unpackSY (p : BitVec 46) : Except DecodeError SY :=
  if p.extractLsb' 0 16 == 0 then
    .ok ⟨p.extractLsb' 40 6, p.extractLsb' 34 6, p.extractLsb' 28 6, p.extractLsb' 23 5, p.extractLsb' 20 3, p.extractLsb' 17 3, p.extractLsb' 16 1⟩
  else .error .reserved

/-- OPERANDS of SY. -/
def packSY (o : SY) : BitVec 46 :=
  o.xd ++ o.xa ++ o.xb ++ o.pd ++ o.lvl ++ o.kind ++ o.sp ++ 0#16

/-- The fields of VR in OPERANDS; a reserved bit that is not zero is refused (R252). -/
def unpackVR (p : BitVec 46) : Except DecodeError VR :=
  .ok ⟨p.extractLsb' 38 8, p.extractLsb' 29 9, p.extractLsb' 20 9, p.extractLsb' 11 9, p.extractLsb' 8 3, p.extractLsb' 0 8⟩

/-- OPERANDS of VR. -/
def packVR (o : VR) : BitVec 46 :=
  o.dst ++ o.opa ++ o.opb ++ o.opc ++ o.fsel ++ o.fn

/-- The fields of VP in OPERANDS; a reserved bit that is not zero is refused (R252). -/
def unpackVP (p : BitVec 46) : Except DecodeError VP :=
  if p.extractLsb' 43 3 == 0 && p.extractLsb' 3 17 == 0 then
    .ok ⟨p.extractLsb' 38 5, p.extractLsb' 29 9, p.extractLsb' 20 9, p.extractLsb' 0 3⟩
  else .error .reserved

/-- OPERANDS of VP. -/
def packVP (o : VP) : BitVec 46 :=
  0#3 ++ o.pd ++ o.opa ++ o.opb ++ 0#17 ++ o.cond

/-- The fields of VX in OPERANDS; a reserved bit that is not zero is refused (R252). -/
def unpackVX (p : BitVec 46) : Except DecodeError VX :=
  if p.extractLsb' 38 2 == 0 && p.extractLsb' 7 22 == 0 then
    .ok ⟨p.extractLsb' 40 6, p.extractLsb' 29 9, p.extractLsb' 0 7⟩
  else .error .reserved

/-- OPERANDS of VX. -/
def packVX (o : VX) : BitVec 46 :=
  o.xd ++ 0#2 ++ o.opa ++ 0#22 ++ o.lane

/-- The fields of VI in OPERANDS; a reserved bit that is not zero is refused (R252). -/
def unpackVI (p : BitVec 46) : Except DecodeError VI :=
  if p.extractLsb' 32 6 == 0 then
    .ok ⟨p.extractLsb' 38 8, p.extractLsb' 0 32⟩
  else .error .reserved

/-- OPERANDS of VI. -/
def packVI (o : VI) : BitVec 46 :=
  o.dst ++ 0#6 ++ o.imm

/-- The fields of VK in OPERANDS; a reserved bit that is not zero is refused (R252). -/
def unpackVK (p : BitVec 46) : Except DecodeError VK :=
  if p.extractLsb' 0 32 == 0 then
    .ok ⟨p.extractLsb' 38 8, p.extractLsb' 32 6⟩
  else .error .reserved

/-- OPERANDS of VK. -/
def packVK (o : VK) : BitVec 46 :=
  o.dst ++ o.xk ++ 0#32

/-- The fields of VM in OPERANDS; a reserved bit that is not zero is refused (R252). -/
def unpackVM (p : BitVec 46) : Except DecodeError VM :=
  if p.extractLsb' 0 1 == 0 then
    .ok ⟨p.extractLsb' 37 9, p.extractLsb' 22 15, p.extractLsb' 12 10, p.extractLsb' 6 6, p.extractLsb' 4 2, p.extractLsb' 1 3⟩
  else .error .reserved

/-- OPERANDS of VM. -/
def packVM (o : VM) : BitVec 46 :=
  o.data ++ o.offb ++ o.step ++ o.xb ++ o.mode ++ o.fsel ++ 0#1

/-- The fields of VG in OPERANDS; a reserved bit that is not zero is refused (R252). -/
def unpackVG (p : BitVec 46) : Except DecodeError VG :=
  .ok ⟨p.extractLsb' 37 9, p.extractLsb' 28 9, p.extractLsb' 13 15, p.extractLsb' 7 6, p.extractLsb' 0 7⟩

/-- OPERANDS of VG. -/
def packVG (o : VG) : BitVec 46 :=
  o.data ++ o.idx ++ o.offb ++ o.xb ++ o.step

/-- The fields of MX in OPERANDS; a reserved bit that is not zero is refused (R252). -/
def unpackMX (p : BitVec 46) : Except DecodeError MX :=
  .ok ⟨p.extractLsb' 42 4, p.extractLsb' 36 6, p.extractLsb' 30 6, p.extractLsb' 20 10, p.extractLsb' 16 4, p.extractLsb' 13 3, p.extractLsb' 10 3, p.extractLsb' 8 2, p.extractLsb' 4 4, p.extractLsb' 0 4⟩

/-- OPERANDS of MX. -/
def packMX (o : MX) : BitVec 46 :=
  o.td ++ o.xa ++ o.xb ++ o.pd ++ o.kb ++ o.fa ++ o.fb ++ o.kind ++ o.sta ++ o.stb

/-- The fields of MS in OPERANDS; a reserved bit that is not zero is refused (R252). -/
def unpackMS (p : BitVec 46) : Except DecodeError MS :=
  .ok ⟨p.extractLsb' 42 4, p.extractLsb' 36 6, p.extractLsb' 30 6, p.extractLsb' 20 10, p.extractLsb' 16 4, p.extractLsb' 13 3, p.extractLsb' 10 3, p.extractLsb' 8 2, p.extractLsb' 4 4, p.extractLsb' 2 2, p.extractLsb' 0 2⟩

/-- OPERANDS of MS. -/
def packMS (o : MS) : BitVec 46 :=
  o.td ++ o.xa ++ o.xb ++ o.pd ++ o.kb ++ o.fa ++ o.fb ++ o.ntc ++ o.lvf ++ o.sta ++ o.stb

/-- The fields of MK in OPERANDS; a reserved bit that is not zero is refused (R252). -/
def unpackMK (p : BitVec 46) : Except DecodeError MK :=
  if p.extractLsb' 30 2 == 0 && p.extractLsb' 11 2 == 0 then
    .ok ⟨p.extractLsb' 42 4, p.extractLsb' 36 6, p.extractLsb' 32 4, p.extractLsb' 20 10, p.extractLsb' 16 4, p.extractLsb' 13 3, p.extractLsb' 4 7, p.extractLsb' 0 4⟩
  else .error .reserved

/-- OPERANDS of MK. -/
def packMK (o : MK) : BitVec 46 :=
  o.td ++ o.xa ++ o.sk ++ 0#2 ++ o.pd ++ o.kb ++ o.fa ++ 0#2 ++ o.nr ++ o.sta

/-- The fields of MR in OPERANDS; a reserved bit that is not zero is refused (R252). -/
def unpackMR (p : BitVec 46) : Except DecodeError MR :=
  .ok ⟨p.extractLsb' 42 4, p.extractLsb' 36 6, p.extractLsb' 29 7, p.extractLsb' 22 7, p.extractLsb' 20 2, p.extractLsb' 17 3, p.extractLsb' 8 9, p.extractLsb' 0 8⟩

/-- OPERANDS of MR. -/
def packMR (o : MR) : BitVec 46 :=
  o.td ++ o.xa ++ o.row ++ o.nr ++ o.ty ++ o.fs ++ o.sto ++ o.str

/-- The fields of MT in OPERANDS; a reserved bit that is not zero is refused (R252). -/
def unpackMT (p : BitVec 46) : Except DecodeError MT :=
  if p.extractLsb' 0 25 == 0 then
    .ok ⟨p.extractLsb' 42 4, p.extractLsb' 38 4, p.extractLsb' 34 4, p.extractLsb' 25 9⟩
  else .error .reserved

/-- OPERANDS of MT. -/
def packMT (o : MT) : BitVec 46 :=
  o.td ++ o.ta ++ o.tb ++ o.src ++ 0#25

/-- The fields of MV in OPERANDS; a reserved bit that is not zero is refused (R252). -/
def unpackMV (p : BitVec 46) : Except DecodeError MV :=
  if p.extractLsb' 0 34 == 0 then
    .ok ⟨p.extractLsb' 38 8, p.extractLsb' 34 4⟩
  else .error .reserved

/-- OPERANDS of MV. -/
def packMV (o : MV) : BitVec 46 :=
  o.dst ++ o.ta ++ 0#34

/-- The fields of CK in OPERANDS; a reserved bit that is not zero is refused (R252). -/
def unpackCK (p : BitVec 46) : Except DecodeError CK :=
  if p.extractLsb' 0 11 == 0 then
    .ok ⟨p.extractLsb' 31 15, p.extractLsb' 25 6, p.extractLsb' 15 10, p.extractLsb' 11 4⟩
  else .error .reserved

/-- OPERANDS of CK. -/
def packCK (o : CK) : BitVec 46 :=
  o.offb ++ o.xb ++ o.step ++ o.sidx ++ 0#11

/-- The operation that opcode OP names in a slot of class S (R241), before its fields are checked. -/
def decodeS (op : Nat) (c : Ctl) (p : BitVec 46) : Except DecodeError Instr :=
  match op with
  | 0x01 => (unpackSR p).map (.add c)
  | 0x02 => (unpackSR p).map (.sub c)
  | 0x03 => (unpackSR p).map (.mul c)
  | 0x04 => (unpackSR p).map (.mulh c)
  | 0x05 => (unpackSR p).map (.mulhu c)
  | 0x06 => (unpackSR p).map (.div c)
  | 0x07 => (unpackSR p).map (.divu c)
  | 0x08 => (unpackSR p).map (.rem c)
  | 0x09 => (unpackSR p).map (.remu c)
  | 0x0A => (unpackSR p).map (.and c)
  | 0x0B => (unpackSR p).map (.or c)
  | 0x0C => (unpackSR p).map (.xor c)
  | 0x0D => (unpackSR p).map (.shl c)
  | 0x0E => (unpackSR p).map (.shr c)
  | 0x0F => (unpackSR p).map (.sra c)
  | 0x10 => (unpackSR p).map (.min c)
  | 0x11 => (unpackSR p).map (.max c)
  | 0x12 => (unpackSR p).map (.minu c)
  | 0x13 => (unpackSR p).map (.maxu c)
  | 0x14 => (unpackSR p).map (.clz c)
  | 0x15 => (unpackSR p).map (.ctz c)
  | 0x16 => (unpackSR p).map (.popc c)
  | 0x17 => (unpackSSel p).map (.sel c)
  | 0x20 => (unpackSI p).map (.addi c)
  | 0x21 => (unpackSI p).map (.andi c)
  | 0x22 => (unpackSI p).map (.ori c)
  | 0x23 => (unpackSI p).map (.xori c)
  | 0x24 => (unpackSI p).map (.shli c)
  | 0x25 => (unpackSI p).map (.shri c)
  | 0x26 => (unpackSI p).map (.srai c)
  | 0x27 => (unpackSB p).map (.bfx c)
  | 0x28 => (unpackSB p).map (.bfi c)
  | 0x30 => (unpackSL p).map (.li c)
  | 0x31 => (unpackSL p).map (.lih c)
  | 0x32 => (unpackSL p).map (.addpc c)
  | 0x40 => (unpackSP p).map (.cmp c)
  | 0x41 => (unpackSPI p).map (.cmpi c)
  | 0x48 => (unpackSP p).map (.pand c)
  | 0x49 => (unpackSP p).map (.por c)
  | 0x4A => (unpackSP p).map (.pxor c)
  | 0x4B => (unpackSP p).map (.pnot c)
  | 0x4C => (unpackSP p).map (.pset c)
  | 0x4D => (unpackSP p).map (.pget c)
  | 0x60 => (unpackSJ p).map (.br c)
  | 0x61 => (unpackSJ p).map (.jmp c)
  | 0x62 => (unpackSR p).map (.jmpx c)
  | 0x63 => (unpackSJ p).map (.call c)
  | 0x64 => (unpackSR p).map (.callx c)
  | 0x65 => (unpackSR p).map (.ret c)
  | 0x66 => (unpackSJ p).map (.loopC c)
  | 0x67 => (unpackSJ p).map (.loopM c)
  | 0x68 => (unpackSI p).map (.setlc c)
  | 0x69 => (unpackSI p).map (.setsg c)
  | 0x6A => (unpackST p).map (.halt c)
  | 0xC0 => (unpackSF p).map (.fmt c)
  | 0xC1 => (unpackSF p).map (.fmtrd c)
  | 0xC2 => (unpackSC p).map (.csrr c)
  | 0xC3 => (unpackSC p).map (csrWrite c)
  | 0xC4 => (unpackSC p).map (.csrs c)
  | 0xC5 => (unpackSC p).map (.csrc c)
  | 0xC6 => (unpackST p).map (.trap c)
  | 0xC7 => (unpackST p).map (.eret c)
  | 0xD0 => (unpackSR p).map (.mcld c)
  | 0xD1 => (unpackSR p).map (.mcst c)
  | 0xD2 => (unpackSR p).map (.kset c)
  | 0xD3 => (unpackSR p).map (.ringf c)
  | 0xD4 => (unpackSR p).map (.dispatchResume c)
  | 0xD5 => (unpackSR p).map (.sigwaitHalt c)
  | 0xD7 => (unpackSR p).map (.tlbinvAsid c)
  | 0xD8 => (unpackSR p).map (.useal c)
  | 0xD6 => (unpackSR p).map (.pcfgCreate c)
  | 0x80 => (unpackSM p).map (.ldb c)
  | 0x81 => (unpackSM p).map (.ldbu c)
  | 0x82 => (unpackSM p).map (.ldh c)
  | 0x83 => (unpackSM p).map (.ldhu c)
  | 0x84 => (unpackSM p).map (.ldw c)
  | 0x85 => (unpackSM p).map (.ldwu c)
  | 0x86 => (unpackSM p).map (.ldd c)
  | 0x88 => (unpackSM p).map (.stb c)
  | 0x89 => (unpackSM p).map (.sth c)
  | 0x8A => (unpackSM p).map (.stw c)
  | 0x8B => (unpackSM p).map (.std c)
  | 0x8C => (unpackSM p).map (.stnt c)
  | 0x90 => (unpackSY p).map (.fence c)
  | 0x91 => (unpackSY p).map (.drainnt c)
  | 0x98 => (unpackSA p).map (.amo c)
  | 0x99 => (unpackSA p).map (.cas c)
  | 0x9A => (unpackSA p).map (.red c)
  | 0xA0 => (unpackSY p).map (.waita c)
  | 0xA8 => (unpackSY p).map (.enq c)
  | 0xB0 => (unpackSY p).map (.exit c)
  | 0xB1 => (unpackSY p).map (.exitS c)
  | 0xB8 => (unpackSY p).map (.barArr c)
  | 0xB9 => (unpackSY p).map (.barWait c)
  | 0xBA => (unpackSY p).map (.barTry c)
  | _ => .error .unassigned

/-- The operation that opcode OP names in a slot of class V (R241), before its fields are checked. -/
def decodeV (op : Nat) (c : Ctl) (p : BitVec 46) : Except DecodeError Instr :=
  match op with
  | 0x01 => (unpackVR p).map (.vfadd c)
  | 0x02 => (unpackVR p).map (.vfsub c)
  | 0x03 => (unpackVR p).map (.vfmul c)
  | 0x04 => (unpackVR p).map (.vfma c)
  | 0x05 => (unpackVR p).map (.vfms c)
  | 0x06 => (unpackVR p).map (.vfnma c)
  | 0x07 => (unpackVR p).map (.vfmin c)
  | 0x08 => (unpackVR p).map (.vfmax c)
  | 0x09 => (unpackVR p).map (.vfabs c)
  | 0x0A => (unpackVR p).map (.vfneg c)
  | 0x0B => (unpackVP p).map (.vfcmp c)
  | 0x10 => (unpackVR p).map (.vhaddBf16 c)
  | 0x11 => (unpackVR p).map (.vhaddF16 c)
  | 0x12 => (unpackVR p).map (.vhmulBf16 c)
  | 0x13 => (unpackVR p).map (.vhmulF16 c)
  | 0x14 => (unpackVR p).map (.vhfmaBf16 c)
  | 0x15 => (unpackVR p).map (.vhfmaF16 c)
  | 0x40 => (unpackVR p).map (.vadd c)
  | 0x41 => (unpackVR p).map (.vsub c)
  | 0x42 => (unpackVR p).map (.vmul c)
  | 0x43 => (unpackVR p).map (.vmulh c)
  | 0x44 => (unpackVR p).map (.vadds c)
  | 0x45 => (unpackVR p).map (.vsubs c)
  | 0x46 => (unpackVR p).map (.vmin c)
  | 0x47 => (unpackVR p).map (.vmax c)
  | 0x48 => (unpackVR p).map (.vminu c)
  | 0x49 => (unpackVR p).map (.vmaxu c)
  | 0x4A => (unpackVR p).map (.vand c)
  | 0x4B => (unpackVR p).map (.vor c)
  | 0x4C => (unpackVR p).map (.vxor c)
  | 0x4D => (unpackVR p).map (.vshl c)
  | 0x4E => (unpackVR p).map (.vshr c)
  | 0x4F => (unpackVR p).map (.vsra c)
  | 0x50 => (unpackVP p).map (.vcmp c)
  | 0x51 => (unpackVR p).map (.vabs c)
  | 0x60 => (unpackVR p).map (.vdot4SS c)
  | 0x61 => (unpackVR p).map (.vdot4SU c)
  | 0x62 => (unpackVR p).map (.vdot4US c)
  | 0x63 => (unpackVR p).map (.vdot4UU c)
  | 0x64 => (unpackVR p).map (.vdot4sSS c)
  | 0x65 => (unpackVR p).map (.vdot4sSU c)
  | 0x66 => (unpackVR p).map (.vdot4sUS c)
  | 0x67 => (unpackVR p).map (.vdot4sUU c)
  | 0x68 => (unpackVR p).map (.vdot8SS c)
  | 0x69 => (unpackVR p).map (.vdot8SU c)
  | 0x6A => (unpackVR p).map (.vdot8US c)
  | 0x6B => (unpackVR p).map (.vdot8UU c)
  | 0x6C => (unpackVR p).map (.vdot8sSS c)
  | 0x6D => (unpackVR p).map (.vdot8sSU c)
  | 0x6E => (unpackVR p).map (.vdot8sUS c)
  | 0x6F => (unpackVR p).map (.vdot8sUU c)
  | 0x80 => (unpackVR p).map (.vexp2 c)
  | 0x81 => (unpackVR p).map (.vlog2 c)
  | 0x82 => (unpackVR p).map (.vrcp c)
  | 0x83 => (unpackVR p).map (.vrsq c)
  | 0x84 => (unpackVR p).map (.vtanh c)
  | 0x85 => (unpackVR p).map (.vsigm c)
  | 0x90 => (unpackVK p).map (.vrand c)
  | 0xA0 => (unpackVR p).map (.vcvtF32Int c)
  | 0xA1 => (unpackVR p).map (.vcvtF32Uint c)
  | 0xA2 => (unpackVR p).map (.vcvtIntF32 c)
  | 0xA3 => (unpackVR p).map (.vcvtIntF32Rtz c)
  | 0xA4 => (unpackVR p).map (.vcvtUintF32 c)
  | 0xA5 => (unpackVR p).map (.vcvtUintF32Rtz c)
  | 0xA6 => (unpackVR p).map (.vcvtBf16F32 c)
  | 0xA7 => (unpackVR p).map (.vcvtBf16F32Rtz c)
  | 0xA8 => (unpackVR p).map (.vcvtF16F32 c)
  | 0xA9 => (unpackVR p).map (.vcvtF16F32Rtz c)
  | 0xAA => (unpackVR p).map (.vcvtF32Bf16 c)
  | 0xAB => (unpackVR p).map (.vcvtF32F16 c)
  | 0xB0 => (unpackVR p).map (.vqnt c)
  | 0xB1 => (unpackVR p).map (.vdqnt c)
  | 0xB2 => (unpackVR p).map (.vscl c)
  | 0xC0 => (unpackVR p).map (.vsel c)
  | 0xC1 => (unpackVR p).map (.vmov c)
  | 0xC2 => (unpackVI p).map (.vmovi c)
  | 0xC3 => (unpackVR p).map (.vbcast c)
  | 0xC4 => (unpackVX p).map (.vextr c)
  | 0xC5 => (unpackVR p).map (.vins c)
  | 0xC6 => (unpackVR p).map (.vperm c)
  | 0xC7 => (unpackVR p).map fun o => if o.fn.getLsbD 7 then .vxclX c o else .vxcl c o
  | 0xE0 => (unpackVM p).map (.vld c)
  | 0xE1 => (unpackVM p).map (.vst c)
  | 0xE2 => (unpackVG p).map (.vgath c)
  | 0xE3 => (unpackVG p).map (.vscat c)
  | _ => .error .unassigned

/-- The operation that opcode OP names in a slot of class M (R241), before its fields are checked. -/
def decodeM (op : Nat) (c : Ctl) (p : BitVec 46) : Except DecodeError Instr :=
  match op with
  | 0x01 => (unpackMX p).map (.mma c)
  | 0x02 => (unpackMS p).map (.mmas c)
  | 0x03 => (unpackMK p).map (.mmat c)
  | 0x04 => (unpackMK p).map (.mmav c)
  | 0x05 => (unpackMX p).map (.mred c)
  | 0x06 => (unpackMX p).map (.mscan c)
  | 0x08 => (unpackMR p).map (.mld c)
  | 0x09 => (unpackMR p).map (.mst c)
  | 0x10 => (unpackMT p).map (.mzero c)
  | 0x11 => (unpackMT p).map (.madd c)
  | 0x12 => (unpackMT p).map (.mcopy c)
  | 0x13 => (unpackMT p).map (.mxpose c)
  | 0x14 => (unpackMT p).map (.mscale c)
  | 0x18 => (unpackMV p).map (.mrmax c)
  | _ => .error .unassigned

/-- The operation that opcode OP names in a slot of class C (R241), before its fields are checked. -/
def decodeC (op : Nat) (c : Ctl) (p : BitVec 46) : Except DecodeError Instr :=
  match op with
  | 0x40 => (unpackCK p).map (.kvnew c)
  | 0x41 => (unpackCK p).map (.kvapp c)
  | 0x42 => (unpackCK p).map (.kvtrunc c)
  | 0x43 => (unpackCK p).map (.kvfork c)
  | 0x44 => (unpackCK p).map (.kvfree c)
  | 0x45 => (unpackCK p).map (.kvrackRack c)
  | 0x46 => (unpackCK p).map (.kvbind c)
  | 0x47 => (unpackCK p).map (.kvqry c)
  | 0x01 => (unpackCK p).map (.sbind c)
  | 0x02 => (unpackCK p).map (.sbindg c)
  | 0x03 => (unpackCK p).map (.sunbind c)
  | 0x04 => (unpackCK p).map (.sflush c)
  | 0x08 => (unpackCK p).map (.cpy c)
  | 0x09 => (unpackCK p).map (.cpy2d c)
  | 0x0A => (unpackCK p).map (.mcstMulticast c)
  | 0x10 => (unpackCK p).map (.spmap c)
  | 0x11 => (unpackCK p).map (.spsync c)
  | 0x12 => (unpackCK p).map (.spinv c)
  | 0x60 => (unpackCK p).map (.migrMove c)
  | 0x61 => (unpackCK p).map (.cred c)
  | 0x62 => (unpackCK p).map (.cbcast c)
  | _ => .error .unassigned

/-- The fields every slot word has beside OP and OPERANDS (R223). -/
def wordCtl (w : BitVec 64) : Ctl := ⟨w.extractLsb' 52 4, w.extractLsb' 47 5, w.getLsbD 46⟩

/-- The operation of a slot word in a slot of class `k` (R223, R241, R242), or why it raises ILLEGAL_SLOT. (DEDUCED, log entry 74) -/
def decodeSlot (k : Cls) (w : BitVec 64) : Except DecodeError Instr :=
  let op := (w.extractLsb' 56 8).toNat
  let c := wordCtl w
  let p := w.extractLsb' 0 46
  if op = 0 then
    if w = 0 then .ok (match k with | .s => .nop | _ => .idle) else .error .zeroOpcode
  else
    let r := match k with
      | .s => decodeS op c p
      | .v => decodeV op c p
      | .m => decodeM op c p
      | .c => decodeC op c p
    match r with
    | .ok i => if i.wf then .ok i else .error .illFormed
    | .error e => .error e

/-- A bundle header (R221). -/
structure Header where
  pm : BitVec 6
  rpt : BitVec 8
  safe : Bool
  rgn : Bool
  lmi : BitVec 6
  deriving DecidableEq, Repr

/-- The header of a bundle (R221), or ILLEGAL_BUNDLE (R222). -/
def decodeHeader (w : BitVec 32) : Except DecodeError Header :=
  let h : Header := ⟨w.extractLsb' 0 6, w.extractLsb' 6 8, w.getLsbD 14, w.getLsbD 15, w.extractLsb' 16 6⟩
  if w.extractLsb' 22 10 == 0 && (h.safe || h.lmi == 0) then .ok h else .error .header

/-- The class of slot number `k` in PM order: S, V0, V1, M, C0, C1 (R220). -/
def slotCls (k : Nat) : Cls := match k with | 0 => .s | 1 => .v | 2 => .v | 3 => .m | _ => .c

/-- The slots that PM names, in ascending order (R220). -/
def pmSlots (pm : BitVec 6) : List Nat := (List.range 6).filter pm.getLsbD

/-- How many bytes a bundle has (R220). -/
def bundleLen (pm : BitVec 6) : Nat := 4 + 8 * (pmSlots pm).length

/-- The slot words of a bundle, each with its slot number and what it decodes to (R220, R223). `bits` is the bundle as one
number, least significant byte first. -/
def decodeSlots (pm : BitVec 6) (bits : Nat) : List (Nat × BitVec 64 × Except DecodeError Instr) :=
  ((pmSlots pm).zip (List.range 6)).map fun (k, n) =>
    let w := BitVec.ofNat 64 (bits >>> (32 + 64 * n))
    (k, w, decodeSlot (slotCls k) w)

/-- A slot word put together from its fields (R223). -/
def word (op : Nat) (c : Ctl) (p : BitVec 46) : BitVec 64 :=
  BitVec.ofNat 8 op ++ c.lat ++ c.pred ++ BitVec.ofBool c.pn ++ p


/-- The slot word of an operation: OP, LAT, PRED, PN and OPERANDS (R223). An event has no word. -/
def encode : Instr → BitVec 64
  | .nop => 0
  | .idle => 0
  | .add c o => word 0x01 c (packSR o)
  | .sub c o => word 0x02 c (packSR o)
  | .mul c o => word 0x03 c (packSR o)
  | .mulh c o => word 0x04 c (packSR o)
  | .mulhu c o => word 0x05 c (packSR o)
  | .div c o => word 0x06 c (packSR o)
  | .divu c o => word 0x07 c (packSR o)
  | .rem c o => word 0x08 c (packSR o)
  | .remu c o => word 0x09 c (packSR o)
  | .and c o => word 0x0A c (packSR o)
  | .or c o => word 0x0B c (packSR o)
  | .xor c o => word 0x0C c (packSR o)
  | .shl c o => word 0x0D c (packSR o)
  | .shr c o => word 0x0E c (packSR o)
  | .sra c o => word 0x0F c (packSR o)
  | .min c o => word 0x10 c (packSR o)
  | .max c o => word 0x11 c (packSR o)
  | .minu c o => word 0x12 c (packSR o)
  | .maxu c o => word 0x13 c (packSR o)
  | .clz c o => word 0x14 c (packSR o)
  | .ctz c o => word 0x15 c (packSR o)
  | .popc c o => word 0x16 c (packSR o)
  | .sel c o => word 0x17 c (packSSel o)
  | .addi c o => word 0x20 c (packSI o)
  | .andi c o => word 0x21 c (packSI o)
  | .ori c o => word 0x22 c (packSI o)
  | .xori c o => word 0x23 c (packSI o)
  | .shli c o => word 0x24 c (packSI o)
  | .shri c o => word 0x25 c (packSI o)
  | .srai c o => word 0x26 c (packSI o)
  | .bfx c o => word 0x27 c (packSB o)
  | .bfi c o => word 0x28 c (packSB o)
  | .li c o => word 0x30 c (packSL o)
  | .lih c o => word 0x31 c (packSL o)
  | .addpc c o => word 0x32 c (packSL o)
  | .cmp c o => word 0x40 c (packSP o)
  | .cmpi c o => word 0x41 c (packSPI o)
  | .pand c o => word 0x48 c (packSP o)
  | .por c o => word 0x49 c (packSP o)
  | .pxor c o => word 0x4A c (packSP o)
  | .pnot c o => word 0x4B c (packSP o)
  | .pset c o => word 0x4C c (packSP o)
  | .pget c o => word 0x4D c (packSP o)
  | .br c o => word 0x60 c (packSJ o)
  | .jmp c o => word 0x61 c (packSJ o)
  | .jmpx c o => word 0x62 c (packSR o)
  | .call c o => word 0x63 c (packSJ o)
  | .callx c o => word 0x64 c (packSR o)
  | .ret c o => word 0x65 c (packSR o)
  | .loopC c o => word 0x66 c (packSJ o)
  | .loopM c o => word 0x67 c (packSJ o)
  | .setlc c o => word 0x68 c (packSI o)
  | .setsg c o => word 0x69 c (packSI o)
  | .halt c o => word 0x6A c (packST o)
  | .fmt c o => word 0xC0 c (packSF o)
  | .fmtrd c o => word 0xC1 c (packSF o)
  | .csrr c o => word 0xC2 c (packSC o)
  | .csrw c o => word 0xC3 c (packSC o)
  | .csrs c o => word 0xC4 c (packSC o)
  | .csrc c o => word 0xC5 c (packSC o)
  | .trap c o => word 0xC6 c (packST o)
  | .eret c o => word 0xC7 c (packST o)
  | .mcld c o => word 0xD0 c (packSR o)
  | .mcst c o => word 0xD1 c (packSR o)
  | .kset c o => word 0xD2 c (packSR o)
  | .ringf c o => word 0xD3 c (packSR o)
  | .dispatchResume c o => word 0xD4 c (packSR o)
  | .sigwaitHalt c o => word 0xD5 c (packSR o)
  | .tlbinvAsid c o => word 0xD7 c (packSR o)
  | .useal c o => word 0xD8 c (packSR o)
  | .pcfgCreate c o => word 0xD6 c (packSR o)
  | .ldb c o => word 0x80 c (packSM o)
  | .ldbu c o => word 0x81 c (packSM o)
  | .ldh c o => word 0x82 c (packSM o)
  | .ldhu c o => word 0x83 c (packSM o)
  | .ldw c o => word 0x84 c (packSM o)
  | .ldwu c o => word 0x85 c (packSM o)
  | .ldd c o => word 0x86 c (packSM o)
  | .stb c o => word 0x88 c (packSM o)
  | .sth c o => word 0x89 c (packSM o)
  | .stw c o => word 0x8A c (packSM o)
  | .std c o => word 0x8B c (packSM o)
  | .stnt c o => word 0x8C c (packSM o)
  | .fence c o => word 0x90 c (packSY o)
  | .drainnt c o => word 0x91 c (packSY o)
  | .amo c o => word 0x98 c (packSA o)
  | .cas c o => word 0x99 c (packSA o)
  | .red c o => word 0x9A c (packSA o)
  | .waita c o => word 0xA0 c (packSY o)
  | .enq c o => word 0xA8 c (packSY o)
  | .exit c o => word 0xB0 c (packSY o)
  | .exitS c o => word 0xB1 c (packSY o)
  | .barArr c o => word 0xB8 c (packSY o)
  | .barWait c o => word 0xB9 c (packSY o)
  | .barTry c o => word 0xBA c (packSY o)
  | .vfadd c o => word 0x01 c (packVR o)
  | .vfsub c o => word 0x02 c (packVR o)
  | .vfmul c o => word 0x03 c (packVR o)
  | .vfma c o => word 0x04 c (packVR o)
  | .vfms c o => word 0x05 c (packVR o)
  | .vfnma c o => word 0x06 c (packVR o)
  | .vfmin c o => word 0x07 c (packVR o)
  | .vfmax c o => word 0x08 c (packVR o)
  | .vfabs c o => word 0x09 c (packVR o)
  | .vfneg c o => word 0x0A c (packVR o)
  | .vfcmp c o => word 0x0B c (packVP o)
  | .vhaddBf16 c o => word 0x10 c (packVR o)
  | .vhaddF16 c o => word 0x11 c (packVR o)
  | .vhmulBf16 c o => word 0x12 c (packVR o)
  | .vhmulF16 c o => word 0x13 c (packVR o)
  | .vhfmaBf16 c o => word 0x14 c (packVR o)
  | .vhfmaF16 c o => word 0x15 c (packVR o)
  | .vadd c o => word 0x40 c (packVR o)
  | .vsub c o => word 0x41 c (packVR o)
  | .vmul c o => word 0x42 c (packVR o)
  | .vmulh c o => word 0x43 c (packVR o)
  | .vadds c o => word 0x44 c (packVR o)
  | .vsubs c o => word 0x45 c (packVR o)
  | .vmin c o => word 0x46 c (packVR o)
  | .vmax c o => word 0x47 c (packVR o)
  | .vminu c o => word 0x48 c (packVR o)
  | .vmaxu c o => word 0x49 c (packVR o)
  | .vand c o => word 0x4A c (packVR o)
  | .vor c o => word 0x4B c (packVR o)
  | .vxor c o => word 0x4C c (packVR o)
  | .vshl c o => word 0x4D c (packVR o)
  | .vshr c o => word 0x4E c (packVR o)
  | .vsra c o => word 0x4F c (packVR o)
  | .vcmp c o => word 0x50 c (packVP o)
  | .vabs c o => word 0x51 c (packVR o)
  | .vdot4SS c o => word 0x60 c (packVR o)
  | .vdot4SU c o => word 0x61 c (packVR o)
  | .vdot4US c o => word 0x62 c (packVR o)
  | .vdot4UU c o => word 0x63 c (packVR o)
  | .vdot4sSS c o => word 0x64 c (packVR o)
  | .vdot4sSU c o => word 0x65 c (packVR o)
  | .vdot4sUS c o => word 0x66 c (packVR o)
  | .vdot4sUU c o => word 0x67 c (packVR o)
  | .vdot8SS c o => word 0x68 c (packVR o)
  | .vdot8SU c o => word 0x69 c (packVR o)
  | .vdot8US c o => word 0x6A c (packVR o)
  | .vdot8UU c o => word 0x6B c (packVR o)
  | .vdot8sSS c o => word 0x6C c (packVR o)
  | .vdot8sSU c o => word 0x6D c (packVR o)
  | .vdot8sUS c o => word 0x6E c (packVR o)
  | .vdot8sUU c o => word 0x6F c (packVR o)
  | .vexp2 c o => word 0x80 c (packVR o)
  | .vlog2 c o => word 0x81 c (packVR o)
  | .vrcp c o => word 0x82 c (packVR o)
  | .vrsq c o => word 0x83 c (packVR o)
  | .vtanh c o => word 0x84 c (packVR o)
  | .vsigm c o => word 0x85 c (packVR o)
  | .vrand c o => word 0x90 c (packVK o)
  | .vcvtF32Int c o => word 0xA0 c (packVR o)
  | .vcvtF32Uint c o => word 0xA1 c (packVR o)
  | .vcvtIntF32 c o => word 0xA2 c (packVR o)
  | .vcvtIntF32Rtz c o => word 0xA3 c (packVR o)
  | .vcvtUintF32 c o => word 0xA4 c (packVR o)
  | .vcvtUintF32Rtz c o => word 0xA5 c (packVR o)
  | .vcvtBf16F32 c o => word 0xA6 c (packVR o)
  | .vcvtBf16F32Rtz c o => word 0xA7 c (packVR o)
  | .vcvtF16F32 c o => word 0xA8 c (packVR o)
  | .vcvtF16F32Rtz c o => word 0xA9 c (packVR o)
  | .vcvtF32Bf16 c o => word 0xAA c (packVR o)
  | .vcvtF32F16 c o => word 0xAB c (packVR o)
  | .vqnt c o => word 0xB0 c (packVR o)
  | .vdqnt c o => word 0xB1 c (packVR o)
  | .vscl c o => word 0xB2 c (packVR o)
  | .vsel c o => word 0xC0 c (packVR o)
  | .vmov c o => word 0xC1 c (packVR o)
  | .vmovi c o => word 0xC2 c (packVI o)
  | .vbcast c o => word 0xC3 c (packVR o)
  | .vextr c o => word 0xC4 c (packVX o)
  | .vins c o => word 0xC5 c (packVR o)
  | .vperm c o => word 0xC6 c (packVR o)
  | .vxcl c o => word 0xC7 c (packVR o)
  | .vxclX c o => word 0xC7 c (packVR o)
  | .vld c o => word 0xE0 c (packVM o)
  | .vst c o => word 0xE1 c (packVM o)
  | .vgath c o => word 0xE2 c (packVG o)
  | .vscat c o => word 0xE3 c (packVG o)
  | .mma c o => word 0x01 c (packMX o)
  | .mmas c o => word 0x02 c (packMS o)
  | .mmat c o => word 0x03 c (packMK o)
  | .mmav c o => word 0x04 c (packMK o)
  | .mred c o => word 0x05 c (packMX o)
  | .mscan c o => word 0x06 c (packMX o)
  | .mld c o => word 0x08 c (packMR o)
  | .mst c o => word 0x09 c (packMR o)
  | .mzero c o => word 0x10 c (packMT o)
  | .madd c o => word 0x11 c (packMT o)
  | .mcopy c o => word 0x12 c (packMT o)
  | .mxpose c o => word 0x13 c (packMT o)
  | .mscale c o => word 0x14 c (packMT o)
  | .mrmax c o => word 0x18 c (packMV o)
  | .kvnew c o => word 0x40 c (packCK o)
  | .kvapp c o => word 0x41 c (packCK o)
  | .kvtrunc c o => word 0x42 c (packCK o)
  | .kvfork c o => word 0x43 c (packCK o)
  | .kvfree c o => word 0x44 c (packCK o)
  | .kvrackRack c o => word 0x45 c (packCK o)
  | .kvbind c o => word 0x46 c (packCK o)
  | .kvqry c o => word 0x47 c (packCK o)
  | .sbind c o => word 0x01 c (packCK o)
  | .sbindg c o => word 0x02 c (packCK o)
  | .sunbind c o => word 0x03 c (packCK o)
  | .sflush c o => word 0x04 c (packCK o)
  | .cpy c o => word 0x08 c (packCK o)
  | .cpy2d c o => word 0x09 c (packCK o)
  | .mcstMulticast c o => word 0x0A c (packCK o)
  | .spmap c o => word 0x10 c (packCK o)
  | .spsync c o => word 0x11 c (packCK o)
  | .spinv c o => word 0x12 c (packCK o)
  | .migrMove c o => word 0x60 c (packCK o)
  | .cred c o => word 0x61 c (packCK o)
  | .cbcast c o => word 0x62 c (packCK o)
  | .attreqWrite c o => word 0xC3 c (packSC o)
  | .cxlcapWrite c o => word 0xC3 c (packSC o)
  | .gftbaseWrite c o => word 0xC3 c (packSC o)
  | .fabidWrite c o => word 0xC3 c (packSC o)
  | .hpasidWrite c o => word 0xC3 c (packSC o)
  | .eccstatWrite c o => word 0xC3 c (packSC o)
  | .mclogWrite c o => word 0xC3 c (packSC o)
  | .watchpointWrite c o => word 0xC3 c (packSC o)
  | .dispatchTerminate c o => word 0xD4 c (packSR o)
  | .dispatchContinue c o => word 0xD4 c (packSR o)
  | .sigwaitArm c o => word 0xD5 c (packSR o)
  | .tlbinvPages c o => word 0xD7 c (packSR o)
  | .tlbinvPartition c o => word 0xD7 c (packSR o)
  | .pcfgQuotaGrant c o => word 0xD6 c (packSR o)
  | .pcfgQuotaRevoke c o => word 0xD6 c (packSR o)
  | .pcfgCal c o => word 0xD6 c (packSR o)
  | .pcfgBand c o => word 0xD6 c (packSR o)
  | .pcfgSlice c o => word 0xD6 c (packSR o)
  | .pcfgStateDrain c o => word 0xD6 c (packSR o)
  | .pcfgStateScrub c o => word 0xD6 c (packSR o)
  | .pcfgStateRelease c o => word 0xD6 c (packSR o)
  | .pcfgStateActive c o => word 0xD6 c (packSR o)
  | .pcfgGmapMap c o => word 0xD6 c (packSR o)
  | .pcfgGmapUnmap c o => word 0xD6 c (packSR o)
  | .pcfgDestroy c o => word 0xD6 c (packSR o)
  | .kvrackPooladd c o => word 0x45 c (packCK o)
  | .kvrackPooltake c o => word 0x45 c (packCK o)
  | .spmapUnmap c o => word 0x10 c (packCK o)
  | .migrFetch c o => word 0x60 c (packCK o)
  | .migrFlush c o => word 0x60 c (packCK o)
  | .migrPooladd c o => word 0x60 c (packCK o)
  | .migrPooltake c o => word 0x60 c (packCK o)
  | .sigwaitTimeout _ => 0
  | .waitaWake _ => 0
  | .barrierPhaseComplete _ _ _ => 0
  | .pageWalk _ _ _ => 0
  | .kvWalk _ _ => 0
  | .pinWaitRelease _ _ => 0
  | .kvwaitExpire _ => 0
  | .steepwaitExpire _ => 0
  | .rackBlockMove _ _ => 0
  | .blockRelease _ => 0
  | .remoteKvResolve _ _ _ => 0
  | .remoteDecrement _ _ => 0
  | .kvStreamPrefetch _ _ => 0
  | .streamPrefetch _ _ => 0
  | .steepEntry _ => 0
  | .steepFetchComplete _ _ _ _ => 0
  | .migrPageComplete _ _ => 0
  | .granuleFill _ _ _ => 0
  | .backgroundBankTake _ _ => 0
  | .commandCompletion _ => 0
  | .regionHoldExpire _ => 0
  | .push _ _ _ => 0
  | .scanStep _ => 0
  | .hitch _ => 0
  | .jobLaunch _ => 0
  | .launch _ => 0
  | .taskStop _ => 0
  | .rollback _ => 0
  | .groupSwapOut _ _ => 0
  | .spillImage _ _ => 0
  | .groupPark _ _ => 0
  | .parkConditionClear _ _ => 0
  | .taskTerminate _ _ => 0
  | .uncorrectable _ _ => 0
  | .poison _ => 0
  | .softErrorCorrect => 0
  | .patrolScrub _ => 0
  | .linkDown _ => 0
  | .linkRestore _ => 0
  | .peerAccess _ _ _ _ _ _ => 0
  | .peerEnq _ _ _ => 0
  | .crpIngress _ _ => 0
  | .rawFrameReceive _ _ => 0
  | .crpEgress _ => 0
  | .returnSlotExpire _ _ => 0
  | .notifyWrite _ _ _ => 0
  | .ringFetch _ _ => 0
  | .atsCompletion _ _ _ _ _ => 0
  | .prgResponse _ _ _ _ => 0
  | .atsInvalidation _ _ _ _ => 0
  | .hostWrite _ _ _ _ => 0
  | .vfFlr _ => 0
  | .frameBoundary => 0
  | .calendarSlot _ _ _ => 0
  | .sliceEnd _ _ => 0
  | .drainComplete _ => 0
  | .scrubComplete _ => 0
  | .usageSeal _ => 0
  | .watch _ _ => 0
  | .watchev _ _ _ _ _ => 0
  | .bringUp _ => 0
  | .thermtrip => 0
  | .perstAssert => 0
  | .peerAcknowledgement _ _ _ _ => 0
  | .hostCompletion _ _ => 0

/-- The class of slot an operation goes into; none for an event (R241). -/
def Instr.cls : Instr → Option Cls
  | .nop => some .s
  | .idle => some .v
  | .add _ _ => some .s
  | .sub _ _ => some .s
  | .mul _ _ => some .s
  | .mulh _ _ => some .s
  | .mulhu _ _ => some .s
  | .div _ _ => some .s
  | .divu _ _ => some .s
  | .rem _ _ => some .s
  | .remu _ _ => some .s
  | .and _ _ => some .s
  | .or _ _ => some .s
  | .xor _ _ => some .s
  | .shl _ _ => some .s
  | .shr _ _ => some .s
  | .sra _ _ => some .s
  | .min _ _ => some .s
  | .max _ _ => some .s
  | .minu _ _ => some .s
  | .maxu _ _ => some .s
  | .clz _ _ => some .s
  | .ctz _ _ => some .s
  | .popc _ _ => some .s
  | .sel _ _ => some .s
  | .addi _ _ => some .s
  | .andi _ _ => some .s
  | .ori _ _ => some .s
  | .xori _ _ => some .s
  | .shli _ _ => some .s
  | .shri _ _ => some .s
  | .srai _ _ => some .s
  | .bfx _ _ => some .s
  | .bfi _ _ => some .s
  | .li _ _ => some .s
  | .lih _ _ => some .s
  | .addpc _ _ => some .s
  | .cmp _ _ => some .s
  | .cmpi _ _ => some .s
  | .pand _ _ => some .s
  | .por _ _ => some .s
  | .pxor _ _ => some .s
  | .pnot _ _ => some .s
  | .pset _ _ => some .s
  | .pget _ _ => some .s
  | .br _ _ => some .s
  | .jmp _ _ => some .s
  | .jmpx _ _ => some .s
  | .call _ _ => some .s
  | .callx _ _ => some .s
  | .ret _ _ => some .s
  | .loopC _ _ => some .s
  | .loopM _ _ => some .s
  | .setlc _ _ => some .s
  | .setsg _ _ => some .s
  | .halt _ _ => some .s
  | .fmt _ _ => some .s
  | .fmtrd _ _ => some .s
  | .csrr _ _ => some .s
  | .csrw _ _ => some .s
  | .csrs _ _ => some .s
  | .csrc _ _ => some .s
  | .trap _ _ => some .s
  | .eret _ _ => some .s
  | .mcld _ _ => some .s
  | .mcst _ _ => some .s
  | .kset _ _ => some .s
  | .ringf _ _ => some .s
  | .dispatchResume _ _ => some .s
  | .sigwaitHalt _ _ => some .s
  | .tlbinvAsid _ _ => some .s
  | .useal _ _ => some .s
  | .pcfgCreate _ _ => some .s
  | .ldb _ _ => some .s
  | .ldbu _ _ => some .s
  | .ldh _ _ => some .s
  | .ldhu _ _ => some .s
  | .ldw _ _ => some .s
  | .ldwu _ _ => some .s
  | .ldd _ _ => some .s
  | .stb _ _ => some .s
  | .sth _ _ => some .s
  | .stw _ _ => some .s
  | .std _ _ => some .s
  | .stnt _ _ => some .s
  | .fence _ _ => some .s
  | .drainnt _ _ => some .s
  | .amo _ _ => some .s
  | .cas _ _ => some .s
  | .red _ _ => some .s
  | .waita _ _ => some .s
  | .enq _ _ => some .s
  | .exit _ _ => some .s
  | .exitS _ _ => some .s
  | .barArr _ _ => some .s
  | .barWait _ _ => some .s
  | .barTry _ _ => some .s
  | .vfadd _ _ => some .v
  | .vfsub _ _ => some .v
  | .vfmul _ _ => some .v
  | .vfma _ _ => some .v
  | .vfms _ _ => some .v
  | .vfnma _ _ => some .v
  | .vfmin _ _ => some .v
  | .vfmax _ _ => some .v
  | .vfabs _ _ => some .v
  | .vfneg _ _ => some .v
  | .vfcmp _ _ => some .v
  | .vhaddBf16 _ _ => some .v
  | .vhaddF16 _ _ => some .v
  | .vhmulBf16 _ _ => some .v
  | .vhmulF16 _ _ => some .v
  | .vhfmaBf16 _ _ => some .v
  | .vhfmaF16 _ _ => some .v
  | .vadd _ _ => some .v
  | .vsub _ _ => some .v
  | .vmul _ _ => some .v
  | .vmulh _ _ => some .v
  | .vadds _ _ => some .v
  | .vsubs _ _ => some .v
  | .vmin _ _ => some .v
  | .vmax _ _ => some .v
  | .vminu _ _ => some .v
  | .vmaxu _ _ => some .v
  | .vand _ _ => some .v
  | .vor _ _ => some .v
  | .vxor _ _ => some .v
  | .vshl _ _ => some .v
  | .vshr _ _ => some .v
  | .vsra _ _ => some .v
  | .vcmp _ _ => some .v
  | .vabs _ _ => some .v
  | .vdot4SS _ _ => some .v
  | .vdot4SU _ _ => some .v
  | .vdot4US _ _ => some .v
  | .vdot4UU _ _ => some .v
  | .vdot4sSS _ _ => some .v
  | .vdot4sSU _ _ => some .v
  | .vdot4sUS _ _ => some .v
  | .vdot4sUU _ _ => some .v
  | .vdot8SS _ _ => some .v
  | .vdot8SU _ _ => some .v
  | .vdot8US _ _ => some .v
  | .vdot8UU _ _ => some .v
  | .vdot8sSS _ _ => some .v
  | .vdot8sSU _ _ => some .v
  | .vdot8sUS _ _ => some .v
  | .vdot8sUU _ _ => some .v
  | .vexp2 _ _ => some .v
  | .vlog2 _ _ => some .v
  | .vrcp _ _ => some .v
  | .vrsq _ _ => some .v
  | .vtanh _ _ => some .v
  | .vsigm _ _ => some .v
  | .vrand _ _ => some .v
  | .vcvtF32Int _ _ => some .v
  | .vcvtF32Uint _ _ => some .v
  | .vcvtIntF32 _ _ => some .v
  | .vcvtIntF32Rtz _ _ => some .v
  | .vcvtUintF32 _ _ => some .v
  | .vcvtUintF32Rtz _ _ => some .v
  | .vcvtBf16F32 _ _ => some .v
  | .vcvtBf16F32Rtz _ _ => some .v
  | .vcvtF16F32 _ _ => some .v
  | .vcvtF16F32Rtz _ _ => some .v
  | .vcvtF32Bf16 _ _ => some .v
  | .vcvtF32F16 _ _ => some .v
  | .vqnt _ _ => some .v
  | .vdqnt _ _ => some .v
  | .vscl _ _ => some .v
  | .vsel _ _ => some .v
  | .vmov _ _ => some .v
  | .vmovi _ _ => some .v
  | .vbcast _ _ => some .v
  | .vextr _ _ => some .v
  | .vins _ _ => some .v
  | .vperm _ _ => some .v
  | .vxcl _ _ => some .v
  | .vxclX _ _ => some .v
  | .vld _ _ => some .v
  | .vst _ _ => some .v
  | .vgath _ _ => some .v
  | .vscat _ _ => some .v
  | .mma _ _ => some .m
  | .mmas _ _ => some .m
  | .mmat _ _ => some .m
  | .mmav _ _ => some .m
  | .mred _ _ => some .m
  | .mscan _ _ => some .m
  | .mld _ _ => some .m
  | .mst _ _ => some .m
  | .mzero _ _ => some .m
  | .madd _ _ => some .m
  | .mcopy _ _ => some .m
  | .mxpose _ _ => some .m
  | .mscale _ _ => some .m
  | .mrmax _ _ => some .m
  | .kvnew _ _ => some .c
  | .kvapp _ _ => some .c
  | .kvtrunc _ _ => some .c
  | .kvfork _ _ => some .c
  | .kvfree _ _ => some .c
  | .kvrackRack _ _ => some .c
  | .kvbind _ _ => some .c
  | .kvqry _ _ => some .c
  | .sbind _ _ => some .c
  | .sbindg _ _ => some .c
  | .sunbind _ _ => some .c
  | .sflush _ _ => some .c
  | .cpy _ _ => some .c
  | .cpy2d _ _ => some .c
  | .mcstMulticast _ _ => some .c
  | .spmap _ _ => some .c
  | .spsync _ _ => some .c
  | .spinv _ _ => some .c
  | .migrMove _ _ => some .c
  | .cred _ _ => some .c
  | .cbcast _ _ => some .c
  | .attreqWrite _ _ => some .s
  | .cxlcapWrite _ _ => some .s
  | .gftbaseWrite _ _ => some .s
  | .fabidWrite _ _ => some .s
  | .hpasidWrite _ _ => some .s
  | .eccstatWrite _ _ => some .s
  | .mclogWrite _ _ => some .s
  | .watchpointWrite _ _ => some .s
  | .dispatchTerminate _ _ => some .s
  | .dispatchContinue _ _ => some .s
  | .sigwaitArm _ _ => some .s
  | .tlbinvPages _ _ => some .s
  | .tlbinvPartition _ _ => some .s
  | .pcfgQuotaGrant _ _ => some .s
  | .pcfgQuotaRevoke _ _ => some .s
  | .pcfgCal _ _ => some .s
  | .pcfgBand _ _ => some .s
  | .pcfgSlice _ _ => some .s
  | .pcfgStateDrain _ _ => some .s
  | .pcfgStateScrub _ _ => some .s
  | .pcfgStateRelease _ _ => some .s
  | .pcfgStateActive _ _ => some .s
  | .pcfgGmapMap _ _ => some .s
  | .pcfgGmapUnmap _ _ => some .s
  | .pcfgDestroy _ _ => some .s
  | .kvrackPooladd _ _ => some .c
  | .kvrackPooltake _ _ => some .c
  | .spmapUnmap _ _ => some .c
  | .migrFetch _ _ => some .c
  | .migrFlush _ _ => some .c
  | .migrPooladd _ _ => some .c
  | .migrPooltake _ _ => some .c
  | .sigwaitTimeout _ => none
  | .waitaWake _ => none
  | .barrierPhaseComplete _ _ _ => none
  | .pageWalk _ _ _ => none
  | .kvWalk _ _ => none
  | .pinWaitRelease _ _ => none
  | .kvwaitExpire _ => none
  | .steepwaitExpire _ => none
  | .rackBlockMove _ _ => none
  | .blockRelease _ => none
  | .remoteKvResolve _ _ _ => none
  | .remoteDecrement _ _ => none
  | .kvStreamPrefetch _ _ => none
  | .streamPrefetch _ _ => none
  | .steepEntry _ => none
  | .steepFetchComplete _ _ _ _ => none
  | .migrPageComplete _ _ => none
  | .granuleFill _ _ _ => none
  | .backgroundBankTake _ _ => none
  | .commandCompletion _ => none
  | .regionHoldExpire _ => none
  | .push _ _ _ => none
  | .scanStep _ => none
  | .hitch _ => none
  | .jobLaunch _ => none
  | .launch _ => none
  | .taskStop _ => none
  | .rollback _ => none
  | .groupSwapOut _ _ => none
  | .spillImage _ _ => none
  | .groupPark _ _ => none
  | .parkConditionClear _ _ => none
  | .taskTerminate _ _ => none
  | .uncorrectable _ _ => none
  | .poison _ => none
  | .softErrorCorrect => none
  | .patrolScrub _ => none
  | .linkDown _ => none
  | .linkRestore _ => none
  | .peerAccess _ _ _ _ _ _ => none
  | .peerEnq _ _ _ => none
  | .crpIngress _ _ => none
  | .rawFrameReceive _ _ => none
  | .crpEgress _ => none
  | .returnSlotExpire _ _ => none
  | .notifyWrite _ _ _ => none
  | .ringFetch _ _ => none
  | .atsCompletion _ _ _ _ _ => none
  | .prgResponse _ _ _ _ => none
  | .atsInvalidation _ _ _ _ => none
  | .hostWrite _ _ _ _ => none
  | .vfFlr _ => none
  | .frameBoundary => none
  | .calendarSlot _ _ _ => none
  | .sliceEnd _ _ => none
  | .drainComplete _ => none
  | .scrubComplete _ => none
  | .usageSeal _ => none
  | .watch _ _ => none
  | .watchev _ _ _ _ _ => none
  | .bringUp _ => none
  | .thermtrip => none
  | .perstAssert => none
  | .peerAcknowledgement _ _ _ _ => none
  | .hostCompletion _ _ => none

/-- Where rows of the table share one opcode and differ by what a register or a parameter block holds, the row the
decoder answers; the identity elsewhere. -/
def Instr.primary : Instr → Instr
  | .dispatchTerminate c o => .dispatchResume c o
  | .dispatchContinue c o => .dispatchResume c o
  | .sigwaitArm c o => .sigwaitHalt c o
  | .tlbinvPages c o => .tlbinvAsid c o
  | .tlbinvPartition c o => .tlbinvAsid c o
  | .pcfgQuotaGrant c o => .pcfgCreate c o
  | .pcfgQuotaRevoke c o => .pcfgCreate c o
  | .pcfgCal c o => .pcfgCreate c o
  | .pcfgBand c o => .pcfgCreate c o
  | .pcfgSlice c o => .pcfgCreate c o
  | .pcfgStateDrain c o => .pcfgCreate c o
  | .pcfgStateScrub c o => .pcfgCreate c o
  | .pcfgStateRelease c o => .pcfgCreate c o
  | .pcfgStateActive c o => .pcfgCreate c o
  | .pcfgGmapMap c o => .pcfgCreate c o
  | .pcfgGmapUnmap c o => .pcfgCreate c o
  | .pcfgDestroy c o => .pcfgCreate c o
  | .kvrackPooladd c o => .kvrackRack c o
  | .kvrackPooltake c o => .kvrackRack c o
  | .spmapUnmap c o => .spmap c o
  | .migrFetch c o => .migrMove c o
  | .migrFlush c o => .migrMove c o
  | .migrPooladd c o => .migrMove c o
  | .migrPooltake c o => .migrMove c o
  | i => i

/-- A bundle header word (R221). -/
def encodeHeader (h : Header) : BitVec 32 :=
  0#10 ++ h.lmi ++ BitVec.ofBool h.rgn ++ BitVec.ofBool h.safe ++ h.rpt ++ h.pm

/-- The host's reading of one instruction: the bits are those of a bundle as it lies in memory (R220, R2), header first;
the answer is the operation of its first slot word. -/
def decodeTableWord (nbits w : Nat) : Option Instr :=
  let bits := w % 2 ^ nbits
  match decodeHeader (BitVec.ofNat 32 bits) with
  | .error _ => none
  | .ok h =>
    match decodeSlots h.pm bits with
    | (_, _, .ok i) :: _ => some i
    | _ => none

end Sys2Proof
end

