-- ==== Sys2Proof/Config.lean ====
section
/-! DEFINITION. What the spec leaves open: constants with no body. A free value is `Config.free` applied to the width, the
step counter of the state and the place that asks for it; nothing in Lean can say what it is. -/

namespace Sys2Proof

/-- The places at which the spec leaves a value or a choice open (log entries 5 to 19). -/
inductive Site where
  /-- A read inside a latency window: old or new, in each lane or byte (R232, R233). -/
  | window
  /-- A bypass register read before its bound (R236). -/
  | bypass
  /-- Lanes of a freed register that an operation leaves unwritten (R237). -/
  | freedLanes
  /-- Scratchpad and tiles at a launch (R153, R95). -/
  | launch
  /-- Data of a slot whose key a `KSET` replaced under live translations (R28). -/
  | wrongKey
  /-- Which of the translations cached, or a new walk, serves an access (R23). -/
  | translation
  /-- Which of the writes that a read may return it returns (R118, R125); the Relaxed Ordering attribute of a payload write (R141). -/
  | order
  /-- Whether an L1 line is still held (R98), and which line a full L1 gives up (R97). -/
  | l1
  /-- Old or new bundle bytes (R96). -/
  | ibuf
  /-- Whether a store is held in the region buffer, or a non-temporal store performed (R127, R132). -/
  | hold
  /-- Random keys (R26, R273). -/
  | key
  /-- Old or new words where the spec leaves the order open (R117, R301, R341, R347). -/
  | word
  /-- Salts of the security engine's signatures (R394). -/
  | salt
  /-- Counters the spec does not fix: VCLOCK, the bytes and cycles of usage (R126, R392). -/
  | counter
  /-- Waits whose length the spec does not fix (R304). -/
  | delay
  /-- The effect of writes to a peer that was lost (R140), and of a failed collective (R355). -/
  | lost
  deriving DecidableEq, Repr

/-- A free value of width `w`, at step `tick`, asked for by a site with coordinates `a` and `b`. (DESIGN CHOICE, log entry 1) -/
opaque Config.free (w : Nat) (tick : Nat) (site : Site) (a b : Nat) : BitVec w

/-- The random key material of an ASID-bound slot after reset (R26): XTS key pair in the low 512 bits, GCM key above.
(DEDUCED, log entry 15) -/
opaque Config.resetKey (slot : Nat) : BitVec 768

/-- The device grist secret, from which the keys of grist segments derive (R31). (DEDUCED, log entry 15) -/
opaque Config.gristSecret : BitVec 256

/-- Which of the results inside its error bound a special function gives: a fixed function of the input (R289, R290).
(DEDUCED, log entry 23) -/
opaque Config.special (fn : Nat) (a : BitVec 32) : Nat

/-- The modulus of the device identity key, an RSA-3072 key pair that derives from the PUF (R395). (DEDUCED, log entry 15) -/
opaque Config.idModulus : BitVec 3072
/-- The private exponent of the device identity key (R395). (DEDUCED, log entry 15) -/
opaque Config.idExponent : BitVec 3072

/-- SHA-256 of the identity public key (R395). -/
opaque Config.idHash : BitVec 256

/-- Page requests that a function may have outstanding (R50). (DESIGN CHOICE, log entry 68) -/
opaque Config.priAlloc (fn : Nat) : Nat

/-- Does the pooled device offer device-side atomics (R144)? (DESIGN CHOICE, log entry 31) -/
opaque Config.cxlAtomics : Bool

/-- Bytes in a logical block of an NVMe namespace (R37, R71), in units of 512 bytes less one. (DESIGN CHOICE, log entry 21) -/
opaque Config.nvmeBlock (nsid : Nat) : Nat
/-- Logical blocks of an NVMe namespace (R71). -/
opaque Config.nvmeBlocks (nsid : Nat) : Nat

end Sys2Proof
end

