-- ==== Sys2Proof/Machine/Bits.lean ====
section
/-! DEFINITION. Bit fields, sign extension and lanes. -/

namespace Sys2Proof.Machine

/-- Bits [hi:lo] of a number, as R10 writes `x[hi:lo]`. -/
def bits (x hi lo : Nat) : Nat := (x >>> lo) % 2 ^ (hi + 1 - lo)

/-- `x` with bits [hi:lo] replaced. -/
def setBits (x hi lo v : Nat) : Nat :=
  x - bits x hi lo * 2 ^ lo + (v % 2 ^ (hi + 1 - lo)) * 2 ^ lo

/-- One bit of a number. -/
def bit (x i : Nat) : Bool := x.testBit i

/-- The low n bits as a signed value, as R10 writes sext(v, n). -/
def sext (v n : Nat) : Int :=
  let u := v % 2 ^ n
  if 2 * u < 2 ^ n then (u : Int) else (u : Int) - (2 : Int) ^ n

/-- A signed value as an n-bit code. -/
def wrap (n : Nat) (v : Int) : Nat := (v % ((2 : Int) ^ n)).toNat

/-- Lane i of a vector (R238). -/
def lane (v : Vec) (i : Nat) : BitVec 32 := v.extractLsb' (32 * i) 32

/-- The number whose 32-bit digits, lowest first, are `f k, f (k + 1), …`, n of them. -/
def digits (g : Nat) (f : Nat → Nat) (k : Nat) : Nat → Nat
  | 0 => 0
  | n + 1 => f k % 2 ^ g + 2 ^ g * digits g f (k + 1) n

/-- A vector from its lanes. -/
def mkVec (f : Nat → BitVec 32) : Vec := BitVec.ofNat 4096 (digits 32 (fun i => (f i).toNat) 0 128)

/-- A predicate from its bits. -/
def mkPred (f : Nat → Bool) : Pred := BitVec.ofNat 128 (digits 1 (fun i => if f i then 1 else 0) 0 128)

/-- Each of 128 bits repeated g times: the mask of lanes (g = 32), bytes (g = 8) or bits (g = 1). -/
def spread (g : Nat) (b : BitVec 128) : BitVec 4096 :=
  BitVec.ofNat 4096 (digits g (fun i => if b.getLsbD i then 2 ^ g - 1 else 0) 0 128)

/-- `a` where the mask is clear, `b` where it is set. -/
def blend {w : Nat} (m a b : BitVec w) : BitVec w := (a &&& ~~~m) ||| (b &&& m)

/-- Bytes, lowest first, as one number (R2). -/
def ofBytes : List Byte → Nat
  | [] => 0
  | b :: bs => b.toNat + 256 * ofBytes bs

/-- The low n bytes of a number, lowest first (R2). -/
def toBytes : Nat → Nat → List Byte
  | 0, _ => []
  | n + 1, v => BitVec.ofNat 8 v :: toBytes n (v / 256)

/-- Replace the n-th element of a list. -/
def setAt {α : Type} : List α → Nat → α → List α
  | [], _, _ => []
  | _ :: l, 0, v => v :: l
  | a :: l, n + 1, v => a :: setAt l n v

/-- fold_xor of a physical address: the home slice (R102). -/
def foldXor (pa : Nat) : Nat :=
  let a := bits pa 39 6
  bits a 5 0 ^^^ bits a 11 6 ^^^ bits a 17 12 ^^^ bits a 23 18 ^^^ bits a 29 24 ^^^ bits a 33 30

end Sys2Proof.Machine
end

