-- ==== Sys2Proof/Machine/Mem.lean ====
section
/-! DEFINITION. Finite maps from numbers and byte memories, each a list in one canonical form: keys strictly rising, and no
entry equal to what an unlisted key reads as. Every table of the machine that is addressed by a number is one of these. -/

namespace Sys2Proof.Machine

/-- A finite map from numbers, as a list with rising keys. -/
abbrev FMap (α : Type) := List (Nat × α)

/-- The entry of a key, if the map lists it. -/
def FMap.find? {α : Type} : FMap α → Nat → Option α
  | [], _ => none
  | (k, v) :: m, a => if k = a then some v else FMap.find? m a

/-- What a key reads as: `d` when it is not listed. -/
def FMap.get {α : Type} (d : α) (m : FMap α) (a : Nat) : α := (m.find? a).getD d

/-- The map without a key. -/
def FMap.erase {α : Type} : FMap α → Nat → FMap α
  | [], _ => []
  | (k, v) :: m, a => if k = a then FMap.erase m a else (k, v) :: FMap.erase m a

/-- The map with an entry put where its key belongs. -/
def FMap.put {α : Type} : FMap α → Nat → α → FMap α
  | [], a, v => [(a, v)]
  | (k, w) :: m, a, v => if a < k then (a, v) :: (k, w) :: m else (k, w) :: FMap.put m a v

/-- Write a key; a key given the default is not listed. -/
def FMap.set {α : Type} [DecidableEq α] (d : α) (m : FMap α) (a : Nat) (v : α) : FMap α :=
  if v = d then m.erase a else (m.erase a).put a v

/-- Write a key, listed whatever its value. -/
def FMap.insert {α : Type} (m : FMap α) (a : Nat) (v : α) : FMap α := (m.erase a).put a v

/-- Keys strictly rising. -/
def FMap.sorted {α : Type} : FMap α → Bool
  | [] => true
  | [_] => true
  | (a, _) :: (b, v) :: m => decide (a < b) && FMap.sorted ((b, v) :: m)

/-- The canonical form: keys strictly rising, and no entry equal to the default. -/
def FMap.wf {α : Type} [DecidableEq α] (d : α) (m : FMap α) : Bool := m.sorted && m.all fun e => e.2 != d

/-- Bytes by address. An unlisted address reads 0: bring-up writes zeros to every memory tier, scratchpad and tile
(R413 step 4). -/
abbrev Memory := List Host.Cell

/-- The byte at an address. (DESIGN CHOICE, log entry 22) -/
def Memory.read (m : Memory) (a : Nat) : Byte := FMap.get 0 m a

/-- Write one byte. -/
def Memory.write (m : Memory) (a : Nat) (b : Byte) : Memory := FMap.set 0 m a b

/-- The canonical form of a memory. -/
def Memory.wf (m : Memory) : Bool := FMap.wf (0 : Byte) m

/-- `n` bytes from an address upward, as one little-endian number (R2). -/
def Memory.readLE (m : Memory) (a : Nat) : Nat → Nat
  | 0 => 0
  | n + 1 => (m.read a).toNat + 256 * Memory.readLE m (a + 1) n

/-- Write the low `n` bytes of a number from an address upward, little-endian (R2). -/
def Memory.writeLE (m : Memory) (a v : Nat) : Nat → Memory
  | 0 => m
  | n + 1 => Memory.writeLE (m.write a (BitVec.ofNat 8 v)) (a + 1) (v / 256) n

/-- Write a list of bytes from an address upward. -/
def Memory.writeBytes (m : Memory) (a : Nat) : List Byte → Memory
  | [] => m
  | b :: bs => Memory.writeBytes (m.write a b) (a + 1) bs

/-- `n` bytes from an address upward. -/
def Memory.readBytes (m : Memory) (a : Nat) : Nat → List Byte
  | 0 => []
  | n + 1 => m.read a :: Memory.readBytes m (a + 1) n

/-- The cells whose address lies from `lo` up to but not at `hi`. -/
def Memory.slice (m : Memory) (lo hi : Nat) : Memory := m.filter fun c => decide (lo ≤ c.1) && decide (c.1 < hi)

/-- Zeros from `lo` up to but not at `hi`. -/
def Memory.zero (m : Memory) (lo hi : Nat) : Memory := m.filter fun c => !(decide (lo ≤ c.1) && decide (c.1 < hi))

end Sys2Proof.Machine
end

