-- ==== Sys2Proof/Machine/Pad.lean ====
section
/-! DEFINITION. The scratchpad and the tiles of a core as stores that can be undefined: after a launch by the dispatcher every
chunk and every tile is open until it is written (R95, R153). -/

namespace Sys2Proof.Machine

/-- A scratchpad (R85). With `epoch` 0 it holds `mem`; otherwise a chunk that `known` does not list is open (R153): a free value
of that epoch and of the core `who`. -/
structure Pad where
  mem : Memory
  epoch : Nat
  who : Nat
  known : FMap Bool
  deriving DecidableEq, Repr

/-- A scratchpad of zeros (R413). (DESIGN CHOICE, log entry 22) -/
def Pad.zero : Pad := ⟨[], 0, 0, []⟩

/-- Does a chunk hold a value that the machine has fixed? -/
def Pad.fixed (p : Pad) (c : Nat) : Bool := p.epoch == 0 || FMap.get false p.known c

/-- A 64-byte chunk. (DEDUCED, log entry 9) -/
def Pad.chunk (p : Pad) (c : Nat) : BitVec 512 :=
  if p.fixed c then BitVec.ofNat 512 (p.mem.readLE (64 * c) 64) else Config.free 512 p.epoch .launch c p.who

/-- A chunk written whole. -/
def Pad.setChunk (p : Pad) (c : Nat) (v : BitVec 512) : Pad :=
  { p with mem := p.mem.writeLE (64 * c) v.toNat 64, known := if p.epoch = 0 then p.known else p.known.insert c true }

/-- One byte. -/
def Pad.byte (p : Pad) (a : Nat) : Byte :=
  if p.fixed (a / 64) then p.mem.read a else (p.chunk (a / 64)).extractLsb' (8 * (a % 64)) 8

/-- `n` bytes from an offset upward. -/
def Pad.readBytes (p : Pad) (a : Nat) : Nat → List Byte
  | 0 => []
  | n + 1 => p.byte a :: p.readBytes (a + 1) n

/-- One byte written. -/
def Pad.write (p : Pad) (a : Nat) (b : Byte) : Pad :=
  let p := if p.fixed (a / 64) then p else p.setChunk (a / 64) (p.chunk (a / 64))
  { p with mem := p.mem.write a b }

/-- Bytes written from an offset upward. -/
def Pad.writeBytes (p : Pad) (a : Nat) : List Byte → Pad
  | [] => p
  | b :: bs => (p.write a b).writeBytes (a + 1) bs

/-- The tiles t0 to t11: element (i, j) of tile t at 16,384·t + 128·i + j (R94). With `epoch` 0 they hold `el`; otherwise a tile
whose bit of `known` is clear is open (R95). -/
structure Tiles where
  el : FMap Acc40
  epoch : Nat
  who : Nat
  known : BitVec 12
  deriving DecidableEq, Repr

/-- Tiles of zeros (R413). -/
def Tiles.zero : Tiles := ⟨[], 0, 0, 0⟩

/-- An element of a tile. (DEDUCED, log entry 9) -/
def Tiles.get (t : Tiles) (tile i j : Nat) : Acc40 :=
  let a := 16384 * tile + 128 * i + j
  if t.epoch = 0 ∨ t.known.getLsbD tile then FMap.get 0 t.el a else Config.free 40 t.epoch .launch (2 ^ 16 + a) t.who

/-- A tile written whole. -/
def Tiles.setTile (t : Tiles) (tile : Nat) (f : Nat → Nat → Acc40) : Tiles :=
  let new := (List.range 16384).filterMap fun e =>
    let v := f (e / 128) (e % 128)
    if v = 0 then none else some (16384 * tile + e, v)
  { t with el := (t.el.filter fun e => decide (e.1 < 16384 * tile)) ++ new ++
                   (t.el.filter fun e => decide (16384 * (tile + 1) ≤ e.1)),
           known := t.known ||| BitVec.ofNat 12 (2 ^ tile) }

end Sys2Proof.Machine
end

