-- ==== Sys2Proof/Machine/State.lean ====
section
/-! DEFINITION. The state of one GQ4-2400 package as plain data, the reasons a step can stop, and the state at reset. -/

namespace Sys2Proof.Machine

/-- Reasons the machine stops. None of the spec's exceptions is one of them: those are taken (R358 to R376). -/
inductive Fault where
  /-- The device itself (not a program: its accesses are checked by the walk) reads or writes a physical address that R12
  says is no frame. Raised by the memory operations of Machine/Ops.lean; safe: the spec gives no such access an effect. -/
  | noFrame (pa : Nat)
  deriving DecidableEq, Repr

/-- Reasons an operation has no meaning here. -/
inductive Refusal where
  /-- No meaning has been written for the row of this mnemonic. Raised by arms of Dispatch.lean only; safe. -/
  | notModelled (mnemonic : String)
  deriving DecidableEq, Repr

/-! ### One core -/

/-- The register files whose writes can be in flight (R232). A `sp` key is a 64-byte chunk of the scratchpad. -/
inductive RegFile where
  | x | v | p | sp
  deriving DecidableEq, Repr

/-- A write in flight of an operation with exposed latency (R232): the bits of `mask` of register `key` become those of
`val`; it was issued at issue `issue`, and from issue `due` on its value shows. -/
structure Pend where
  file : RegFile
  key : Nat
  val : BitVec 4096
  mask : BitVec 4096
  issue : Nat
  due : Nat
  deriving DecidableEq, Repr

/-- An entry of the bypass history (R236). -/
structure Bypass where
  val : Vec
  issue : Nat
  due : Nat
  deriving DecidableEq, Repr

/-- A pending write of a format register, in effect from issue `at_` on (R240). -/
structure FmtPend where
  reg : Nat
  val : Dword
  at_ : Nat
  deriving DecidableEq, Repr

/-- The state of a sticky slot (R229, R230). -/
structure SlotState where
  armed : Bool
  word : BitVec 64
  cursors : List Nat
  deriving DecidableEq, Repr

/-- What a trap entry saves beside its registers (R229, R236, R240, R269). -/
structure TrapFrame where
  slots : List SlotState
  bypass : List Bypass
  fmts : List FmtPend
  deriving DecidableEq, Repr

/-- Banks reserved by a fetch (R88, R314): from bank `bank` of group `group`, `width` banks a step, for `steps` steps. -/
structure Reserve where
  group : Nat
  bank : Nat
  width : Nat
  steps : Nat
  deriving DecidableEq, Repr

/-- A chunk that an MST in progress writes in fetch cycle `cycle` (R314). -/
structure ChunkWrite where
  cycle : Nat
  off : Nat
  data : BitVec 512
  deriving DecidableEq, Repr

/-- A gather or scatter window of V slot `slot`: every bank of `group` for eight fetch cycles from `start` (R300). -/
structure Window where
  slot : Nat
  group : Nat
  start : Nat
  deriving DecidableEq, Repr

/-- What a walk or another check found against an access: what a fault record and a completion word carry (R366). -/
structure FaultInfo where
  cause : Nat
  outcome : Nat
  level : Nat
  info : BitVec 192
  deriving DecidableEq, Repr

/-- The kinds of stream (R320, R343). -/
inductive StreamKind where
  | scratch | global | kv
  deriving DecidableEq, Repr

/-- A read-ahead element or row, or the fault its prefetch met (R321, R345). -/
structure Ahead where
  val : BitVec 4096
  bad : Option FaultInfo
  deriving DecidableEq, Repr

/-- How a 64-byte line of a tier is stored: plain, under a private key, or as a line of a grist segment (R27). -/
inductive LineTag where
  | plain
  | priv (key : BitVec 512)
  | seg (hash : BitVec 256) (line : Nat)
  deriving DecidableEq, Repr

/-- The agents that access memory, as far as a scope tells them apart (R116, R120): a task by its core, MC and group; an engine command by
those of its issuer, and its number; the package's own engines; a host function; other CXL requesters; a peer. -/
inductive Agent where
  | task (core mcid grp : Nat)
  | cmd (core mcid grp id : Nat)
  | engine
  | host (fn : Nat)
  | cxl
  | peer (fab : Nat)
  deriving DecidableEq, Repr

/-- What a release carries to the acquire that reads it (R123): its agent, its scope, and the writes, by their numbers, that an agent with
which it synchronises may no longer read behind (R125). -/
structure Rel where
  agent : Agent
  scope : Nat
  view : List Nat
  deriving DecidableEq, Repr

/-- What a read event has returned: the writes of its location up to it, and the releases among them that it can synchronise with. -/
structure Got where
  ids : List Nat
  rels : List Rel
  deriving DecidableEq, Repr

/-- A performed write that an agent may not have seen yet (R118, R122): its number, the frame, its bytes with what each held before, and the
releases that an acquire which reads it can synchronise with. -/
structure WRec where
  id : Nat
  frame : Nat
  tag : LineTag
  cells : List Host.Cell
  rels : List Rel
  deriving DecidableEq, Repr

/-- What a task knows of the coherence order (R118, R122, R125). -/
structure View where
  /-- The writes that its reads do not go behind: its own, those it has read, those that happen before. -/
  seen : List Nat
  /-- Those that happen before every access of a command that it issues now (R128). -/
  acq : List Nat
  /-- What its reads have returned, for a later acquire fence (R122). -/
  got : Got
  /-- Its non-temporal stores since its last `DRAINNT` (R132). -/
  nt : List Nat
  /-- Its release fences, one for a scope: its later writes carry them (R122). -/
  rels : List Rel
  /-- The full ones among them: the payload of its later commands carries them too (R123, R128). -/
  full : List Rel
  /-- It has made an acquire at `.SYS`: its reads of pooled memory refresh their line (R144). -/
  cxl : Bool
  deriving DecidableEq, Repr

/-- The host page that a store goes to: function, PASID, page, and the page it translates to (R48). -/
structure HostTo where
  fn : Nat
  pasid : Nat
  page : Nat
  xpage : Nat
  deriving DecidableEq, Repr

/-- A store that is held: in the region store buffer (R127), or as a non-temporal store not yet performed (R132). Each
byte carries its address, physical or, for a posted write, on the host page `host`; `asid` is that of its translation. -/
structure Held where
  cells : List Host.Cell
  tag : LineTag
  host : Option HostTo
  asid : Nat
  nt : Bool
  rels : List Rel
  /-- The access is not naturally aligned: each byte is a unit of its own (R117). -/
  bytewise : Bool
  deriving DecidableEq, Repr

/-- A block that a KV stream holds pinned, with the translation it holds for as long (R63, R75): rows below `limit`, the LEN that the
walk saw, are read through it. (DEDUCED, log entry 30) -/
structure Pin where
  index : Nat
  gbn : Nat
  limit : Nat
  loc : Nat
  kslot : Nat
  bsz : Nat
  /-- The package that owns the block, where that is another one: the pin is held there (R61). -/
  owner : Option Nat
  /-- The writes of the rows that LEN covered at the walk: its reads do not go behind them (R79, R131). -/
  view : List Nat
  deriving DecidableEq, Repr

/-- A bound stream (R320, R321, R343). For a scratchpad or global stream `base`, `estride`, `left` and `index` describe
the elements; for a KV stream the coordinates, the row format and the positions CUR and END. -/
structure Stream where
  kind : StreamKind
  push : Bool
  nt : Bool
  asid : Nat
  base : Nat
  estride : Int
  index : Nat
  left : Nat
  seq : Nat
  layer : Nat
  head : Nat
  vrow : Bool
  ekind : Nat
  fmt : Dword
  dim : Nat
  eoff : Nat
  soff : Nat
  cur : Nat
  stop : Nat
  ahead : List Ahead
  /-- The blocks pinned (R62, R75). -/
  pins : List Pin
  /-- Pushed elements that are not yet written, the oldest first (R345). -/
  pushed : List (List Held)
  /-- The writes that its reads do not go behind (R131). -/
  view : List Nat
  deriving DecidableEq, Repr

/-- An operation of the M slot that reads operands by a fetch. -/
inductive MOp where
  | mma (o : MX)
  | mmas (o : MS)
  /-- `MMAT`, and with `av` `MMAV`, with the stream as it stood and the rows popped (R310). -/
  | stream (o : MK) (av : Bool) (st : Stream) (rows : List Nat)
  /-- `MRED`, and with `scan` `MSCAN` (R311). -/
  | reduce (o : MX) (scan : Bool)
  /-- `MLD`, with the first tile row (R312). -/
  | load (o : MR) (row : Nat)
  deriving DecidableEq, Repr

/-- What a fetch operation makes of the chunks that its fetch delivers: the operation, the format registers FA and FB (FS), and the tiles as
they stood at its issue. -/
structure MWork where
  op : MOp
  fa : Dword
  fb : Dword
  before : Tiles
  deriving DecidableEq, Repr

/-- The fetch that holds the M slot (R90, R91). `operands` gives the chunks it reads, each run by its first chunk and with what the fetch
delivers of it (R303), and `work` what the tiles come to. -/
structure MFetch where
  start : Nat
  len : Nat
  reserve : List Reserve
  writes : List ChunkWrite
  operands : List (Nat × List Nat)
  work : Option MWork
  deriving DecidableEq, Repr

/-- The states of a mapped granule (R42). -/
inductive GranState where
  | invalid | clean | dirty
  deriving DecidableEq, Repr

/-- A mapped granule with the mask of its written bytes (R42). -/
structure Granule where
  st : GranState
  mask : BitVec 256
  deriving DecidableEq, Repr

/-- A scratchpad region map (R42, R352). `gran` lists the granules that are not INVALID. -/
structure RegMap where
  off : Nat
  len : Nat
  gva : Nat
  asid : Nat
  gran : FMap Granule
  deriving DecidableEq, Repr

/-- An L1 line: its 64 bytes and the frame of its fill (R97, R98). It holds the writes numbered below `upto`, without those of `lacks`, and
those of `has`, by which a store that hit has updated it. -/
structure L1Line where
  data : BitVec 512
  frame : Nat
  upto : Nat
  lacks : List Nat
  has : List Nat
  deriving DecidableEq, Repr

/-- The watch of a `WAITA` on its word (R115, R334): in the scratchpad at an offset, or at its home at a PA; its condition. -/
structure Sleep where
  pad : Bool
  place : Nat
  tag : LineTag
  kind : Nat
  x : Dword
  deriving DecidableEq, Repr

/-- The write that has woken a sleeping `WAITA` (R115): the watch, the word's value, the number below which its writes lie, and the release of a
completion word in the scratchpad (R130). -/
structure Woken where
  watch : Sleep
  value : Dword
  upto : Nat
  rel : Option Rel
  deriving DecidableEq, Repr

/-- What a task waits for at a bundle that has not committed. -/
inductive Wait where
  /-- A KV block (R72): the stream, and the place for a KV_ABSENT record. -/
  | kv (strm pos gbn : Nat) (rec : FaultInfo)
  /-- A steeping grist segment (R41): its frame, and the place for a STEEP_WAIT record. -/
  | steep (frame : Nat) (rec : FaultInfo)
  /-- The condition of a WAITA (R334). -/
  | waita (z : Sleep)
  /-- A barrier (R337). -/
  | bar
  /-- A SIGWAIT (R276): the MC. -/
  | sigwait (mcid : Nat)
  /-- A host translation (R49): function, PASID and page. -/
  | ats (fn pasid page : Nat)
  /-- A host load or AtomicOp (R141). -/
  | host (req : Nat)
  /-- An in-motion page (R110). -/
  | motion
  /-- Another interlock: room in a queue, a stream, a pin at its limit (R62, R67, R316, R338, R345). -/
  | other
  deriving DecidableEq, Repr

/-- A region checkpoint (R370). -/
structure Ckpt where
  pc : BitVec 52
  lc : BitVec 32
  sgate : BitVec 11
  rwin : BitVec 19
  slots : List SlotState
  streams : FMap Stream
  fmts : List FmtPend
  deriving DecidableEq, Repr

/-- A bundle-issued scratchpad access of the issue in progress (R86). -/
structure BankAcc where
  slot : Nat
  chunk : Nat
  write : Bool
  deriving DecidableEq, Repr

/-- A fault condition that a slot of the issue in progress met (R358). -/
structure SlotFault where
  slot : Nat
  fi : FaultInfo
  deriving DecidableEq, Repr

/-- What the issue in progress does when it has committed. -/
inductive After where
  | go
  | halt
  | exit
  /-- The entry of the successor, x1 to x7 as they stand at the issue, and the page of the bundle (R96, R159, R336). -/
  | exitS (entry : Dword) (args : List Dword) (page : Nat)
  | trap (code : BitVec 16)
  | eret
  deriving DecidableEq, Repr

/-- Why a group is being stopped: the requests of R200 and R276, a fault of a sister task (R362). -/
inductive StopReason where
  | victim | slice | drain | halt | fault
  deriving DecidableEq, Repr

/-- An outstanding translation request (R49) of an agent: a task (`taskAgent`), or another (`Given`). -/
structure AtsReq where
  die : Nat
  fn : Nat
  pasid : Nat
  page : Nat
  who : Nat
  deriving DecidableEq, Repr

/-- How a host page that was found absent stands for an access (R50): no page request sent yet; sent; answered; found absent again. -/
inductive PriState where
  | absent | waiting | succeeded | failed | again
  deriving DecidableEq, Repr

/-- A page request (R50) that an access of an agent has led to, and after its response what the next translation of the page must do. -/
structure PriReq where
  die : Nat
  fn : Nat
  pasid : Nat
  page : Nat
  who : Nat
  st : PriState
  deriving DecidableEq, Repr

/-- What an issue that stalls or faults leaves behind in the units it asked: nothing else of it stands (R358). -/
inductive Post where
  /-- A translation request queued (R49). -/
  | ats (r : AtsReq)
  /-- A page request sent (R50). -/
  | pri (r : PriReq)
  /-- The page request of a page is used up by the translation that followed it (R50). -/
  | priUsed (fn pasid page who : Nat)
  /-- The refusal of a page has reached its access (R49). -/
  | badUsed (die fn pasid page who : Nat)
  /-- An automatic rack posted (R70). -/
  | rack (gbn : Nat)
  /-- The rack that an append makes started (R78). -/
  | rackIn (gbn cmd : Nat)
  /-- The arrival that a waiting BAR.WAIT implies (R337). -/
  | arrive (mcid lvl rank : Nat)
  /-- BARUNDER has been raised at a member (R156). -/
  | under (mcid lvl rank : Nat)
  /-- The held stores have left for an operation that waits, and the region is not restartable (R127). -/
  | region
  /-- A host read or AtomicOp sent (R328, R333). -/
  | host (core fn pasid addr xaddr len kind : Nat) (a b : Dword) (key : Nat)
  /-- Stores to the host leave before a read of the host by their task (R118). -/
  | hostOut
  /-- The fetch of a steeping segment moved ahead (R36). -/
  | ahead (frame : Nat)
  /-- A request sent to a peer, once for each key of an agent (R61, R139). -/
  | peer (agent fab key : Nat) (data : List Byte)
  /-- The answer to a request is not kept: it is asked for again (R72). -/
  | reask (agent key : Nat)
  /-- The DIRTY granules of a scratchpad range are written back although the issue faults (R352). -/
  | sync (off len : Nat)
  /-- A region map is made, removed, or its granules in a range become INVALID, when the bundle has committed (R352). -/
  | mapNew (off len gva : Nat)
  | mapDrop (off len : Nat)
  | mapInv (off len : Nat)
  /-- `SIGWAIT` has asked a job to halt, or has armed it (R276). -/
  | signal (mcid : Nat) (halt : Bool)
  /-- A wait at which the M slot fetches go on, by so many fetch cycles (R90). -/
  | cycles (n : Nat)
  deriving DecidableEq, Repr

/-- The issue in progress on a core: which slot executes, whether its word is in the bundle, and what the slots have done
that the end of the issue must check. -/
structure Issue where
  slot : Nat
  explicit : Bool
  nextPc : BitVec 52
  target : Option (BitVec 52)
  faults : List SlotFault
  /-- The slot that makes the bundle stall, and why. -/
  stall : Option (Nat × Wait)
  acc : List BankAcc
  dests : List (Nat × RegFile × Nat)
  rng : BitVec 128
  rngSet : Bool
  endRegion : Bool
  after : After
  /-- What the host has delivered to the stalled bundle, by the access (R141). -/
  given : List (Nat × List Byte)
  /-- What has woken the `WAITA` of the bundle that has stalled (R115). -/
  woken : Option Woken
  posts : List Post
  /-- The bypass histories as they stood before the issue (R236). -/
  y : List Bypass
  /-- The freed vector registers that the issue has written: its reads still find them freed (R232, R237). -/
  revived : BitVec 64
  deriving DecidableEq, Repr

/-- How a core stands: free; bound to a task that has retired or stopped and keeps its core; running (a task that waits
runs, with `wait` set). -/
inductive Run where
  | free | held | running
  deriving DecidableEq, Repr

/-- An engine write into the scratchpad of a stopped task (R362): its bytes, what poisons them, and the barrier and the phase that they
count against, if they do (R155). -/
structure Late where
  off : Nat
  bytes : List Byte
  bad : Option Nat
  bar : Option (Nat × Nat × Nat × Nat)
  view : List Nat
  /-- The release that a completion word is (R129, R130). -/
  rel : Option Rel
  deriving DecidableEq, Repr

/-- A page in an instruction buffer (R96): the bytes of its frame at the fill, with the keys of their lines and the key of the fetch (R27). -/
structure CodePage where
  pa : Nat
  key : LineTag
  mem : Memory
  tags : FMap LineTag
  deriving DecidableEq, Repr

/-- One core with the task on it. -/
structure Core where
  run : Run
  mcid : Nat
  grp : Nat
  rank : Nat
  taskid : Dword
  pl : BitVec 2
  part : Nat
  asid : Nat
  x : FMap Dword
  v : FMap Vec
  p : FMap Pred
  y : List Bypass
  f : FMap Dword
  fmts : List FmtPend
  pend : List Pend
  freed : BitVec 64
  /-- The registers that the bundle in progress frees after its last issue, and those that it has written (R237). -/
  lfree : BitVec 64
  lwrote : BitVec 64
  pc : BitVec 52
  rpt : Nat
  issueNo : Nat
  fetchCycle : Nat
  slots : List SlotState
  trap1 : TrapFrame
  trap2 : TrapFrame
  lc : BitVec 32
  sgate : BitVec 11
  rwin : BitVec 19
  kvwait : BitVec 32
  pbound : BitVec 32
  domset : BitVec 5
  rng : BitVec 128
  slip : BitVec 32
  epc1 : Dword
  estat1 : Dword
  ecause1 : Dword
  epc2 : Dword
  estat2 : Dword
  ecause2 : Dword
  sp : Pad
  tiles : Tiles
  tileBusy : BitVec 12
  mfetch : Option MFetch
  windows : List Window
  streams : FMap Stream
  maps : List RegMap
  l1 : FMap L1Line
  fused : Bool
  ibuf : FMap CodePage
  /-- The bundle in progress, as it was fetched: a repeated bundle is fetched once (R96). -/
  fetched : Option Nat
  held : List Held
  ntq : List Held
  /-- Chunks of the scratchpad that hold poisoned data, each with the PA of its line (R416). -/
  spBad : FMap Nat
  restart : Bool
  ckpt : Option Ckpt
  /-- Collectives issued: key 5·kind + level (R354). -/
  colls : FMap Nat
  wait : Option Wait
  /-- The slot that waits, and the fault conditions that the issue which waits has met (R358). -/
  wslot : Nat
  met : List SlotFault
  preq : Option StopReason
  /-- A fault to be raised at the first bundle after resumption (R45, R50). -/
  due : Option FaultInfo
  /-- Engine writes held while the task was stopped, which its first bundle waits for (R362). -/
  late : List Late
  issue : Issue
  /-- The frame of the swap onto this core, from which a slice is counted (R199), and its cycle, from which core-cycles are (R392). -/
  since : Nat
  swapIn : Nat
  /-- SLICE of its partition at that swap (R199), and STEEPWAIT of its MCB (R148). -/
  slice : Nat
  steepwait : Nat
  view : View
  /-- Completion words in the scratchpad, by 8-byte word, with their value and the release that wrote them (R129, R130). -/
  padRels : FMap (Nat × Rel)
  deriving DecidableEq, Repr

/-! ### The package -/

/-- A resource granted to a partition (R280). -/
structure Grant where
  part : Nat
  kind : Nat
  base : Nat
  count : Nat
  aux : Nat
  deriving DecidableEq, Repr

/-- A cached non-leaf entry of a die (R23): of level 1 or 2, with the VA bits that select it and the table it names. -/
structure WalkEntry where
  die : Nat
  asid : Nat
  level : Nat
  index : Nat
  table : Nat
  deriving DecidableEq, Repr

/-- A cached translation of a die (R23): the leaf as it was read, with its level. -/
structure TlbEntry where
  die : Nat
  asid : Nat
  page : Nat
  level : Nat
  leaf : Dword
  deriving DecidableEq, Repr

/-- An entry of a device translation cache, in pages of 4 KiB: `pages` pages from `page` on, translated to those from `xpage` on (R49). -/
structure DtcEntry where
  die : Nat
  fn : Nat
  pasid : Nat
  page : Nat
  pages : Nat
  xpage : Nat
  r : Bool
  w : Bool
  deriving DecidableEq, Repr

/-- A refusal remembered for a host page: the access that asked takes outcome 0x8 when it re-issues (R49). -/
structure AtsBad where
  die : Nat
  fn : Nat
  pasid : Nat
  page : Nat
  who : Nat
  deriving DecidableEq, Repr

/-- A fetch of a steep list: the entry, its frame, and what the entry held (R36, R37). -/
structure SteepFetch where
  ent : Nat
  frame : Nat
  desc : BitVec 512
  deriving DecidableEq, Repr

/-- An entry whose segment another fetch brings (R38): its frame, and the STATUS to be written once it is known, else 0. -/
structure SteepShare where
  ent : Nat
  frame : Nat
  result : Nat
  deriving DecidableEq, Repr

/-- A steep list in progress (R35 to R40): COUNT, or 0 before the header is read; the next entry to process; entries finished, and
those that ended with an error; the fetches not yet finished, of which the first 16 are in flight (R36); the entries that wait for
the fetch of another list (R38). -/
structure Steep where
  mcid : Nat
  asid : Nat
  base : Nat
  count : Nat
  next : Nat
  done : Nat
  fails : Nat
  fetching : List SteepFetch
  shared : List SteepShare
  /-- What the engine has written of the list: the releases of STATUS and DONE carry it (R39, R40). -/
  view : List Nat
  deriving DecidableEq, Repr

/-- A record of a Splice shard (R166); records of one MC stand in the order of their insertion. -/
structure Rec where
  key : BitVec 128
  op : BitVec 8
  sealed_ : Bool
  taken : Bool
  count : Nat
  mcid : Nat
  part : Nat
  first : Nat
  payload : BitVec 1792
  /-- The writes that happen before the launch of the record's job (R137). -/
  view : List Nat
  deriving DecidableEq, Repr

/-- A group on a resume list (R188); the list is first in, first out. -/
structure Resumed where
  mcid : Nat
  grp : Nat
  die : Nat
  deriving DecidableEq, Repr

/-- The condition a parked group waits for (R367). -/
inductive Ready where
  | always
  /-- A block, by its package and its number. -/
  | kv (chip gbn : Nat)
  | host (fn pasid page : Nat)
  | steep (frame : Nat)
  deriving DecidableEq, Repr

/-- A request in a dispatch queue (R275, R367). -/
structure DispReq where
  die : Nat
  part : Nat
  mcid : Nat
  grp : Nat
  /-- Every one of these must have cleared. -/
  ready : List Ready
  deriving DecidableEq, Repr

/-- The places of a hitch (R190), for each group its die and first core, and the record that it has popped. -/
structure HitchPlan where
  mcid : Nat
  places : List (Nat × Nat)
  /-- Cores of a group. -/
  size : Nat
  record : BitVec 2048
  deriving DecidableEq, Repr

/-- A pre-empted group whose block on its die is reserved while victims leave it (R193): it is placed when every core is free. -/
structure Back where
  mcid : Nat
  grp : Nat
  die : Nat
  core : Nat
  deriving DecidableEq, Repr

/-- A job (R145, R149): what its launch fixed, which ranks have retired or been terminated. -/
structure Job where
  mcid : Nat
  part : Nat
  tgsize : Nat
  ntg : Nat
  prio : Nat
  launched : Nat
  retired : BitVec 64
  dead : BitVec 64
  armed : Bool
  halting : Bool
  /-- A write-back has failed: the job ends FAULTED (R45). -/
  bad : Bool
  deriving DecidableEq, Repr

/-- A task off its core (R373, R374): its core as it was stopped. `spilled` tells that the image is in its save slot. -/
structure Image where
  mcid : Nat
  rank : Nat
  core : Core
  stop : Nat
  lmi : Nat
  full : Bool
  /-- The extents and the tiles that the image holds (R248, R373). -/
  ext : BitVec 256
  tl : BitVec 12
  spilled : Bool
  /-- The record of the fault that stopped the task, until its queue has taken it, and whether an armed BREAK or WATCH is to
  halt the job (R362, R364, R377). -/
  rec_ : Option (BitVec 512)
  brk : Bool
  /-- What a wait cause waits for; none where the supervisor must resume the group (R367). -/
  ready : Option Ready
  /-- Engine writes to the task's scratchpad that are held until it is restored (R362). -/
  late : List Late
  /-- The DIRTY granules whose write-back waits for a translation (R42): map and number. -/
  wbs : List (Nat × Nat)
  deriving DecidableEq, Repr

/-- An engine command outstanding (R316, R338). `snap` is the issuer's scratchpad at its issue, `snapBad` what poisons it. -/
structure Cmd where
  id : Nat
  core : Nat
  mcid : Nat
  rank : Nat
  asid : Nat
  pl : Nat
  part : Nat
  op : Nat
  desc : BitVec 512
  off : Nat
  snap : Pad
  snapBad : FMap Nat
  phase : Nat
  coll : Nat
  progress : Nat
  late : Nat
  deadline : Nat
  /-- KVWAIT of the issuing task at issue (R318); whether the limit of a wait has run out (R341); what it waits for. -/
  kvwait : Nat
  expired : Bool
  wait : Option Wait
  /-- The group of its issuer. -/
  grp : Nat
  /-- STEEPWAIT of the issuing task (R148). -/
  steepwait : Nat
  /-- The barrier that its bytes count against, where its issuer is a member of the level (R155): the MC and the domain. -/
  bar : Option (Nat × Nat)
  /-- The job of its issuer has ended. -/
  orphan : Bool
  /-- The command carries the release flag and is held in the region store buffer (R127). -/
  held : Bool
  /-- The members of a collective in ring order, each as 64·mcid + rank (R354). -/
  members : List Nat
  /-- The writes that its accesses do not go behind, its own among them (R128, R129); the writes that happened before its issue in its
  task, which its completion word carries with REL (R129). -/
  view : List Nat
  before : List Nat
  /-- The release fences that its writes carry: those before every access of it (R123, R128). -/
  rels : List Rel
  /-- Its reads of pooled memory refresh their line (R144). -/
  cxl : Bool
  /-- How many stores of its task were held at its issue (R127). -/
  heldN : Nat
  deriving DecidableEq, Repr

/-- A block move of a Racking engine in progress (R69): the entry is RACKING. `cmd` is the command that learns how it ends, none for an
automatic rack; `peer` is the package that has asked for it (R67). -/
structure Move where
  gbn : Nat
  cmd : Option Nat
  peer : Option Nat
  deriving DecidableEq, Repr

/-- A racking command in its queue, or started (R67). An automatic rack names its block by `gbn` (R70). -/
structure Rack where
  die : Nat
  part : Nat
  gbn : Option Nat
  cmd : Option Nat
  deriving DecidableEq, Repr

/-- A barrier (R155): a domain of a job (of an XID at level 4); the phase that some member has still to complete, with its
arrivals and pending bytes; those of the next phase; whether the phase is complete, and which members have completed it; the
members that must meet BARUNDER (R156). A member is named 64·mcid + rank. -/
structure Barrier where
  mcid : Nat
  lvl : Nat
  dom : Nat
  phase : Nat
  p : BitVec 64
  pn : BitVec 64
  arr : List Nat
  arrn : List Nat
  done : Bool
  seen : List Nat
  under : List Nat
  /-- The writes that happen before the completion of the phase, and of the next one (R136). -/
  view : List Nat
  viewn : List Nat
  /-- At level 4: the member jobs of other packages whose tasks have all arrived in the phase, and in the next one. -/
  out : List Nat
  outn : List Nat
  deriving DecidableEq, Repr

/-- A task that has left a domain (R154). -/
structure Left where
  mcid : Nat
  lvl : Nat
  rank : Nat
  deriving DecidableEq, Repr

/-- A member job of a level-4 domain that has ended here while the round of its XID goes on (R154): its XID, MC, XNMEM + 1 and XHOME. -/
structure Ended where
  xid : Nat
  mcid : Nat
  n : Nat
  home : Nat
  deriving DecidableEq, Repr

/-- A return slot (R184): `client` is the request's frame up to and with its UDP header; from frame `stop` on the slot is free. -/
structure RSlot where
  die : Nat
  slot : Nat
  mcid : Nat
  seq : Nat
  ctx : Nat
  port : Nat
  client : List Byte
  stop : Nat
  deriving DecidableEq, Repr

/-- A request to a peer that waits for its acknowledgement (R139): of a command (its agent number, see `Given`), or of a KV
stream of a core, which `key` names (R61). -/
structure PeerReq where
  id : Nat
  fab : Nat
  agent : Nat
  key : Nat
  data : List Byte
  deriving DecidableEq, Repr

/-- A host read or AtomicOp that waits for its completion (R141). -/
structure HostReq where
  id : Nat
  /-- The agent: the core, or another (`Given`). -/
  core : Nat
  fn : Nat
  pasid : Nat
  page : Nat
  len : Nat
  /-- Which access of the agent it answers (`hostKey`). -/
  key : Nat
  deriving DecidableEq, Repr

/-- An invalidation in progress (R51): step 1 is done, and it waits for the requests `reqs` that may have used a removed translation.
`reply` tells that an Invalidation Completion follows; none follows a Function Level Reset (R387). -/
structure Inval where
  fn : Nat
  pasid : Option Nat
  page : Nat
  pages : Nat
  reqs : List Nat
  reply : Bool
  deriving DecidableEq, Repr

/-- What the host has delivered to an agent that is no task (R141), by the access: 256 plus the number of an engine command, 2^64
plus the MC of a ring, 2^65 plus the MC of a steep list. -/
structure Given where
  agent : Nat
  key : Nat
  data : List Byte
  deriving DecidableEq, Repr

/-- The chain of usage records of a partition (R393), and the frame at which the next record is due. (DEDUCED, log entry 56) -/
structure Seal where
  seqno : Nat
  frame0 : Nat
  prev : BitVec 256
  held : List (BitVec 2048 × BitVec 3072)
  due : Nat
  deriving DecidableEq, Repr

/-- A fault record that its queue could not yet take (R364). -/
structure PendRec where
  queue : Nat
  record : BitVec 512
  deriving DecidableEq, Repr

/-- The calendar's account of a unit for a partition (R197, R198): slots used, credit drawn, credit held, owned slots used, RC. -/
structure CalUse where
  used : Nat
  drawn : Nat
  credit : Nat
  owned : Nat
  rot : Int
  deriving DecidableEq, Repr

/-- A page in motion (R110): the command that moves it, and its new frame. -/
structure Motion where
  asid : Nat
  page : Nat
  cmd : Nat
  frame : Nat
  deriving DecidableEq, Repr

/-- What leaves the package. (DESIGN CHOICE, log entry 31) -/
inductive OutMsg where
  /-- A frame on an Ethernet port (R185, R389). -/
  | frame (port : Nat) (data : List Byte)
  /-- A translation request (R49) with the permissions it asks for (R48). -/
  | ats (fn pasid page : Nat) (read write exec : Bool)
  /-- A page request (R50). -/
  | pri (fn pasid page : Nat)
  /-- An invalidation completion (R51). -/
  | invalDone (fn page : Nat)
  /-- A posted write to the host at a translated address (R48, R141), with its EP bit (R416) and its Relaxed Ordering attribute. -/
  | hostWrite (fn xaddr : Nat) (data : List Byte) (ep ro : Bool)
  /-- A read of the host at a translated address (R48, R328). -/
  | hostRead (id fn xaddr len : Nat)
  /-- An AtomicOp at a translated address: 0 FetchAdd, 1 Swap, 2 CAS (R48, R333). -/
  | hostAtomic (id fn xaddr len kind : Nat) (a b : Dword)
  /-- An MSI-X message (R365, R387). -/
  | msix (fn vec : Nat)
  /-- A request to a Brodilo peer (R139). -/
  | peer (id fab : Nat) (data : List Byte)
  /-- The answer to a request of a peer, by its number (R61, R139). -/
  | peerReply (fab : Nat) (data : List Byte)
  /-- A decrement of a remote block (R80), and the release of a pin of one (R61, R75). -/
  | peerDec (fab gbn : Nat)
  | peerUnpin (fab gbn : Nat)
  /-- A flit of a reduction to a peer (R356), and the bytes of a broadcast (R357), with their poison bit (R416). -/
  | flit (fab : Nat) (data : List Byte) (bad : Bool)
  /-- To the package that holds a level-4 barrier: an arrival, landed bytes, and a task that leaves; from it: a phase is complete (R154, R155). -/
  | barArrive (fab xid job rank : Nat) (c : Dword)
  | barLanded (fab xid phase n : Nat)
  | barLeave (fab xid job rank : Nat)
  | barDone (xid phase : Nat)
  | bcast (fab : Nat) (data : List Byte) (bad : Bool)
  /-- What a host read of a notify word returns (R178). -/
  | notify (fn mcid : Nat) (data : Dword)
  /-- What a host read of BOOTSTAT returns (R413). -/
  | bootstat (data : Dword)
  /-- THERMTRIP# and FAULT# asserted (R411, R413). -/
  | therm
  | faultPin
  deriving DecidableEq, Repr

/-- Where poisoned data lies in a run of bytes (R416): offset, length, and the line that it comes from. -/
abbrev Spots := List (Nat × Nat × Nat)

/-- What the members of a level-4 collective in other packages have exchanged with those here before any data moves (R354): the other packages,
each with the number of its members; the fields on which the members must agree. Then what has arrived of their data, with what is poisoned of it
(R416), and which flits have been sent (R218, R356). -/
structure Exchange where
  xid : Nat
  op : Nat
  coll : Nat
  fabs : List (Nat × Nat)
  terms : Nat
  flits : List (BitVec 2048 × Bool)
  data : List Byte
  dataBad : Spots
  sent : List Nat
  deriving DecidableEq, Repr

/-- What a peer asks of a block of this package (R61, R67, R75, R81), beside the second stage of a walk. -/
inductive PeerKv where
  /-- Bytes of the block's data. -/
  | rows (off n : Nat)
  /-- One more reference, for a leaf of the peer. -/
  | share
  /-- A RACK to a KV tier, which may set AUTORACK. -/
  | rack (tier : Nat) (ar : Option Bool)
  /-- The pin of a stream of the peer is released. -/
  | unpin
  /-- The first 8 bytes of the entry (R322). -/
  | query
  deriving DecidableEq, Repr

/-- What the outside does that is no row of the opcode table. (DESIGN CHOICE, log entry 31) -/
inductive Outside where
  /-- Another CXL requester writes to the pooled device, or has it carry out a device-side atomic: 0 add, 1 swap, 2 compare and swap (R144). -/
  | cxlWrite (pa : Nat) (data : List Byte)
  | cxlAtomic (pa len kind : Nat) (a b : Dword)
  /-- The host reads the notify word of an MC through a function (R178). -/
  | notifyRead (fn mcid : Nat)
  /-- The host reads BOOTSTAT, at offset 0 of PF BAR 0 (R413). -/
  | bootRead
  /-- Every task of a member job of another package has arrived at the level-4 barrier of an XID in the phase that is open to it, with the
  sum of their expected counts; such bytes have landed; every task of it has left the domain (R154, R155). -/
  | barArrive (fab xid job : Nat) (c : Dword)
  | barLanded (fab xid phase n : Nat)
  | barLeave (fab xid job : Nat)
  /-- The other members of a level-4 collective have issued it; a flit of theirs arrives; so do the bytes of a broadcast (R354, R356, R357). -/
  | collExchange (x : Exchange)
  | collFlit (xid coll : Nat) (flit : BitVec 2048) (bad : Bool)
  | collData (xid coll : Nat) (data : List Byte) (bad : Bool)
  /-- A peer's partition asks something of a block of this package. -/
  | peerKv (fab part gbn : Nat) (op : PeerKv)
  /-- A peer tells that a block of its own no longer takes outcome 0x15 (R74). -/
  | kvReady (fab gbn : Nat)
  deriving DecidableEq, Repr

/-- Which agent moves in the next step, or what the outside does. (DESIGN CHOICE, log entry 31) -/
inductive Turn where
  | core (n : Nat)
  | event (e : Instr)
  | outside (o : Outside)
  deriving DecidableEq, Repr

/-- Bring-up (R413): STEP, FAIL and CODE of BOOTSTAT among it. -/
structure Boot where
  step : Nat
  fail : Bool
  code : Nat
  /-- PERST# is asserted, or bring-up has not been done. -/
  inReset : Bool
  /-- The root's core: 64·die + core. -/
  rootCore : Nat
  /-- The cores that the configuration record disables. -/
  disabled : List Nat
  /-- SHA-256 of the firmware image and of the configuration record (R396). -/
  fwMeas : BitVec 256
  cfgHash : BitVec 256
  deriving DecidableEq, Repr

/-- A request for an attestation report that the security engine has taken (R396): the die, the translation ASID, the partition and the level of
the writer of ATTREQ, and the VA. -/
structure AttReq where
  die : Nat
  asid : Nat
  part : Nat
  pl : Nat
  va : Nat
  deriving DecidableEq, Repr

/-- A write of another CXL requester within a line that the home slice has not read again since (R144), with its number among the writes. -/
structure CxlWrite where
  cells : List Host.Cell
  deriving DecidableEq, Repr

/-- The package. -/
structure State where
  /-- The model's own: counts the steps; every free value is taken at it. -/
  tick : Nat
  /-- The model's own: the agents that move next. -/
  turns : List Turn
  /-- The model's own: the core whose operation is executed. -/
  cur : Nat
  /-- The model's own: what has left the package, newest first. -/
  out : List OutMsg
  boot : Boot
  /-- Frames since reset (R112) and the cycle within the frame, 0 to 2,047 (R166). -/
  frame : Nat
  cycle : Nat
  mem : Memory
  lineTag : FMap LineTag
  poison : FMap Bool
  nvme : Memory
  /-- The writes of the last two frames, each location's newest first (R98, R118), and the number of the next one. -/
  hist : List WRec
  writes : Nat
  /-- The full fences, with what happens before each (R124). -/
  fences : List Rel
  /-- The writes of each host function, and of each peer by 32 plus its number, that a later one of it carries (R139, R142). -/
  posted : FMap (List Nat)
  cxl : List CxlWrite
  /-- VCLOCK: key 4·die + entry (R126). -/
  vclock : FMap (BitVec 32)
  cores : FMap Core
  /-- The MC slots whose MCB is not FREE: which MCBs the device looks at; the MCBs themselves lie in `mem` (R146). -/
  mcs : FMap Bool
  csrs : FMap Dword
  staged : List (Nat × Dword)
  keys : FMap (BitVec 768)
  kvCount : FMap Nat
  pendRows : FMap Nat
  /-- What the LEN updates of a sequence carry, by its descriptor: the writes of its rows (R79). -/
  seqView : FMap (List Nat)
  grants : List Grant
  tlb : List TlbEntry
  walks : List WalkEntry
  motion : List Motion
  dtc : List DtcEntry
  ats : List AtsReq
  atsBad : List AtsBad
  pri : List PriReq
  grist : List (BitVec 256 × Nat)
  /-- The rotating pointer of the grist key slots (R31). -/
  gristPtr : Nat
  /-- The frame whose key each grist key slot holds, by slot less 1,024, and that key (R31). -/
  gristKeys : FMap (Nat × BitVec 512)
  steeps : List Steep
  recs : List Rec
  hold : List Nat
  pending : FMap Bool
  defer : FMap Bool
  rot : FMap Nat
  resume : List Resumed
  dispq : List DispReq
  plans : List HitchPlan
  back : List Back
  jobs : List Job
  images : List Image
  cmds : List Cmd
  racks : List Rack
  moves : List Move
  bars : List Barrier
  left : List Left
  /-- The member jobs of other packages that have left the level-4 domain of an XID: XID and job (R154). -/
  outer : List (Nat × Nat)
  /-- The member jobs of level-4 domains that have ended here. -/
  ended : List Ended
  /-- The packages that are known to have member jobs of a level-4 domain: XID and package. -/
  xidHosts : List (Nat × Nat)
  exchanges : List Exchange
  ringPend : FMap Bool
  /-- The rings that are tried again at the next frame: ring and the frame of the refusal (R179). -/
  ringHold : FMap Nat
  rslots : List RSlot
  /-- The decrements and pin releases held for owners out of reach, in order (R80). -/
  decs : List (Nat × OutMsg)
  linksDown : List Link
  peerReqs : List PeerReq
  hostReqs : List HostReq
  invals : List Inval
  given : List Given
  /-- The next number for a command or a request. -/
  nextId : Nat
  /-- Counters of a job's groups not yet written out: key 64·mcid + 16·group + index (R392). -/
  use : FMap Nat
  /-- Running totals of a partition: key 16·part + index (R392). -/
  totals : FMap Nat
  seals : FMap Seal
  pendRecs : List PendRec
  /-- Key 17·unit + partition; unit 0 stands for every unit that has served nobody yet. -/
  cal : FMap CalUse
  /-- The calendar slot, 256·frame plus slot, in which a unit has last served (R197). -/
  calSlot : FMap Nat
  /-- The blocks of this package that streams of peers hold pinned: peer and GBN (R61, R75). -/
  peerPins : List (Nat × Nat)
  /-- The line the patrol scrubber has read last (R415). -/
  patrol : Nat
  /-- Writes of the device to its own structures that a watchpoint names and that are not reported yet: address and length (R378). -/
  touched : List (Nat × Nat)
  /-- The attestation report under way (R396). -/
  att : Option AttReq
  deriving DecidableEq, Repr

/-! ### Reset -/

/-- A disarmed slot (R229). -/
def SlotState.off : SlotState := ⟨false, 0, []⟩
/-- A bypass entry at launch (R236). -/
def Bypass.zero : Bypass := ⟨0, 0, 0⟩
/-- A unit at reset (log entry 4). -/
def CalUse.zero : CalUse := ⟨0, 0, 0, 0, 0⟩
/-- Nothing saved by a trap. -/
def TrapFrame.none : TrapFrame := ⟨List.replicate 5 .off, List.replicate 4 .zero, []⟩
/-- No issue in progress. -/
def Issue.none : Issue := ⟨0, false, 0, Option.none, [], Option.none, [], [], 0, false, false, .go, [], Option.none, [], [], 0⟩

/-- Nothing read, written or known (R118). -/
def View.none : View := ⟨[], [], ⟨[], []⟩, [], [], [], false⟩

/-- A core at reset: free; DOMSET 0x0F, KVWAIT 20,000 and PBOUND 4,096 (R154, R72, R368); every register zero where the
spec gives no reset value (log entry 4). (DESIGN CHOICE, log entry 4) -/
def Core.reset : Core where
  run := .free
  mcid := 0
  grp := 0
  rank := 0
  taskid := 0
  pl := 0
  part := 0
  asid := 0
  x := []
  v := []
  p := []
  y := List.replicate 4 .zero
  f := []
  fmts := []
  pend := []
  freed := 0
  lfree := 0
  lwrote := 0
  pc := 0
  rpt := 0
  issueNo := 0
  fetchCycle := 0
  slots := List.replicate 5 .off
  trap1 := .none
  trap2 := .none
  lc := 0
  sgate := 0
  rwin := 0
  kvwait := 0x4E20
  pbound := 0x1000
  domset := 0x0F
  rng := 0
  slip := 0
  epc1 := 0
  estat1 := 0
  ecause1 := 0
  epc2 := 0
  estat2 := 0
  ecause2 := 0
  sp := .zero
  tiles := .zero
  tileBusy := 0
  mfetch := Option.none
  windows := []
  streams := []
  maps := []
  l1 := []
  fused := false
  ibuf := []
  fetched := none
  held := []
  ntq := []
  spBad := []
  restart := false
  ckpt := Option.none
  colls := []
  wait := Option.none
  wslot := 0
  met := []
  preq := Option.none
  due := Option.none
  late := []
  issue := .none
  since := 0
  swapIn := 0
  slice := 0
  steepwait := 0
  view := .none
  padRels := []

/-- The machine right after reset: PERST# asserted, bring-up not begun (R413), every counter 0, memory zero.
(DESIGN CHOICE, log entry 4; DEDUCED, log entry 24) -/
def State.reset : State where
  tick := 0
  turns := []
  cur := 255
  out := []
  boot := ⟨0, false, 0, true, 255, [], 0, 0⟩
  frame := 0
  cycle := 0
  mem := []
  lineTag := []
  poison := []
  nvme := []
  hist := []
  writes := 0
  fences := []
  posted := []
  cxl := []
  vclock := []
  cores := []
  mcs := []
  csrs := []
  staged := []
  keys := []
  kvCount := []
  pendRows := []
  seqView := []
  grants := []
  tlb := []
  walks := []
  motion := []
  dtc := []
  ats := []
  atsBad := []
  pri := []
  grist := []
  gristPtr := 0
  gristKeys := []
  steeps := []
  recs := []
  hold := []
  pending := []
  defer := []
  rot := []
  resume := []
  dispq := []
  plans := []
  back := []
  jobs := []
  images := []
  cmds := []
  racks := []
  moves := []
  bars := []
  left := []
  outer := []
  ended := []
  xidHosts := []
  exchanges := []
  ringPend := []
  ringHold := []
  rslots := []
  decs := []
  linksDown := []
  peerReqs := []
  hostReqs := []
  invals := []
  given := []
  nextId := 0
  use := []
  totals := []
  seals := []
  pendRecs := []
  cal := []
  calSlot := []
  peerPins := []
  patrol := 0
  touched := []
  att := Option.none

end Sys2Proof.Machine
end

