-- ==== Sys2Proof/Machine/Ops.lean ====
section
/-! DEFINITION. The named operations over the registers of a core and the records of an issue: every read and write of a
register goes through one of these. -/

namespace Sys2Proof.Machine

/-! ### The running computation of a slot -/

/-- Why a slot's operation does not complete in this issue. -/
inductive Abort where
  /-- A fault condition (R358); what it leaves behind in the units it asked. -/
  | fault (fi : FaultInfo)
  /-- The bundle stalls whole (R231, R234). -/
  | stall (w : Wait)
  /-- The device reaches a physical address that is no frame. -/
  | hole (pa : Nat)
  deriving DecidableEq, Repr

/-- A computation of a slot or of a unit: it reads and writes the state, and may end early. The posts that it has made by
then stand. -/
abbrev M (α : Type) := StateT State (Except (Abort × List Post)) α

/-- End early. -/
def M.stop {α : Type} (a : Abort) (ps : List Post := []) : M α := fun _ => .error (a, ps)
/-- A value read off the state. -/
def M.asks {α : Type} (f : State → α) : M α := fun s => .ok (f s, s)
/-- A change of the state. -/
def M.change (f : State → State) : M Unit := fun s => .ok ((), f s)
/-- Go on only where a condition holds. (DESIGN CHOICE, log entry 82) -/
def M.need (b : Bool) (a : Abort) : M Unit := if b then pure () else M.stop a

/-- Where a computation ends early, leave more behind. -/
def M.leaving {α : Type} (ps : List Post) (m : M α) : M α := fun s =>
  match m s with
  | .ok r => .ok r
  | .error (a, qs) => .error (a, ps ++ qs)

/-! ### Cause codes (R361) -/

/-- A cause with nothing further in its record. -/
def FaultInfo.plain (cause : Nat) : FaultInfo := ⟨cause, 0, 0, 0⟩
/-- ILLEGAL_BUNDLE. -/
def illegalBundle : FaultInfo := .plain 0x01
/-- ILLEGAL_SLOT. -/
def illegalSlot : FaultInfo := .plain 0x02
/-- PRIVILEGE. -/
def privilege : FaultInfo := .plain 0x03
/-- DEADREG. -/
def deadreg : FaultInfo := .plain 0x04
/-- BANKCONFLICT. -/
def bankConflict : FaultInfo := .plain 0x06
/-- BARUNDER. -/
def barUnder : FaultInfo := .plain 0x07
/-- BREAK. -/
def breakFault : FaultInfo := .plain 0x31

/-- INFO of the causes that name a VA: [51:0] the VA, [52] write, [53] fetch (R366). -/
def vaInfo (va : Nat) (write fetch : Bool) : BitVec 192 :=
  BitVec.ofNat 192 (va % 2 ^ 52 + (if write then 2 ^ 52 else 0) + (if fetch then 2 ^ 53 else 0))

/-- MISALIGN at a VA. -/
def misalign (va : Nat) (write : Bool) : FaultInfo := ⟨0x05, 0, 0, vaInfo va write false⟩

/-- Where a cause stands when one slot meets several conditions (R358): ILLEGAL_BUNDLE, ILLEGAL_SLOT, PRIVILEGE, DEADREG,
MISALIGN, BANKCONFLICT, the translation causes, BARUNDER, WATCH. -/
def causeRank (cause : Nat) : Nat :=
  if cause = 0x01 then 0 else if cause = 0x02 then 1 else if cause = 0x03 then 2 else if cause = 0x04 then 3
  else if cause = 0x05 then 4 else if cause = 0x06 then 5 else if cause = 0x07 then 7 else if cause = 0x30 then 8 else 6

/-! ### Cores -/

/-- A core by its number 64·die + core. -/
def State.coreAt (s : State) (n : Nat) : Core := s.cores.get Core.reset n
/-- The state with a core replaced. -/
def State.setCoreAt (s : State) (n : Nat) (k : Core) : State := { s with cores := s.cores.insert n k }
/-- The core whose operation is executed. -/
def State.core (s : State) : Core := s.coreAt s.cur
/-- The state with the executing core replaced. -/
def State.setCore (s : State) (k : Core) : State := s.setCoreAt s.cur k
/-- The state with the executing core changed. -/
def State.onCore (s : State) (f : Core → Core) : State := s.setCore (f s.core)
/-- The state with the issue in progress changed. -/
def State.onIssue (s : State) (f : Issue → Issue) : State := s.onCore fun k => { k with issue := f k.issue }
/-- The die of the executing core. -/
def State.die (s : State) : Nat := s.cur / 64

/-- Shard time: FRAMECTR·2,048 plus the cycle within the frame (R166). -/
def State.time (s : State) : Nat := s.frame * 2048 + s.cycle
/-- DEVNS: 10 ns at each REFCLK edge, the core clock being 19 times REFCLK (R390, R412). -/
def State.devns (s : State) : Nat := s.time / 19 * 10

/-! ### Writes in flight (R232, R233) -/

/-- How many bits of each independent piece of a register: a byte of an x register or of the scratchpad, a bit of a
predicate, a lane of a vector (R232; of an x register log entry 6). (DEDUCED, log entry 6) -/
def RegFile.piece : RegFile → Nat
  | .x => 8
  | .v => 32
  | .p => 1
  | .sp => 8

/-- A number of a register file and a register, for the coordinates of a free value. -/
def RegFile.code : RegFile → Nat
  | .x => 0
  | .v => 1
  | .p => 2
  | .sp => 3

/-- What a read at issue `n` makes of one write: its value from its bound on; before that, in each piece, the old value or
the new (R232). (DEDUCED, log entries 5, 6) -/
def Pend.see (tick slot n : Nat) (b : BitVec 4096) (e : Pend) : BitVec 4096 :=
  if e.due ≤ n then blend e.mask b e.val
  else if e.issue < n then
    let c := Config.free 128 tick .window (e.file.code + 4 * e.key) (e.issue + 2 ^ 64 * slot)
    blend (e.mask &&& spread e.file.piece c) b e.val
  else b

/-- The writes in flight to one register, in issue order. -/
def Core.flight (k : Core) (f : RegFile) (key : Nat) : List Pend :=
  k.pend.filter fun e => decide (e.file = f) && decide (e.key = key)

/-- A register as a read at the current issue sees it, given its landed value. (DEDUCED, log entry 5) -/
def Core.seen (k : Core) (tick : Nat) (f : RegFile) (key : Nat) (base : BitVec 4096) : BitVec 4096 :=
  (k.flight f key).foldl (Pend.see tick k.issue.slot k.issueNo) base

/-- A chunk of the scratchpad as it has landed. -/
def spChunk (p : Pad) (c : Nat) : BitVec 4096 := (p.chunk c).setWidth 4096

/-- The landed value of a register. -/
def Core.landed (k : Core) (f : RegFile) (key : Nat) : BitVec 4096 :=
  match f with
  | .x => (FMap.get 0 k.x key).setWidth 4096
  | .v => FMap.get 0 k.v key
  | .p => (FMap.get 0 k.p key).setWidth 4096
  | .sp => spChunk k.sp key

/-- The landed value of a register replaced. -/
def Core.setLanded (k : Core) (f : RegFile) (key : Nat) (w : BitVec 4096) : Core :=
  match f with
  | .x => { k with x := k.x.insert key (w.setWidth 64) }
  | .v => { k with v := k.v.insert key w }
  | .p => { k with p := k.p.insert key (w.setWidth 128) }
  | .sp => { k with sp := k.sp.setChunk key (w.setWidth 512) }

/-- The older writes in flight, without the bits that a landing write has replaced: a register never returns to an older
value once the bound of a newer write has passed (R233). -/
def maskOlder (e : Pend) (ps : List Pend) : List Pend :=
  ps.map fun q => if q.file = e.file ∧ q.key = e.key then { q with mask := q.mask &&& ~~~e.mask } else q

/-- Land, in issue order, the writes whose bound is at or before issue `n`; answers the core and the writes that stay in
flight. -/
def landGo (n : Nat) : Core → List Pend → List Pend → Core × List Pend
  | k, older, [] => (k, older)
  | k, older, e :: es =>
    if e.due ≤ n then
      landGo n (k.setLanded e.file e.key (blend e.mask (k.landed e.file e.key) e.val)) (maskOlder e older) es
    else landGo n k (older ++ [e]) es

/-- Land every write whose bound is at or before issue `n` (R232, R233). -/
def Core.land (k : Core) (n : Nat) : Core :=
  let r := landGo n k [] k.pend
  { r.1 with pend := r.2 }

/-- Drain-to-bound: every write in flight lands (R360). -/
def Core.drain (k : Core) : Core := k.land (k.pend.foldl (fun a e => max a e.due) k.issueNo)

/-! ### x and p registers, stage gates, format registers -/

/-- An x register at the current issue; x0 reads zero (R238). -/
def State.getX (s : State) (r : Nat) : Dword :=
  if r = 0 then 0 else (s.core.seen s.tick .x r (s.core.landed .x r)).setWidth 64

/-- A predicate register at the current issue; p0 reads all ones (R238). -/
def State.getP (s : State) (r : Nat) : Pred :=
  if r = 0 then BitVec.allOnes 128 else (s.core.seen s.tick .p r (s.core.landed .p r)).setWidth 128

/-- Stage gate q(i): 128 copies of its bit of SGATE (R239). -/
def Core.gate (k : Core) (i : Nat) : Pred := if k.sgate.getLsbD i then BitVec.allOnes 128 else 0

/-- A predicate source: codes 0 to 23 a register, 24 to 31 a stage gate (R226, R252). -/
def State.getPq (s : State) (code : Nat) : Pred := if code < 24 then s.getP code else s.core.gate (code - 24)

/-- The effective predicate of an operation (R226). -/
def State.effPred (s : State) (c : Ctl) : Pred :=
  let b := s.getPq c.pred.toNat
  if c.pn then ~~~b else b

/-- Is an S, M or C operation enabled (R226)? -/
def State.enabled (s : State) (c : Ctl) : Bool := (s.effPred c).getLsbD 0

/-- Is a V operation enabled (R226)? -/
def State.enabledV (s : State) (c : Ctl) : Bool := s.effPred c != 0

/-- A write put in flight: it shows from `lat` issues on, and its register is a destination of this issue (R232, R235). -/
def State.putPend (s : State) (f : RegFile) (key : Nat) (val mask : BitVec 4096) (lat : Nat) : State :=
  s.onCore fun k =>
    { k with pend := k.pend ++ [⟨f, key, val, mask, k.issueNo, k.issueNo + lat⟩] }

/-- The destination of the executing slot is noted for the check of R235. -/
def State.noteDest (s : State) (f : RegFile) (key : Nat) : State :=
  s.onIssue fun i => { i with dests := (i.slot, f, key) :: i.dests }

/-- Write an x register with a bound; writes to x0 are discarded (R238). An interlocked result has bound 1 (R234). -/
def State.putX (s : State) (r : Nat) (v : Dword) (lat : Nat) : State :=
  if r = 0 then s else (s.noteDest .x r).putPend .x r (v.setWidth 4096) ((BitVec.allOnes 64).setWidth 4096) lat

/-- Write the bits of `m` of a predicate register; writes to p0 are discarded (R238). -/
def State.putPMask (s : State) (r : Nat) (v m : Pred) (lat : Nat) : State :=
  if r = 0 then s else (s.noteDest .p r).putPend .p r (v.setWidth 4096) (m.setWidth 4096) lat

/-- Write a predicate register whole (R257). -/
def State.putP (s : State) (r : Nat) (v : Pred) (lat : Nat) : State := s.putPMask r v (BitVec.allOnes 128) lat

/-- A format register as an operation of this issue sees it (R203, R240). -/
def State.getF (s : State) (r : Nat) : Dword :=
  s.core.fmts.foldl (fun b e => if e.reg = r ∧ e.at_ ≤ s.core.issueNo then e.val else b) (FMap.get 0 s.core.f r)

/-- FMT issued at issue k writes for issue k + 5 and later (R240). -/
def State.putF (s : State) (r : Nat) (v : Dword) : State :=
  s.onCore fun k => { k with fmts := k.fmts ++ [⟨r, v, k.issueNo + 5⟩] }

/-- Pending format writes that have come into effect are taken into the registers, in issue order (R240). -/
def Core.settleFmts (k : Core) (n : Nat) : Core :=
  { k with f := (k.fmts.filter fun e => decide (e.at_ ≤ n)).foldl (fun m e => m.insert e.reg e.val) k.f,
           fmts := k.fmts.filter fun e => !decide (e.at_ ≤ n) }

/-! ### Vector registers and rotation (R239) -/

/-- FIRST of RWIN. -/
def Core.rwFirst (k : Core) : Nat := bits k.rwin.toNat 5 0
/-- SIZE of RWIN. -/
def Core.rwSize (k : Core) : Nat := bits k.rwin.toNat 12 6
/-- OFF of RWIN. -/
def Core.rwOff (k : Core) : Nat := bits k.rwin.toNat 18 13

/-- The physical vector register of a logical one (R239). -/
def Core.physV (k : Core) (i : Nat) : Nat :=
  if k.rwSize = 0 ∨ i < k.rwFirst ∨ k.rwFirst + k.rwSize ≤ i then i
  else k.rwFirst + (i - k.rwFirst + k.rwOff) % k.rwSize

/-- One rotation of the window (R239). -/
def Core.rotate (k : Core) : Core :=
  if k.rwSize = 0 then k
  else { k with rwin := BitVec.ofNat 19 (setBits k.rwin.toNat 18 13 ((k.rwOff + 1) % k.rwSize)) }

/-- A vector register at the current issue, by its logical number. -/
def State.getV (s : State) (i : Nat) : Vec :=
  s.core.seen s.tick .v (s.core.physV i) (s.core.landed .v (s.core.physV i))

/-- Does a read of the issue in progress find a vector register freed (R237)? A write of the same issue does not change that (R232). -/
def State.isFreed (s : State) (i : Nat) : Bool := (s.core.freed ||| s.core.issue.revived).getLsbD (s.core.physV i)

/-- Write the lanes of `m` of a vector register. A freed register becomes live, and its other lanes are undefined (R237).
(DEDUCED, log entry 8) -/
def State.putV (s : State) (i : Nat) (v : Vec) (m : Pred) (lat : Nat) : State :=
  let r := s.core.physV i
  let s1 := s.noteDest .v i
  let s2 := if s.core.freed.getLsbD r then
      ((s1.onCore fun k => { k with freed := k.freed &&& ~~~(BitVec.ofNat 64 (2 ^ r)),
                                    issue := { k.issue with revived := k.issue.revived ||| BitVec.ofNat 64 (2 ^ r) } }).putPend .v r
        (Config.free 4096 s.tick .freedLanes r s.cur) (spread 32 (~~~m)) 0)
    else s1
  s2.putPend .v r v (spread 32 m) lat

/-- The lanes of a vector result put into the bypass history of the executing V slot (R236). (DEDUCED, log entry 7) -/
def State.enterBypass (s : State) (v : Vec) (lat : Nat) : State :=
  s.onCore fun k =>
    let e : Bypass := ⟨v, k.issueNo, k.issueNo + lat⟩
    match k.y, k.issue.slot with
    | [a, _, c, d], 1 => { k with y := [e, a, c, d] }
    | [a, b, c, _], _ => { k with y := [a, b, e, c] }
    | _, _ => k

/-- A bypass register, as the history stood before the issue (R232): the result of the operation it names, undefined before that
operation's bound (R236). (DEDUCED, log entry 7) -/
def State.getY (s : State) (i : Nat) : Vec :=
  match s.core.issue.y[i]? with
  | some e => if e.due ≤ s.core.issueNo ∨ e.due = 0 then e.val else Config.free 4096 s.tick .bypass i s.cur
  | none => 0

/-! ### The end of a slot's operation -/

/-- A fault condition met by the executing slot (R358). -/
def State.recFault (s : State) (fi : FaultInfo) (ps : List Post) : State :=
  s.onIssue fun i => { i with faults := i.faults ++ [⟨i.slot, fi⟩], posts := i.posts ++ ps }

/-- Is a post the fetch cycles that pass at a wait for the M slot or a busy tile (R90, R304)? -/
def Post.isCycles : Post → Bool
  | .cycles _ => true
  | _ => false

/-- The executing slot makes the bundle stall. Where two slots do, the fetch holds still (R90). -/
def State.recStall (s : State) (w : Wait) (ps : List Post) : State :=
  s.onIssue fun i => { i with stall := some (i.stall.getD (i.slot, w)),
                              posts := if i.stall.isSome then (i.posts ++ ps).filter (fun p => !p.isCycles) else i.posts ++ ps }

/-- Carry out a slot's computation: its effect, or the record of what ended it. -/
def runSlot (m : M Unit) (s : State) : Host.Outcome State Fault Refusal :=
  match m s with
  | .ok (_, s') => .next s'
  | .error (.fault fi, ps) => .next (s.recFault fi ps)
  | .error (.stall w, ps) => .next (s.recStall w ps)
  | .error (.hole pa, _) => .fault (.noFrame pa)

/-- Carry out an event: one that ends early for another reason than a hole has no effect. -/
def runEvent (m : M Unit) (s : State) : Host.Outcome State Fault Refusal :=
  match m s with
  | .ok (_, s') => .next s'
  | .error (.hole pa, _) => .fault (.noFrame pa)
  | .error _ => .next s

/-- A scalar operation: where it is enabled its effect, where it is not nothing (R226, R227). -/
def scalarOp (c : Ctl) (f : State → State) (s : State) : Host.Outcome State Fault Refusal :=
  .next (if s.enabled c then f s else s)

/-- A slot operation that can fault or stall, where it is enabled (R227). -/
def slotOp (c : Ctl) (m : M Unit) (s : State) : Host.Outcome State Fault Refusal :=
  if s.enabled c then runSlot m s else .next s

end Sys2Proof.Machine
end

