-- ==== Sys2Proof/Machine/Flags.lean ====
section
/-! DEFINITION. Conditions: the integer compares of R257 and the wait conditions of R334. -/

namespace Sys2Proof.Machine

/-- Condition code COND of R257: EQ, NE, LT, LE, LTU, LEU. -/
def compare {w : Nat} (cond : Nat) (a b : BitVec w) : Bool :=
  match cond with
  | 0 => a == b
  | 1 => a != b
  | 2 => a.slt b
  | 3 => a.sle b
  | 4 => a.ult b
  | _ => a.ule b

/-- The condition of WAITA (R334): EQ, NE, GEU, GE, ANY. -/
def waitCond (cond : Nat) (w b : Dword) : Bool :=
  match cond with
  | 0 => w == b
  | 1 => w != b
  | 2 => b.ule w
  | 3 => b.sle w
  | _ => w &&& b != 0

/-- 128 copies of a bit (R257). -/
def copies (b : Bool) : Pred := if b then BitVec.allOnes 128 else 0

end Sys2Proof.Machine
end

