-- ==== Sys2Proof/Machine/Scalar.lean ====
section
/-! DEFINITION. Scalar integer operations, compares and predicates (R253 to R258). -/

namespace Sys2Proof.Machine

/-! ### Shared shapes -/

/-- XD := f(XA, XB) of format SR (R253). -/
def sr2 (c : Ctl) (o : SR) (f : Dword → Dword → Dword) : State → Host.Outcome State Fault Refusal :=
  scalarOp c fun s => s.putX o.xd.toNat (f (s.getX o.xa.toNat) (s.getX o.xb.toNat)) c.lat.toNat

/-- XD := f(XA, immediate) of format SI (R253). -/
def si2 (c : Ctl) (o : SI) (f : Dword → Dword → Dword) : State → Host.Outcome State Fault Refusal :=
  scalarOp c fun s => s.putX o.xd.toNat (f (s.getX o.xa.toNat) (o.imm.signExtend 64)) c.lat.toNat

/-- XD := f(XA) of format SR. -/
def sr1 (c : Ctl) (o : SR) (f : Dword → Dword) : State → Host.Outcome State Fault Refusal :=
  scalarOp c fun s => s.putX o.xd.toNat (f (s.getX o.xa.toNat)) c.lat.toNat

/-- pd := f(pa, pb) of format SP (R257). -/
def sp2 (c : Ctl) (o : SP) (f : Pred → Pred → Pred) : State → Host.Outcome State Fault Refusal :=
  scalarOp c fun s => s.putP o.d.toNat (f (s.getPq o.pa.toNat) (s.getPq o.pb.toNat)) c.lat.toNat

/-- Leading zero bits (R253). -/
def clz64 (v : Dword) : Dword := if v = 0 then 64 else BitVec.ofNat 64 (63 - Nat.log2 v.toNat)

/-- Trailing zero bits, counted from bit `i` while `n` bits remain (R253). -/
def ctzGo (v i : Nat) : Nat → Nat
  | 0 => i
  | n + 1 => if bit v i then i else ctzGo v (i + 1) n

/-- One bits (R253). -/
def popGo (v : Nat) : Nat → Nat
  | 0 => 0
  | n + 1 => (if bit v n then 1 else 0) + popGo v n

/-- The signed quotient (R254). -/
def sdivX (a b : Dword) : Dword :=
  if b = 0 then BitVec.allOnes 64 else BitVec.ofInt 64 (a.toInt.tdiv b.toInt)

/-- The signed remainder (R254). -/
def sremX (a b : Dword) : Dword := if b = 0 then a else BitVec.ofInt 64 (a.toInt.tmod b.toInt)

/-! ### Scalar integer operations -/

/-- `ADD` (R253). -/
def execAdd (c : Ctl) (o : SR) : State → Host.Outcome State Fault Refusal :=
  sr2 c o fun a b => a + b

/-- `SUB` (R253). -/
def execSub (c : Ctl) (o : SR) : State → Host.Outcome State Fault Refusal :=
  sr2 c o fun a b => a - b

/-- `MUL` (R253): the low half. -/
def execMul (c : Ctl) (o : SR) : State → Host.Outcome State Fault Refusal :=
  sr2 c o fun a b => a * b

/-- `MULH` (R253): the high half, signed. -/
def execMulh (c : Ctl) (o : SR) : State → Host.Outcome State Fault Refusal :=
  sr2 c o fun a b => (a.signExtend 128 * b.signExtend 128).extractLsb' 64 64

/-- `MULHU` (R253): the high half, unsigned. -/
def execMulhu (c : Ctl) (o : SR) : State → Host.Outcome State Fault Refusal :=
  sr2 c o fun a b => (a.setWidth 128 * b.setWidth 128).extractLsb' 64 64

/-- `DIV` (R254). -/
def execDiv (c : Ctl) (o : SR) : State → Host.Outcome State Fault Refusal :=
  sr2 c o fun a b => sdivX a b

/-- `DIVU` (R254). -/
def execDivu (c : Ctl) (o : SR) : State → Host.Outcome State Fault Refusal :=
  sr2 c o fun a b => if b = 0 then BitVec.allOnes 64 else a / b

/-- `REM` (R254). -/
def execRem (c : Ctl) (o : SR) : State → Host.Outcome State Fault Refusal :=
  sr2 c o fun a b => sremX a b

/-- `REMU` (R254). -/
def execRemu (c : Ctl) (o : SR) : State → Host.Outcome State Fault Refusal :=
  sr2 c o fun a b => if b = 0 then a else a % b

/-- `AND` (R253). -/
def execAnd (c : Ctl) (o : SR) : State → Host.Outcome State Fault Refusal :=
  sr2 c o fun a b => a &&& b

/-- `OR` (R253). -/
def execOr (c : Ctl) (o : SR) : State → Host.Outcome State Fault Refusal :=
  sr2 c o fun a b => a ||| b

/-- `XOR` (R253). -/
def execXor (c : Ctl) (o : SR) : State → Host.Outcome State Fault Refusal :=
  sr2 c o fun a b => a ^^^ b

/-- `SHL` (R253). -/
def execShl (c : Ctl) (o : SR) : State → Host.Outcome State Fault Refusal :=
  sr2 c o fun a b => a <<< (b.toNat % 64)

/-- `SHR` (R253). -/
def execShr (c : Ctl) (o : SR) : State → Host.Outcome State Fault Refusal :=
  sr2 c o fun a b => a >>> (b.toNat % 64)

/-- `SRA` (R253). -/
def execSra (c : Ctl) (o : SR) : State → Host.Outcome State Fault Refusal :=
  sr2 c o fun a b => a.sshiftRight (b.toNat % 64)

/-- `MIN` (R253), signed. -/
def execMin (c : Ctl) (o : SR) : State → Host.Outcome State Fault Refusal :=
  sr2 c o fun a b => if b.slt a then b else a

/-- `MAX` (R253), signed. -/
def execMax (c : Ctl) (o : SR) : State → Host.Outcome State Fault Refusal :=
  sr2 c o fun a b => if a.slt b then b else a

/-- `MINU` (R253). -/
def execMinu (c : Ctl) (o : SR) : State → Host.Outcome State Fault Refusal :=
  sr2 c o fun a b => if b.ult a then b else a

/-- `MAXU` (R253). -/
def execMaxu (c : Ctl) (o : SR) : State → Host.Outcome State Fault Refusal :=
  sr2 c o fun a b => if a.ult b then b else a

/-- `CLZ` (R253). -/
def execClz (c : Ctl) (o : SR) : State → Host.Outcome State Fault Refusal :=
  sr1 c o clz64

/-- `CTZ` (R253). -/
def execCtz (c : Ctl) (o : SR) : State → Host.Outcome State Fault Refusal :=
  sr1 c o fun a => BitVec.ofNat 64 (ctzGo a.toNat 0 64)

/-- `POPC` (R253). -/
def execPopc (c : Ctl) (o : SR) : State → Host.Outcome State Fault Refusal :=
  sr1 c o fun a => BitVec.ofNat 64 (popGo a.toNat 64)

/-- `SEL` (R253): bit 0 of PA chooses. -/
def execSel (c : Ctl) (o : SSel) : State → Host.Outcome State Fault Refusal :=
  scalarOp c fun s =>
    s.putX o.xd.toNat (if (s.getPq o.pa.toNat).getLsbD 0 then s.getX o.xa.toNat else s.getX o.xb.toNat) c.lat.toNat

/-- `ADDI` (R253). -/
def execAddi (c : Ctl) (o : SI) : State → Host.Outcome State Fault Refusal :=
  si2 c o fun a b => a + b

/-- `ANDI` (R253). -/
def execAndi (c : Ctl) (o : SI) : State → Host.Outcome State Fault Refusal :=
  si2 c o fun a b => a &&& b

/-- `ORI` (R253). -/
def execOri (c : Ctl) (o : SI) : State → Host.Outcome State Fault Refusal :=
  si2 c o fun a b => a ||| b

/-- `XORI` (R253). -/
def execXori (c : Ctl) (o : SI) : State → Host.Outcome State Fault Refusal :=
  si2 c o fun a b => a ^^^ b

/-- `SHLI` (R253). -/
def execShli (c : Ctl) (o : SI) : State → Host.Outcome State Fault Refusal :=
  si2 c o fun a b => a <<< (b.toNat % 64)

/-- `SHRI` (R253). -/
def execShri (c : Ctl) (o : SI) : State → Host.Outcome State Fault Refusal :=
  si2 c o fun a b => a >>> (b.toNat % 64)

/-- `SRAI` (R253). -/
def execSrai (c : Ctl) (o : SI) : State → Host.Outcome State Fault Refusal :=
  si2 c o fun a b => a.sshiftRight (b.toNat % 64)

/-- `BFX` (R253): LEN + 1 bits from POS up. -/
def execBfx (c : Ctl) (o : SB) : State → Host.Outcome State Fault Refusal :=
  scalarOp c fun s =>
    let v := bits (s.getX o.xa.toNat).toNat (o.pos.toNat + o.len.toNat) o.pos.toNat
    s.putX o.xd.toNat (BitVec.ofNat 64 v) c.lat.toNat

/-- `BFI` (R253, R255): XD is a source too. -/
def execBfi (c : Ctl) (o : SB) : State → Host.Outcome State Fault Refusal :=
  scalarOp c fun s =>
    let v := setBits (s.getX o.xd.toNat).toNat (o.pos.toNat + o.len.toNat) o.pos.toNat (s.getX o.xa.toNat).toNat
    s.putX o.xd.toNat (BitVec.ofNat 64 v) c.lat.toNat

/-- `LI` (R253). -/
def execLi (c : Ctl) (o : SL) : State → Host.Outcome State Fault Refusal :=
  scalarOp c fun s => s.putX o.xd.toNat (o.imm.signExtend 64) c.lat.toNat

/-- `LIH` (R253, R255): XD is a source too. -/
def execLih (c : Ctl) (o : SL) : State → Host.Outcome State Fault Refusal :=
  scalarOp c fun s =>
    s.putX o.xd.toNat (BitVec.ofNat 64 (o.imm.toNat % 2 ^ 24 * 2 ^ 40 + (s.getX o.xd.toNat).toNat % 2 ^ 40)) c.lat.toNat

/-- `ADDPC` (R253): the PC of the bundle. -/
def execAddpc (c : Ctl) (o : SL) : State → Host.Outcome State Fault Refusal :=
  scalarOp c fun s =>
    s.putX o.xd.toNat ((s.core.pc + (o.imm.signExtend 52)).setWidth 64) c.lat.toNat

/-! ### Compares and predicates -/

/-- `CMP` (R257). -/
def execCmp (c : Ctl) (o : SP) : State → Host.Outcome State Fault Refusal :=
  scalarOp c fun s =>
    s.putP o.d.toNat (copies (compare o.cond.toNat (s.getX o.xa.toNat) (s.getX o.xb.toNat))) c.lat.toNat

/-- `CMPI` (R257). -/
def execCmpi (c : Ctl) (o : SPI) : State → Host.Outcome State Fault Refusal :=
  scalarOp c fun s =>
    s.putP o.d.toNat (copies (compare o.cond.toNat (s.getX o.xa.toNat) (o.imm.signExtend 64))) c.lat.toNat

/-- `PAND` (R257). -/
def execPand (c : Ctl) (o : SP) : State → Host.Outcome State Fault Refusal :=
  sp2 c o fun a b => a &&& b

/-- `POR` (R257). -/
def execPor (c : Ctl) (o : SP) : State → Host.Outcome State Fault Refusal :=
  sp2 c o fun a b => a ||| b

/-- `PXOR` (R257). -/
def execPxor (c : Ctl) (o : SP) : State → Host.Outcome State Fault Refusal :=
  sp2 c o fun a b => a ^^^ b

/-- `PNOT` (R257). -/
def execPnot (c : Ctl) (o : SP) : State → Host.Outcome State Fault Refusal :=
  sp2 c o fun a _ => ~~~a

/-- `PSET` (R257). -/
def execPset (c : Ctl) (o : SP) : State → Host.Outcome State Fault Refusal :=
  scalarOp c fun s =>
    s.putP o.d.toNat (s.getX o.xb.toNat ++ s.getX o.xa.toNat : BitVec 128) c.lat.toNat

/-- `PGET` (R257). -/
def execPget (c : Ctl) (o : SP) : State → Host.Outcome State Fault Refusal :=
  scalarOp c fun s =>
    s.putX o.d.toNat ((s.getPq o.pa.toNat).extractLsb' (64 * o.h.toNat) 64) c.lat.toNat

end Sys2Proof.Machine
end

