-- ==== Sys2Proof/Machine/Float.lean ====
section
/-! DEFINITION. The IEEE formats and ACC40 (R201, R202, R210): exact values, one rounding, sums, products and conversions. -/

namespace Sys2Proof.Machine

/-- A value: NaN, an infinity, or the exact number (−1)^neg · mag · 2^exp, where zero keeps its sign. -/
inductive Num where
  | nan
  | inf (neg : Bool)
  | fin (neg : Bool) (mag : Nat) (exp : Int)
  deriving DecidableEq, Repr

/-- A binary format: exponent bits and fraction bits; its bias is 2^(eb − 1) − 1. -/
structure FpFmt where
  eb : Nat
  fb : Nat
  deriving DecidableEq, Repr

/-- FP32 (R201). -/
def fp32 : FpFmt := ⟨8, 23⟩
/-- BF16 (R201). -/
def bf16 : FpFmt := ⟨8, 7⟩
/-- FP16 (R201). -/
def fp16 : FpFmt := ⟨5, 10⟩
/-- ACC40 (R210). -/
def acc40 : FpFmt := ⟨8, 31⟩

/-- The bias of a format. -/
def FpFmt.bias (f : FpFmt) : Nat := 2 ^ (f.eb - 1) - 1
/-- The code of +∞. -/
def FpFmt.infCode (f : FpFmt) : Nat := (2 ^ f.eb - 1) * 2 ^ f.fb
/-- The canonical NaN (R202). -/
def FpFmt.nanCode (f : FpFmt) : Nat := f.infCode + 2 ^ (f.fb - 1)
/-- The sign of a code. -/
def FpFmt.signCode (f : FpFmt) (neg : Bool) : Nat := if neg then 2 ^ (f.eb + f.fb) else 0

/-- The value of a code. -/
def FpFmt.value (f : FpFmt) (c : Nat) : Num :=
  let neg := bit c (f.eb + f.fb)
  let e := bits c (f.eb + f.fb - 1) f.fb
  let m := bits c (f.fb - 1) 0
  if e = 2 ^ f.eb - 1 then (if m = 0 then .inf neg else .nan)
  else if e = 0 then .fin neg m (1 - (f.bias : Int) - (f.fb : Int))
  else .fin neg (m + 2 ^ f.fb) ((e : Int) - (f.bias : Int) - (f.fb : Int))

/-- floor(log2 m) of a number that is not zero. -/
def ilog2 (m : Nat) : Nat := Nat.log2 m

/-- m · 2^e / d as a whole number, rounded: `rtz` toward zero, otherwise to nearest with a tie to the number whose parity is
that of `even`. -/
def roundQuot (rtz : Bool) (even : Nat) (m d : Nat) (e : Int) : Nat :=
  let n := if 0 ≤ e then m * 2 ^ e.toNat else m
  let q := if 0 ≤ e then d else d * 2 ^ (-e).toNat
  let k := n / q
  let r := n % q
  if rtz then k
  else if 2 * r < q then k
  else if q < 2 * r then k + 1
  else if k % 2 = even % 2 then k else k + 1

/-- The magnitude mag · 2^exp rounded once into a format (R201); overflow gives an infinity, toward zero the largest finite
magnitude (R291). -/
def FpFmt.roundMag (f : FpFmt) (rtz : Bool) (mag : Nat) (exp : Int) : Nat :=
  if mag = 0 then 0
  else
    let lead := (ilog2 mag : Int) + exp
    let q := max lead (1 - (f.bias : Int)) - (f.fb : Int)
    let n := roundQuot rtz 0 mag 1 (exp - q)
    let code := (q + (f.fb : Int) + (f.bias : Int)).toNat * 2 ^ f.fb + n - 2 ^ f.fb
    if f.infCode ≤ code then (if rtz then f.infCode - 1 else f.infCode) else code

/-- A value rounded once into a format (R201, R202, R291). -/
def FpFmt.round (f : FpFmt) (rtz : Bool) (x : Num) : Nat :=
  match x with
  | .nan => f.nanCode
  | .inf n => f.infCode + f.signCode n
  | .fin n m e => f.roundMag rtz m e + f.signCode n

/-- The signed whole number of a finite value over 2^e0, for e0 at or below its exponent. -/
def signedAt (neg : Bool) (mag : Nat) (exp e0 : Int) : Int :=
  let v : Int := (mag : Int) * (2 : Int) ^ (exp - e0).toNat
  if neg then -v else v

/-- The exact sum (R202): a sum of zero is +0, but (−0) + (−0) is −0. -/
def Num.add : Num → Num → Num
  | .nan, _ => .nan
  | _, .nan => .nan
  | .inf a, .inf b => if a = b then .inf a else .nan
  | .inf a, _ => .inf a
  | _, .inf b => .inf b
  | .fin a m e, .fin b n g =>
    let e0 := min e g
    let v := signedAt a m e e0 + signedAt b n g e0
    .fin (if v = 0 then a && b && decide (m = 0) && decide (n = 0) else decide (v < 0)) v.natAbs e0

/-- The value with its sign inverted. -/
def Num.neg : Num → Num
  | .nan => .nan
  | .inf a => .inf (!a)
  | .fin a m e => .fin (!a) m e

/-- The exact product; ∞ × 0 is a NaN (R202). -/
def Num.mul : Num → Num → Num
  | .nan, _ => .nan
  | _, .nan => .nan
  | .inf a, .inf b => .inf (a != b)
  | .inf a, .fin b n _ => if n = 0 then .nan else .inf (a != b)
  | .fin a m _, .inf b => if m = 0 then .nan else .inf (a != b)
  | .fin a m e, .fin b n g => .fin (a != b) (m * n) (e + g)

/-- Is a value a NaN? -/
def Num.isNan : Num → Bool
  | .nan => true
  | _ => false

/-- a < b for values that are not NaN, with −0 = +0. -/
def Num.lt (a b : Num) : Bool :=
  match a, b with
  | .nan, _ => false
  | _, .nan => false
  | .inf x, .inf y => x && !y
  | .inf x, _ => x
  | _, .inf y => !y
  | .fin x m e, .fin y n g =>
    let e0 := min e g
    decide (signedAt x m e e0 < signedAt y n g e0)

/-- Is a value negative by its sign? -/
def Num.signed : Num → Bool
  | .nan => false
  | .inf a => a
  | .fin a _ _ => a

/-- a < b in the order of R285 and R215: −0 is less than +0. -/
def Num.below (a b : Num) : Bool := a.lt b || (!b.lt a && a.signed && !b.signed)

/-- The whole number nearest a value, ties to even, or toward zero; clamped (R291). A NaN gives 0. -/
def Num.toInt (rtz : Bool) (lo hi : Int) : Num → Int
  | .nan => 0
  | .inf a => if a then lo else hi
  | .fin a m e =>
    let n : Int := roundQuot rtz 0 m 1 e
    max lo (min hi (if a then -n else n))

/-- A whole number as a value. -/
def Num.ofInt (v : Int) : Num := .fin (decide (v < 0)) v.natAbs 0

/-- An FP32 lane as a value. -/
def f32 (x : BitVec 32) : Num := fp32.value x.toNat
/-- A value rounded to an FP32 lane. -/
def toF32 (x : Num) : BitVec 32 := BitVec.ofNat 32 (fp32.round false x)

/-- fadd_rne of R168. -/
def faddRne (a b : BitVec 32) : BitVec 32 := toF32 ((f32 a).add (f32 b))

/-- The larger operand in the order of R285, unchanged; a NaN gives the canonical NaN (R168, R285). -/
def fmaxBits (a b : BitVec 32) : BitVec 32 :=
  if (f32 a).isNan || (f32 b).isNan then 0x7FC00000#32 else if (f32 a).below (f32 b) then b else a

/-- The smaller operand, unchanged; a NaN gives the canonical NaN (R285). -/
def fminBits (a b : BitVec 32) : BitVec 32 :=
  if (f32 a).isNan || (f32 b).isNan then 0x7FC00000#32 else if (f32 b).below (f32 a) then b else a

/-- The conditions of VFCMP (R285). -/
def fcompare (cond : Nat) (a b : BitVec 32) : Bool :=
  let x := f32 a
  let y := f32 b
  let un := x.isNan || y.isNan
  match cond with
  | 0 => !un && !x.lt y && !y.lt x
  | 1 => un || x.lt y || y.lt x
  | 2 => !un && x.lt y
  | 3 => !un && !y.lt x
  | 4 => un
  | _ => !un

/-- The two 16-bit elements of a lane, each computed in a format on its own (R286). -/
def halves (f : FpFmt) (op : Num → Num → Num → Num) (a b c : BitVec 32) : BitVec 32 :=
  let h (i : Nat) : Nat :=
    let x (v : BitVec 32) := f.value (bits v.toNat (16 * i + 15) (16 * i))
    f.round false (op (x a) (x b) (x c))
  BitVec.ofNat 32 (h 0 + 65536 * h 1)

end Sys2Proof.Machine
end

