-- ==== Sys2Proof/Machine/Narrow.lean ====
section
/-! DEFINITION. Format registers and the narrow formats they describe: validity, decoding, scales, quantisation (R203 to
R209); block terms and the ACC40 addition (R211 to R213). -/

namespace Sys2Proof.Machine

/-- The fields of a format register value (R203). -/
structure NFmt where
  w : Nat
  s : Nat
  e : Nat
  bias : Int
  spec : Bool
  blk : Nat
  scf : Nat
  exv : Nat
  deriving DecidableEq, Repr

/-- The fields of a format register. -/
def nfmt (v : Dword) : NFmt :=
  let n := v.toNat
  ⟨bits n 3 0, bits n 4 4, bits n 7 5, sext (bits n 15 8) 8, bit n 16, match bits n 19 18 with | 0 => 0 | 1 => 16 | 2 => 32 | _ => 64,
    bits n 20 20, bits n 47 32⟩

/-- Is a format register value valid (R204)? -/
def fmtValid (v : Dword) : Bool :=
  let n := v.toNat
  let f := nfmt v
  decide (2 ≤ f.w ∧ f.w ≤ 8) && decide (f.s + f.e ≤ f.w) && (!f.spec || decide (f.w = 4 ∧ f.s = 1 ∧ 1 ≤ f.e)) &&
    !bit n 17 && bits n 31 21 == 0 && bits n 63 48 == 0

/-- Container bits of an element (R205). -/
def NFmt.container (f : NFmt) : Nat := if f.w ≤ 2 then 2 else if f.w ≤ 4 then 4 else 8
/-- Fraction bits (R203). -/
def NFmt.m (f : NFmt) : Nat := f.w - f.s - f.e

/-- E4M3 with every code finite (R206, R208). -/
def e4m3 : NFmt := ⟨8, 1, 4, 7, false, 0, 0, 0⟩

/-- The exponent of the lowest bit of a subnormal, or of an integer's units (R206). -/
def NFmt.low (f : NFmt) : Int := if f.e = 0 then -f.bias else 1 - f.bias - (f.m : Int)

/-- decode of R206 and R207. -/
def NFmt.decode (f : NFmt) (c : Nat) : Num :=
  let c := c % 2 ^ f.w
  if f.spec ∧ c = 8 then bf16.value f.exv
  else
    let neg := f.s = 1 ∧ bit c (f.w - 1)
    if f.e = 0 then
      let v := if f.s = 1 then sext c f.w else (c : Int)
      .fin (decide (v < 0)) v.natAbs f.low
    else
      let e := bits c (f.e + f.m - 1) f.m
      let frac := c % 2 ^ f.m
      if e = 0 then .fin neg frac f.low else .fin neg (frac + 2 ^ f.m) (f.low + (e : Int) - 1)

/-- scale(b) of R208; `scf` 0 for E8M0, 1 for E4M3. -/
def scaleOf (scf k : Nat) : Num :=
  if scf = 0 then (if k = 255 then .nan else .fin false 1 ((k : Int) - 127)) else e4m3.decode k

/-- Element code times scale code, exactly (R208). -/
def NFmt.scaled (f : NFmt) (c k : Nat) : Num := if f.blk = 0 then f.decode c else (f.decode c).mul (scaleOf f.scf k)

/-- floor(log2) of the largest finite value (R206). -/
def NFmt.emax (f : NFmt) : Int := if f.e = 0 then (f.w : Int) - (f.s : Int) - 1 - f.bias else 2 ^ f.e - 1 - f.bias

/-- The code of the largest magnitude of an ordinary sign, and how many magnitude codes there are (R206). -/
def NFmt.magCodes (f : NFmt) : Nat := 2 ^ (f.w - f.s)

/-- The magnitude code nearest mag · 2^exp / den, saturating; on a tie the even code (R209). -/
def NFmt.nearMag (f : NFmt) (top mag den : Nat) (exp : Int) : Nat :=
  if mag = 0 then 0
  else if f.e = 0 then min top (roundQuot false 0 mag den (exp - f.low))
  else
    -- the binade of the quotient, as the grid sees it
    let l0 : Int := (ilog2 mag : Int) - (ilog2 den : Int)
    let less := if 0 ≤ l0 then decide (mag < den * 2 ^ l0.toNat) else decide (mag * 2 ^ (-l0).toNat < den)
    let lead := (if less then l0 - 1 else l0) + exp
    let q := max (lead - (f.m : Int)) f.low
    let base := (q - f.low + 1).toNat * 2 ^ f.m
    let n := roundQuot false (base - 2 ^ f.m) mag den (exp - q)
    min top (base + n - 2 ^ f.m)

/-- nearest_even of R209, for the exact quotient (−1)^neg · mag · 2^exp / den; a zero of either sign is not below 0 and gives
the code of +0. -/
def NFmt.nearest (f : NFmt) (neg : Bool) (mag den : Nat) (exp : Int) : Nat :=
  if f.s = 0 then (if neg then 0 else f.nearMag (f.magCodes - 1) mag den exp)
  else if f.e = 0 then
    (if neg then wrap f.w (-(f.nearMag f.magCodes mag den exp : Int)) else f.nearMag (f.magCodes - 1) mag den exp)
  else
    let c := f.nearMag (f.magCodes - 1) mag den exp
    if !neg || mag == 0 || (c == 0 && f.spec) then c else c + f.magCodes

/-- nearest_even of a value: an infinity saturates, a NaN gives 0 (R209). -/
def NFmt.nearestNum (f : NFmt) (x : Num) (X : Int) : Nat :=
  match x with
  | .nan => 0
  | .inf neg =>
    if f.s = 0 then (if neg then 0 else f.magCodes - 1)
    else if f.e = 0 then (if neg then f.magCodes else f.magCodes - 1)
    else if neg then 2 * f.magCodes - 1 else f.magCodes - 1
  | .fin neg m e => f.nearest neg m 1 (e - X)

/-- floor(log2 |x|) of a finite value that is not zero. -/
def Num.lead : Num → Option Int
  | .fin _ m e => if m = 0 then none else some ((ilog2 m : Int) + e)
  | _ => none

/-- The larger of two leading places. -/
def maxLead (a b : Option Int) : Option Int :=
  match a, b with
  | some x, some y => some (max x y)
  | some x, none => some x
  | none, y => y

/-- The exponent X and the scale code that quantise forms from the largest finite magnitude's place (R209, R292). -/
def NFmt.scaleX (f : NFmt) (lead : Option Int) : Int × Nat :=
  let X := match lead with
    | none => 0
    | some l => l - f.emax
  if f.scf = 0 then
    let X := max (-127) (min 127 X)
    (X, (X + 127).toNat)
  else
    let X := max (-9) (min 8 X)
    (X, if -6 ≤ X then (X + 7).toNat * 8 else 2 ^ (X + 9).toNat)

/-- quantise of R209 for one block: the element codes and the scale code. -/
def NFmt.quantise (f : NFmt) (xs : List Num) : List Nat × Nat :=
  if f.blk ≠ 0 ∧ f.scf = 0 ∧ xs.any Num.isNan then (xs.map fun _ => 0, 255)
  else if f.blk = 0 then (xs.map fun x => f.nearestNum x 0, 0)
  else
    let (X, k) := f.scaleX (xs.foldl (fun a x => maxLead a x.lead) none)
    (xs.map fun x => f.nearestNum x X, k)

/-! ### Block terms (R211, R212, R213) -/

/-- The block term of the products of one K-block (R211, R212). -/
def blockTerm (ps : List Num) : Num :=
  if ps.any Num.isNan then .nan
  else
    let pos := ps.any (· == .inf false)
    let neg := ps.any (· == .inf true)
    if pos && neg then .nan
    else if pos then .inf false
    else if neg then .inf true
    else match ps.foldl (fun a p => maxLead a p.lead) none with
      | none => .fin false 0 0
      | some t =>
        let L := t - 51
        let sum : Int := ps.foldl (init := 0) fun a p =>
          match p with
          | .fin n m e =>
            let v : Int := roundQuot true 0 m 1 (e - L)
            a + (if n then -v else v)
          | _ => a
        .fin (decide (sum < 0)) sum.natAbs L

/-- acc40_add of R213: one exact sum, rounded once onto the ACC40 grid. -/
def accAdd (a : Acc40) (t : Num) : Acc40 := BitVec.ofNat 40 (acc40.round false ((acc40.value a.toNat).add t))

/-- An ACC40 entry as a value. -/
def accNum (a : Acc40) : Num := acc40.value a.toNat
/-- A value rounded once onto the ACC40 grid. -/
def toAcc (x : Num) : Acc40 := BitVec.ofNat 40 (acc40.round false x)

end Sys2Proof.Machine
end

