-- ==== Sys2Proof/Machine/Crypto.lean ====
section
/-! DEFINITION. SHA-256 (R30, R393 to R396), HKDF (R31), AES-256-XTS (R27, R64) and AES-256-GCM (R182), on lists of bytes. -/

namespace Sys2Proof.Machine

/-! ### SHA-256 -/

/-- A 32-bit word of four bytes, the highest first. -/
def word32 (b : Nat → Byte) : BitVec 32 := b 0 ++ b 1 ++ b 2 ++ b 3

/-- The round constants of SHA-256. -/
def shaK0 : List (BitVec 32) :=
  [
    0x428A2F98, 0x71374491, 0xB5C0FBCF, 0xE9B5DBA5, 0x3956C25B, 0x59F111F1, 0x923F82A4, 0xAB1C5ED5,
    0xD807AA98, 0x12835B01, 0x243185BE, 0x550C7DC3, 0x72BE5D74, 0x80DEB1FE, 0x9BDC06A7, 0xC19BF174,
    0xE49B69C1, 0xEFBE4786, 0x0FC19DC6, 0x240CA1CC, 0x2DE92C6F, 0x4A7484AA, 0x5CB0A9DC, 0x76F988DA,
    0x983E5152, 0xA831C66D, 0xB00327C8, 0xBF597FC7, 0xC6E00BF3, 0xD5A79147, 0x06CA6351, 0x14292967]
/-- See `shaK0`. -/
def shaK1 : List (BitVec 32) :=
  [
    0x27B70A85, 0x2E1B2138, 0x4D2C6DFC, 0x53380D13, 0x650A7354, 0x766A0ABB, 0x81C2C92E, 0x92722C85,
    0xA2BFE8A1, 0xA81A664B, 0xC24B8B70, 0xC76C51A3, 0xD192E819, 0xD6990624, 0xF40E3585, 0x106AA070,
    0x19A4C116, 0x1E376C08, 0x2748774C, 0x34B0BCB5, 0x391C0CB3, 0x4ED8AA4A, 0x5B9CCA4F, 0x682E6FF3,
    0x748F82EE, 0x78A5636F, 0x84C87814, 0x8CC70208, 0x90BEFFFA, 0xA4506CEB, 0xBEF9A3F7, 0xC67178F2]

/-- The initial hash of SHA-256. -/
def shaInit : List (BitVec 32) :=
  [0x6A09E667, 0xBB67AE85, 0x3C6EF372, 0xA54FF53A, 0x510E527F, 0x9B05688C, 0x1F83D9AB, 0x5BE0CD19]

/-- The message schedule: the last 16 words, the newest first, extended by one. -/
def shaNext (w : List (BitVec 32)) : BitVec 32 :=
  match w with
  | [_, w1, _, _, _, _, w6, _, _, _, _, _, _, _, w14, w15] =>
    let s0 := w14.rotateRight 7 ^^^ w14.rotateRight 18 ^^^ (w14 >>> 3)
    let s1 := w1.rotateRight 17 ^^^ w1.rotateRight 19 ^^^ (w1 >>> 10)
    w15 + s0 + w6 + s1
  | _ => 0

/-- One round on the eight working words. -/
def shaRound (v : List (BitVec 32)) (k w : BitVec 32) : List (BitVec 32) :=
  match v with
  | [a, b, c, d, e, f, g, h] =>
    let t1 := h + (e.rotateRight 6 ^^^ e.rotateRight 11 ^^^ e.rotateRight 25) + ((e &&& f) ^^^ (~~~e &&& g)) + k + w
    let t2 := (a.rotateRight 2 ^^^ a.rotateRight 13 ^^^ a.rotateRight 22) + ((a &&& b) ^^^ (a &&& c) ^^^ (b &&& c))
    [t1 + t2, a, b, c, d + t1, e, f, g]
  | _ => v

/-- The rounds after the sixteenth, each with a new word of the schedule. -/
def shaRounds : List (BitVec 32) → List (BitVec 32) → List (BitVec 32) → List (BitVec 32)
  | [], _, v => v
  | k :: ks, w, v =>
    let n := shaNext w
    shaRounds ks (n :: w.take 15) (shaRound v k n)

/-- One block of 64 bytes. -/
def shaBlock (h : List (BitVec 32)) (blk : List Byte) : List (BitVec 32) :=
  let ws := (List.range 16).map fun i => word32 fun j => (blk[4 * i + j]?).getD 0
  let ks := shaK0 ++ shaK1
  let v := (ks.zip ws).foldl (fun v p => shaRound v p.1 p.2) h
  let v := shaRounds (ks.drop 16) ws.reverse v
  h.zipWith (· + ·) v

/-- The blocks of a padded message. -/
def shaBlocks : Nat → List Byte → List (BitVec 32) → List (BitVec 32)
  | 0, _, h => h
  | n + 1, m, h => shaBlocks n (m.drop 64) (shaBlock h (m.take 64))

/-- SHA-256 of a message, as its 32 bytes in order, the first the lowest. -/
def sha256 (m : List Byte) : BitVec 256 :=
  let n := m.length
  let pad := (119 - n % 64) % 64
  let p := m ++ [0x80] ++ List.replicate pad 0 ++ (toBytes 8 (8 * n)).reverse
  let h := shaBlocks (p.length / 64) p shaInit
  BitVec.ofNat 256 (ofBytes (h.flatMap fun w => (toBytes 4 w.toNat).reverse))

/-! ### AES-256 -/

/-- The substitution box of AES. -/
def aesS : List Byte :=
  [
    0x63, 0x7C, 0x77, 0x7B, 0xF2, 0x6B, 0x6F, 0xC5, 0x30, 0x01, 0x67, 0x2B, 0xFE, 0xD7, 0xAB, 0x76,
    0xCA, 0x82, 0xC9, 0x7D, 0xFA, 0x59, 0x47, 0xF0, 0xAD, 0xD4, 0xA2, 0xAF, 0x9C, 0xA4, 0x72, 0xC0,
    0xB7, 0xFD, 0x93, 0x26, 0x36, 0x3F, 0xF7, 0xCC, 0x34, 0xA5, 0xE5, 0xF1, 0x71, 0xD8, 0x31, 0x15,
    0x04, 0xC7, 0x23, 0xC3, 0x18, 0x96, 0x05, 0x9A, 0x07, 0x12, 0x80, 0xE2, 0xEB, 0x27, 0xB2, 0x75] ++ [
    0x09, 0x83, 0x2C, 0x1A, 0x1B, 0x6E, 0x5A, 0xA0, 0x52, 0x3B, 0xD6, 0xB3, 0x29, 0xE3, 0x2F, 0x84,
    0x53, 0xD1, 0x00, 0xED, 0x20, 0xFC, 0xB1, 0x5B, 0x6A, 0xCB, 0xBE, 0x39, 0x4A, 0x4C, 0x58, 0xCF,
    0xD0, 0xEF, 0xAA, 0xFB, 0x43, 0x4D, 0x33, 0x85, 0x45, 0xF9, 0x02, 0x7F, 0x50, 0x3C, 0x9F, 0xA8,
    0x51, 0xA3, 0x40, 0x8F, 0x92, 0x9D, 0x38, 0xF5, 0xBC, 0xB6, 0xDA, 0x21, 0x10, 0xFF, 0xF3, 0xD2] ++ [
    0xCD, 0x0C, 0x13, 0xEC, 0x5F, 0x97, 0x44, 0x17, 0xC4, 0xA7, 0x7E, 0x3D, 0x64, 0x5D, 0x19, 0x73,
    0x60, 0x81, 0x4F, 0xDC, 0x22, 0x2A, 0x90, 0x88, 0x46, 0xEE, 0xB8, 0x14, 0xDE, 0x5E, 0x0B, 0xDB,
    0xE0, 0x32, 0x3A, 0x0A, 0x49, 0x06, 0x24, 0x5C, 0xC2, 0xD3, 0xAC, 0x62, 0x91, 0x95, 0xE4, 0x79,
    0xE7, 0xC8, 0x37, 0x6D, 0x8D, 0xD5, 0x4E, 0xA9, 0x6C, 0x56, 0xF4, 0xEA, 0x65, 0x7A, 0xAE, 0x08] ++ [
    0xBA, 0x78, 0x25, 0x2E, 0x1C, 0xA6, 0xB4, 0xC6, 0xE8, 0xDD, 0x74, 0x1F, 0x4B, 0xBD, 0x8B, 0x8A,
    0x70, 0x3E, 0xB5, 0x66, 0x48, 0x03, 0xF6, 0x0E, 0x61, 0x35, 0x57, 0xB9, 0x86, 0xC1, 0x1D, 0x9E,
    0xE1, 0xF8, 0x98, 0x11, 0x69, 0xD9, 0x8E, 0x94, 0x9B, 0x1E, 0x87, 0xE9, 0xCE, 0x55, 0x28, 0xDF,
    0x8C, 0xA1, 0x89, 0x0D, 0xBF, 0xE6, 0x42, 0x68, 0x41, 0x99, 0x2D, 0x0F, 0xB0, 0x54, 0xBB, 0x16]

/-- One byte through the box. -/
def aesSub (b : Byte) : Byte := (aesS[b.toNat]?).getD 0

/-- Multiplication by x in the field of AES. -/
def aesX (b : Byte) : Byte := (b <<< 1) ^^^ (if b.getLsbD 7 then 0x1B else 0)

/-- The key schedule of AES-256: the words so far, the newest first, and `n` more; `i` is the number of the next. -/
def aesExpand : Nat → Nat → Byte → List (List Byte) → List (List Byte)
  | 0, _, _, ws => ws.reverse
  | n + 1, i, rcon, ws =>
    let t := (ws[0]?).getD []
    let t :=
      if i % 8 = 0 then
        match t with
        | [a, b, c, d] => [aesSub b ^^^ rcon, aesSub c, aesSub d, aesSub a]
        | _ => t
      else if i % 8 = 4 then t.map aesSub else t
    let w := ((ws[7]?).getD []).zipWith (· ^^^ ·) t
    aesExpand n (i + 1) (if i % 8 = 0 then aesX rcon else rcon) (w :: ws)

/-- The fifteen round keys of 16 bytes of a 32-byte key. -/
def aesKeys (key : List Byte) : List (List Byte) :=
  let ws := (List.range 8).map fun i => (key.drop (4 * i)).take 4
  let all := aesExpand 52 8 0x01 ws.reverse
  (List.range 15).map fun r => ((all.drop (4 * r)).take 4).flatten

/-- The rows of a state shifted. -/
def aesShift (s : List Byte) : List Byte :=
  (List.range 16).map fun i => (s[(i + 4 * (i % 4)) % 16]?).getD 0

/-- One column mixed. -/
def aesMix (c : List Byte) : List Byte :=
  match c with
  | [a, b, d, e] =>
    [aesX a ^^^ aesX b ^^^ b ^^^ d ^^^ e, a ^^^ aesX b ^^^ aesX d ^^^ d ^^^ e, a ^^^ b ^^^ aesX d ^^^ aesX e ^^^ e,
     aesX a ^^^ a ^^^ b ^^^ d ^^^ aesX e]
  | _ => c

/-- The four columns mixed. -/
def aesMixAll (s : List Byte) : List Byte := (List.range 4).flatMap fun i => aesMix ((s.drop (4 * i)).take 4)

/-- The rounds from the second round key on; the last mixes no columns. -/
def aesRounds : List (List Byte) → List Byte → List Byte
  | [], s => s
  | [k], s => (aesShift (s.map aesSub)).zipWith (· ^^^ ·) k
  | k :: ks, s => aesRounds ks ((aesMixAll (aesShift (s.map aesSub))).zipWith (· ^^^ ·) k)

/-- AES-256 of one block under its round keys. -/
def aesBlock (ks : List (List Byte)) (b : List Byte) : List Byte :=
  match ks with
  | k :: rest => aesRounds rest (b.zipWith (· ^^^ ·) k)
  | [] => b

/-- One byte through the inverse box. -/
def aesInvSub (b : Byte) : Byte := BitVec.ofNat 8 ((aesS.findIdx? (· == b)).getD 0)

/-- The rows of a state shifted back. -/
def aesInvShift (s : List Byte) : List Byte :=
  (List.range 16).map fun i => (s[(i + 12 * (i % 4)) % 16]?).getD 0

/-- One column unmixed: mixing is of order four. -/
def aesInvMix (c : List Byte) : List Byte := aesMix (aesMix (aesMix c))

/-- The four columns unmixed. -/
def aesInvMixAll (s : List Byte) : List Byte := (List.range 4).flatMap fun i => aesInvMix ((s.drop (4 * i)).take 4)

/-- The inverse rounds, under the round keys from the last but one to the first. -/
def aesInvRounds : List (List Byte) → List Byte → List Byte
  | [], s => s
  | [k], s => ((aesInvShift s).map aesInvSub).zipWith (· ^^^ ·) k
  | k :: ks, s => aesInvRounds ks (aesInvMixAll (((aesInvShift s).map aesInvSub).zipWith (· ^^^ ·) k))

/-- The inverse of `aesBlock`. -/
def aesInvBlock (ks : List (List Byte)) (b : List Byte) : List Byte :=
  match ks.reverse with
  | k :: rest => aesInvRounds rest (b.zipWith (· ^^^ ·) k)
  | [] => b

/-! ### XTS (R27, R64) -/

/-- The tweak of the next block of a data unit. -/
def xtsNext (t : BitVec 128) : BitVec 128 := (t <<< 1) ^^^ (if t.getLsbD 127 then 0x87 else 0)

/-- The tweaks of `n` blocks from a first one. -/
def xtsTweaks : Nat → BitVec 128 → List (BitVec 128)
  | 0, _ => []
  | n + 1, t => t :: xtsTweaks n (xtsNext t)

/-- A 64-byte line under AES-256-XTS, encrypted or decrypted: the key pair, the tweak, the four blocks 0 to 3 (R27). -/
def xtsLine (decrypt : Bool) (key : BitVec 512) (tweak : Nat) (line : BitVec 512) : BitVec 512 :=
  let k1 := aesKeys (toBytes 32 (key.extractLsb' 0 256).toNat)
  let k2 := aesKeys (toBytes 32 (key.extractLsb' 256 256).toNat)
  let t0 := BitVec.ofNat 128 (ofBytes (aesBlock k2 (toBytes 16 tweak)))
  let out := (xtsTweaks 4 t0).mapIdx fun j t =>
    let b := toBytes 16 (line.extractLsb' (128 * j) 128 ^^^ t).toNat
    BitVec.ofNat 128 (ofBytes (if decrypt then aesInvBlock k1 b else aesBlock k1 b)) ^^^ t
  BitVec.ofNat 512 (out.foldr (fun v a => v.toNat + 2 ^ 128 * a) 0)

/-- Bytes of whole lines under AES-256-XTS, the line `i` with tweak `tweak + i`. -/
def xtsBytes (decrypt : Bool) (key : BitVec 512) (tweak : Nat) (bs : List Byte) : List Byte :=
  (List.range (bs.length / 64)).flatMap fun i =>
    toBytes 64 (xtsLine decrypt key (tweak + i) (BitVec.ofNat 512 (ofBytes ((bs.drop (64 * i)).take 64)))).toNat

/-! ### HKDF (R31) -/

/-- The bytes of a SHA-256 value. -/
def shaBytes (m : List Byte) : List Byte := toBytes 32 (sha256 m).toNat

/-- HMAC-SHA-256 under a key of at most 64 bytes. -/
def hmac (key msg : List Byte) : List Byte :=
  let k := (key ++ List.replicate 64 0).take 64
  shaBytes (k.map (· ^^^ 0x5C) ++ shaBytes (k.map (· ^^^ 0x36) ++ msg))

/-- 64 bytes of HKDF-SHA-256 with an empty salt. -/
def hkdf64 (ikm info : List Byte) : List Byte :=
  let prk := hmac (List.replicate 32 0) ikm
  let t1 := hmac prk (info ++ [1])
  t1 ++ hmac prk (t1 ++ info ++ [2])

/-! ### RSASSA-PSS (R394) -/

/-- A string of octets as a number, the first octet the highest. -/
def octetsNat (bs : List Byte) : Nat := bs.foldl (fun a b => a * 256 + b.toNat) 0

/-- `b ^ e` modulo `n`, by the low `fuel` bits of `e`. -/
def powMod (n : Nat) : Nat → Nat → Nat → Nat
  | 0, _, _ => 1 % n
  | fuel + 1, b, e =>
    let r := powMod n fuel (b * b % n) (e / 2)
    if e % 2 = 1 then b * r % n else r

/-- MGF1 with SHA-256: `n` octets of mask. -/
def mgf1 (seed : List Byte) (n : Nat) : List Byte :=
  ((List.range ((n + 31) / 32)).flatMap fun i => shaBytes (seed ++ (toBytes 4 i).reverse)).take n

/-- EMSA-PSS of a message in 384 octets, of which the highest bit is clear, with a salt of 32 octets. -/
def pssEncode (message salt : List Byte) : List Byte :=
  let h := shaBytes (List.replicate 8 0 ++ shaBytes message ++ salt)
  let db := List.replicate 318 0 ++ [1] ++ salt
  let masked := (db.zipWith (· ^^^ ·) (mgf1 h 351)).mapIdx fun i b => if i = 0 then b &&& 0x7F else b
  masked ++ h ++ [0xBC]

/-- RSASSA-PSS of a message under an RSA-3072 key: the octets of the signature, the first in the low bits. -/
def rsaPss (modulus exponent : BitVec 3072) (message : List Byte) (salt : BitVec 256) : BitVec 3072 :=
  let v := powMod modulus.toNat 3072 (octetsNat (pssEncode message (toBytes 32 salt.toNat))) exponent.toNat
  BitVec.ofNat 3072 (ofBytes (toBytes 384 v).reverse)

/-! ### GCM -/

/-- Sixteen bytes as an element of the field of GCM, its first bit the highest. -/
def gcmOf (b : List Byte) : BitVec 128 := BitVec.ofNat 128 (b.foldl (fun a x => a * 256 + x.toNat) 0)

/-- The sixteen bytes of an element. -/
def gcmBytes (v : BitVec 128) : List Byte := (toBytes 16 v.toNat).reverse

/-- Multiplication in the field of GCM: the remaining bits of `x` from bit `n - 1` down. -/
def gcmMulGo (x : BitVec 128) : Nat → BitVec 128 → BitVec 128 → BitVec 128
  | 0, _, z => z
  | n + 1, v, z =>
    gcmMulGo x n ((v >>> 1) ^^^ (if v.getLsbD 0 then 0xE1000000000000000000000000000000 else 0))
      (if x.getLsbD n then z ^^^ v else z)

/-- Multiplication in the field of GCM. -/
def gcmMul (x y : BitVec 128) : BitVec 128 := gcmMulGo x 128 y 0

/-- The hash of whole blocks; the last is padded with zeros. -/
def ghash (h : BitVec 128) : Nat → List Byte → BitVec 128 → BitVec 128
  | 0, _, y => y
  | n + 1, m, y => ghash h n (m.drop 16) (gcmMul (y ^^^ gcmOf ((m.take 16 ++ List.replicate 16 0).take 16)) h)

/-- Counter mode from counter `c` on. -/
def gcmCtr (ks : List (List Byte)) (nonce : List Byte) : Nat → Nat → List Byte → List Byte
  | 0, _, _ => []
  | n + 1, c, m =>
    let pad := aesBlock ks (nonce ++ (toBytes 4 c).reverse)
    (m.take 16).zipWith (· ^^^ ·) pad ++ gcmCtr ks nonce n (c + 1) (m.drop 16)

/-- Encrypt or decrypt under AES-256-GCM: the text as counter mode gives it. -/
def gcmCrypt (key nonce text : List Byte) : List Byte :=
  gcmCtr (aesKeys key) nonce ((text.length + 15) / 16) 2 text

/-- The tag of a ciphertext with its additional data. -/
def gcmTag (key nonce aad text : List Byte) : List Byte :=
  let ks := aesKeys key
  let h := gcmOf (aesBlock ks (List.replicate 16 0))
  let y := ghash h ((aad.length + 15) / 16) aad 0
  let y := ghash h ((text.length + 15) / 16) text y
  let y := gcmMul (y ^^^ BitVec.ofNat 128 (aad.length * 8 * 2 ^ 64 + text.length * 8)) h
  (gcmBytes y).zipWith (· ^^^ ·) (aesBlock ks (nonce ++ [0, 0, 0, 1]))

end Sys2Proof.Machine
end

