-- ==== Sys2Proof/Machine/Csr.lean ====
section
/-! DEFINITION. The CSR map (R266): numbers, reset values, levels, readable values, what a write keeps of a value; grants
of partitions (R280, R379, R380); the MCB in memory (R146, R147). -/

namespace Sys2Proof.Machine

/-! ### Package CSRs -/

/-- What a package CSR holds at reset (the Reset column of its table; 0 where the table gives 0). -/
def csrReset (n : Nat) : Dword :=
  if n = 0x060 then 0xB798 else if n = 0x061 then 0x100000 else if n = 0x062 then 0x10000
  else if 0x150 ≤ n ∧ n < 0x161 then 0xFFFFFFFFFFFFFFFF else if 0x170 ≤ n ∧ n < 0x181 then 0x0101010101010101
  else if 0x190 ≤ n ∧ n < 0x1A1 then 64 else if 0x200 ≤ n ∧ n < 0x300 then 0x1F else 0

/-- A package CSR. -/
def State.csr (s : State) (n : Nat) : Dword := (s.csrs.find? n).getD (csrReset n)
/-- A package CSR replaced. -/
def State.setCsr (s : State) (n : Nat) (v : Dword) : State := { s with csrs := s.csrs.insert n v }
/-- A package CSR as a number. -/
def State.csrN (s : State) (n : Nat) : Nat := (s.csr n).toNat

/-- Bits [hi:lo] of a package CSR. -/
def State.csrF (s : State) (n hi lo : Nat) : Nat := bits (s.csrN n) hi lo

/-- PHASE of a partition (R381). -/
def State.phase (s : State) (p : Nat) : Nat := s.csrF (0xCA0 + p) 2 0

/-- Is the package's fabric ID valid (R414)? -/
def State.fabV (s : State) : Bool := (s.csrN 0x063).testBit 8
/-- The package's fabric ID (R414). -/
def State.fabId (s : State) : Nat := s.csrF 0x063 7 0
/-- Does the link to a peer carry program traffic (R140, R414)? -/
def State.peerUp (s : State) (fab : Nat) : Bool := s.fabV && !s.linksDown.contains (.peer fab)

/-- Count for a group of a job (R392). -/
def State.count (s : State) (m g idx n : Nat) : State :=
  let key := 64 * m + 16 * g + idx
  if n = 0 then s else { s with use := s.use.insert key (FMap.get 0 s.use key + n) }

/-! ### Ownership (R15, R280, R379, R380) -/

/-- Does a partition hold number `i` of a resource kind? -/
def State.holds (s : State) (part kind i : Nat) : Bool :=
  s.grants.any fun g => g.part = part ∧ g.kind = kind ∧ g.base ≤ i ∧ i < g.base + g.count

/-- The partition that owns an ASID and its key slot: by CREATE or KIND 3; the root where no partition does (R15). -/
def State.asidPart (s : State) (a : Nat) : Nat :=
  ((List.range 16).find? fun p =>
    (s.csr (0x070 + p)).getLsbD 63 && s.csrF (0x070 + p) 9 0 == a || s.holds p 3 a).getD 16

/-- Does partition 0 to 15 exist (R280)? -/
def State.partExists (s : State) (p : Nat) : Bool := (s.csr (0x070 + p)).getLsbD 63

/-- The tier of a physical address (R12). -/
def tierOf (pa : Nat) : Nat := bits pa 47 46

/-- The home die of a physical address (R101, R105): by tier PA[38:37], PA[30:29], PA[38:37], and CD1 for pooled memory. -/
def homeDie (pa : Nat) : Nat :=
  match tierOf pa with
  | 0 => bits pa 38 37
  | 1 => bits pa 30 29
  | 2 => bits pa 38 37
  | _ => 1

/-- Does the link between two dies carry traffic (R101, R163)? -/
def State.dieLink (s : State) (a b : Nat) : Bool := a == b || !s.linksDown.contains (.die (min a b) (max a b))

/-- Is the home of a physical address within reach of a die: an access travels over the link between the two (R101).
(DEDUCED, log entry 67) -/
def State.reaches (s : State) (die pa : Nat) : Bool := s.linksDown = [] || s.dieLink die (homeDie pa)

/-- The calendared unit of a tier that holds a physical address, as its class (R196) and its number in it (R105): an HBM4E pseudo-channel, the
stacked SRAM of a die, an LPDDR-6 channel, the CXL port. -/
def memUnit (pa : Nat) : Nat × Nat :=
  match tierOf pa with
  | 0 => (0, bits pa 38 30)
  | 1 => (1, homeDie pa)
  | 2 => (2, 16 * homeDie pa + bits pa 15 12)
  | _ => (2, 64)

/-- Is a physical address inside the installed capacity of its tier (R12, R418)? -/
def State.frameOk (s : State) (pa : Nat) : Bool :=
  let o := bits pa 45 0
  decide (pa < 2 ^ 48) && match tierOf pa with
  | 0 => decide (o < 2 ^ 39)
  | 1 => decide (o < 2 ^ 31)
  | 2 => decide (o < 2 ^ 39)
  | _ => decide (o < 65536 * s.csrF 0x064 30 0)

/-- Is the 64 KiB frame of a physical address granted to a partition (R380)? For the root every PA is. -/
def State.granted (s : State) (part pa : Nat) : Bool :=
  part == 16 || (s.holds part 6 pa && (tierOf pa != 0 || s.holds part 1 (memUnit pa).2))

/-- Is a frame valid for a walk of a partition (R12, R380)? -/
def State.frameValid (s : State) (part pa : Nat) : Bool := s.frameOk pa && s.granted part pa

/-- Is every 64 KiB frame of a range valid for a partition? -/
def State.rangeValid (s : State) (part pa n : Nat) : Bool :=
  (List.range ((n + 65535) / 65536 + 1)).all fun i =>
    let a := pa / 65536 * 65536 + 65536 * i
    decide (pa + n ≤ a) || s.frameValid part a

/-! ### Physical memory (R12, R27, R416) -/

/-- The tag a line must bear to be read under a key: a segment's lines are numbered within the segment (R27).
(DESIGN CHOICE, log entry 20) -/
def tagAt (t : LineTag) (pa : Nat) : LineTag :=
  match t with
  | .seg h _ => .seg h (pa % 2 ^ 21 / 64)
  | t => t

/-- The tag of the line of a physical address. -/
def State.lineTagOf (s : State) (pa : Nat) : LineTag := FMap.get .plain s.lineTag (pa / 64)

/-- The key of a grist segment (R31). -/
def segKey (hash : BitVec 256) : BitVec 512 :=
  BitVec.ofNat 512 (ofBytes (hkdf64 (toBytes 32 Config.gristSecret.toNat) ([0x51, 0x47, 0x52, 0x49, 0x53, 0x54] ++ toBytes 32 hash.toNat)))

/-- The key pair and the tweak under which the line of an address is stored; none where it is stored as plaintext (R27). -/
def LineTag.cipher (t : LineTag) (pa : Nat) : Option (BitVec 512 × Nat) :=
  match t with
  | .plain => none
  | .priv key => some (key, bits pa 47 6)
  | .seg h line => some (segKey h, line)

/-- A line encrypted or decrypted at its tier controller (R27). -/
def LineTag.crypt (decrypt : Bool) (t : LineTag) (pa : Nat) (v : BitVec 512) : BitVec 512 :=
  match t.cipher pa with
  | none => v
  | some (key, tweak) => xtsLine decrypt key tweak v

/-- The line of an address as it is read under a key that did not write it: the stored bytes, decrypted with that key (R27).
(DEDUCED, log entry 10) -/
def State.lineUnder (s : State) (t : LineTag) (pa : Nat) : BitVec 512 :=
  (tagAt t pa).crypt true pa ((s.lineTagOf pa).crypt false pa (BitVec.ofNat 512 (s.mem.readLE (pa / 64 * 64) 64)))

/-- One byte of a tier read under a key (R27). `mem` holds each line's bytes before its encryption, and the line's tag the key. -/
def State.rdByte (s : State) (t : LineTag) (pa : Nat) : Byte :=
  if s.lineTagOf pa = tagAt t pa then s.mem.read pa else (s.lineUnder t pa).extractLsb' (8 * (pa % 64)) 8

/-- `n` bytes of a tier, as a number (R2). -/
def State.rdLE (s : State) (t : LineTag) (pa : Nat) : Nat → Nat
  | 0 => 0
  | n + 1 => (s.rdByte t pa).toNat + 256 * s.rdLE t (pa + 1) n

/-- `n` bytes of a tier. -/
def State.rdBytes (s : State) (t : LineTag) (pa : Nat) : Nat → List Byte
  | 0 => []
  | n + 1 => s.rdByte t pa :: s.rdBytes t (pa + 1) n

/-- The line of an address comes under a key: what another key wrote is held as this key reads it (R27). (DEDUCED, log entry 10) -/
def State.retag (s : State) (t : LineTag) (pa : Nat) : State :=
  if s.lineTagOf pa = tagAt t pa then s
  else { s with lineTag := s.lineTag.set .plain (pa / 64) (tagAt t pa),
                mem := s.mem.writeLE (pa / 64 * 64) (s.lineUnder t pa).toNat 64 }

/-- Write one byte of a tier under a key. -/
def State.wrByte (s : State) (t : LineTag) (pa : Nat) (b : Byte) : State :=
  let s := s.retag t pa
  { s with mem := s.mem.write pa b }

/-- Write bytes of a tier under a key. -/
def State.wrBytesRaw (s : State) (t : LineTag) (pa : Nat) : List Byte → State
  | [] => s
  | b :: bs => (s.wrByte t pa b).wrBytesRaw t (pa + 1) bs

/-- The lines that a run of bytes covers whole. -/
def wholeLines (pa n : Nat) : List Nat :=
  let l0 := (pa + 63) / 64
  (List.range ((pa + n) / 64 - l0)).map (l0 + ·)

/-- The lines that a run of bytes covers whole come under a key: nothing that they held is left. -/
def State.claimLines (s : State) (t : LineTag) (pa n : Nat) : State :=
  (wholeLines pa n).foldl (init := s) fun s l =>
    if s.lineTagOf (64 * l) = tagAt t (64 * l) then s else { s with lineTag := s.lineTag.set .plain l (tagAt t (64 * l)) }

/-- Write bytes of a tier under a key; a write of a whole line clears its poison (R416). (DESIGN CHOICE, log entry 20) -/
def State.putBytes (s : State) (t : LineTag) (pa : Nat) (bs : List Byte) : State :=
  let s := (s.claimLines t pa bs.length).wrBytesRaw t pa bs
  if s.poison = [] then s
  else { s with poison := (wholeLines pa bs.length).foldl (fun m l => m.erase l) s.poison }

/-- The lines of a run leave every L1. -/
def State.dropLines (s : State) (pa n : Nat) : State :=
  let hit (l : Nat) : Bool := decide (pa / 64 ≤ l) && decide (64 * l < pa + n)
  if s.cores.any fun e => e.2.l1.any fun l => hit l.1 then
    { s with cores := s.cores.map fun e => (e.1, { e.2 with l1 := e.2.l1.filter fun l => !hit l.1 }) }
  else s

/-- A run that the device has written as a structure of its own: every later read finds it (R118). (DESIGN CHOICE, log entry 32) -/
def State.settled (s : State) (pa n : Nat) : State :=
  let out (c : Host.Cell) : Bool := !(decide (pa ≤ c.1) && decide (c.1 < pa + n))
  State.dropLines { s with hist := (s.hist.map fun w => { w with cells := w.cells.filter out }).filter fun w => w.cells ≠ [],
                           cxl := (s.cxl.map fun w => { w with cells := w.cells.filter out }).filter fun w => w.cells ≠ [] } pa n

/-- The watchpoints that a write of `n` bytes at an address touches (R378). -/
def State.watchHits (s : State) (pa n : Nat) : List Nat :=
  (List.range 8).filter fun w =>
    let c := s.csrN (0xC98 + w)
    let a := s.csrF (0xC90 + w) 47 0
    bit c 0 && decide (a < pa + n) && decide (pa < a + 8 * (bits c 8 1 + 1))

/-- A write of the device to a structure of its own that a watchpoint names is noted: it is reported at the end of the step (R378). -/
def State.touch (s : State) (pa n : Nat) : State := if s.watchHits pa n = [] then s else { s with touched := s.touched ++ [(pa, n)] }

/-- Does a core sleep at a `WAITA` whose word lies in one of the lines of a write (R115)? -/
def Core.watches (k : Core) (line : Nat → Bool) : Bool :=
  match k.wait with
  | some (.waita z) => !z.pad && line (z.place / 64)
  | _ => false

/-- A write to the line of a sleeping `WAITA` has taken place: where the condition holds now the task wakes, with the value as it stands (R115). -/
def Core.wake (s : State) (k : Core) : Core :=
  match k.wait with
  | some (.waita z) =>
    let v := BitVec.ofNat 64 (s.rdLE z.tag z.place 8)
    if waitCond z.kind v z.x then { k with wait := none, issue := { k.issue with woken := some ⟨z, v, s.writes, none⟩ } } else k
  | _ => k

/-- Every `WAITA` that watches one of some lines has its condition evaluated again (R115). -/
def State.wakeLines (s : State) (line : Nat → Bool) : State :=
  if s.cores.any fun e => e.2.watches line then
    { s with cores := s.cores.map fun e => (e.1, if e.2.watches line then e.2.wake s else e.2) }
  else s

/-- Write bytes of a structure of the device. -/
def State.wrBytes (s : State) (t : LineTag) (pa : Nat) (bs : List Byte) : State :=
  (((s.putBytes t pa bs).settled pa bs.length).touch pa bs.length).wakeLines fun l => decide (pa / 64 ≤ l) && decide (64 * l < pa + bs.length)

/-- Write the low `n` bytes of a number. -/
def State.wrLE (s : State) (t : LineTag) (pa v n : Nat) : State := s.wrBytes t pa (toBytes n v)

/-- A device structure of `n` bytes in plain memory. -/
def State.rd (s : State) (pa n : Nat) : Nat := s.rdLE .plain pa n
/-- A device structure written in plain memory. -/
def State.wr (s : State) (pa v n : Nat) : State := s.wrLE .plain pa v n

/-- Is some line of a run of bytes poisoned (R416)? Answers its address. -/
def State.poisoned (s : State) (pa n : Nat) : Option Nat :=
  if s.poison = [] then none
  else ((List.range ((pa % 64 + n + 63) / 64)).find? fun i => FMap.get false s.poison (pa / 64 + i)).map
    fun i => (pa / 64 + i) * 64

/-- A line is marked poisoned, counted in ECCSTAT and logged in MCLOG (R416). -/
def State.poisonLine (s : State) (line : Nat) : State :=
  let n := s.csrF 0xCFA 63 32
  let s := if FMap.get false s.poison line then s
    else { s with poison := s.poison.insert line true }.setCsr 0xCFA (BitVec.ofNat 64 (s.csrF 0xCFA 31 0 + 2 ^ 32 * min (n + 1) (2 ^ 32 - 1)))
  s.setCsr 0xCFB (BitVec.ofNat 64 (64 * line % 2 ^ 48 + 2 ^ 48))

/-! ### MCBs (R146, R147) -/

/-- The physical address of an MCB. -/
def State.mcbPa (s : State) (m : Nat) : Nat := s.csrF (0x050 + bits m 13 12) 47 0 + 256 * bits m 11 0

/-- An MCB as a number of 2,048 bits. -/
def State.mcb (s : State) (m : Nat) : Nat := s.rd (s.mcbPa m) 256

/-- A field of an MCB. -/
def State.mcbF (s : State) (m hi lo : Nat) : Nat := bits (s.mcb m) hi lo

/-- STATE of an MCB: 0 FREE, 1 IDLE, 2 ACTIVE, 3 FAULTED, 4 DISABLED, 5 HALTED (R149). -/
def State.mcState (s : State) (m : Nat) : Nat := s.mcbF m 3 0
/-- PART of an MCB. -/
def State.mcPart (s : State) (m : Nat) : Nat := s.mcbF m 12 8
/-- PRIO of an MCB. -/
def State.mcPrio (s : State) (m : Nat) : Nat := s.mcbF m 6 4
/-- ASID of an MCB. -/
def State.mcAsid (s : State) (m : Nat) : Nat := s.mcbF m 25 16

/-- An MCB written as one atomic update; the device notes which MCBs are not FREE. -/
def State.setMcb (s : State) (m v : Nat) : State :=
  let s := s.wr (s.mcbPa m) v 256
  { s with mcs := if bits v 3 0 = 0 then s.mcs.erase m else s.mcs.insert m true }

/-- A field of an MCB written: its other bytes, and a poison marker, stay (R416). -/
def State.setMcbF (s : State) (m hi lo v : Nat) : State := { s.setMcb m (setBits (s.mcb m) hi lo v) with poison := s.poison }

/-- GPLACE entry of a group: DIE, CORE, GST (R147). -/
def State.gplace (s : State) (m g : Nat) : Nat × Nat × Nat :=
  let e := s.mcbF m (1024 + 10 * g + 9) (1024 + 10 * g)
  (bits e 1 0, bits e 7 2, bits e 9 8)

/-- GPLACE entry of a group written. -/
def State.setGplace (s : State) (m g die core gst : Nat) : State :=
  s.setMcbF m (1024 + 10 * g + 9) (1024 + 10 * g) (die + 4 * core + 256 * gst)

/-- GST of a group written: 0 off core, 1 on core, 2 parked, 3 retired. -/
def State.setGst (s : State) (m g gst : Nat) : State := s.setMcbF m (1024 + 10 * g + 9) (1024 + 10 * g + 8) gst

/-- Is an MCB live: IDLE, ACTIVE, FAULTED or HALTED (R13)? -/
def State.mcLive (s : State) (m : Nat) : Bool := [1, 2, 3, 5].contains (s.mcState m)

/-- The root of an ASID: PT_ROOT of its live MCBs (R13). -/
def State.asidRoot (s : State) (a : Nat) : Option Nat :=
  (List.find? (fun e => s.mcLive e.1 && s.mcAsid e.1 == a) s.mcs).map fun e => s.mcbF e.1 111 64

/-! ### Task CSRs and the levels of access (R266) -/

/-- A level column of the CSR map: a privilege level; "1own", for an index of a partition or of an ASID; "—"; "PCFG". -/
inductive Lvl where
  | pl (n : Nat)
  | ownPart (p : Nat)
  | ownAsid (a : Nat)
  | never
  deriving DecidableEq, Repr

/-- The CSR map: read level and write level of a number; none where it is not assigned (R266). (DEDUCED, log entry 75) -/
def csrLevels (n : Nat) : Option (Lvl × Lvl) :=
  let own (lo : Nat) (w : Lvl) : Option (Lvl × Lvl) := some (.ownPart (n - lo), w)
  if n ≤ 0x003 ∨ n = 0x005 ∨ n = 0x008 ∨ n = 0x009 then some (.pl 0, .pl 0)
  else if n = 0x004 ∨ n = 0x00A then some (.pl 0, .pl 1)
  else if n = 0x006 ∨ n = 0x007 ∨ n = 0x00B ∨ n = 0x00C then some (.pl 0, .never)
  else if n = 0x010 ∨ n = 0x012 ∨ n = 0x014 then some (.pl 1, .pl 1)
  else if n = 0x011 ∨ n = 0x013 ∨ n = 0x015 then some (.pl 2, .pl 2)
  else if 0x020 ≤ n ∧ n ≤ 0x030 then own 0x020 (.ownPart (n - 0x020))
  else if 0x040 ≤ n ∧ n < 0x044 then some (.pl 1, .never)
  else if 0x050 ≤ n ∧ n < 0x054 then some (.pl 1, .pl 2)
  else if 0x054 ≤ n ∧ n < 0x060 then some (.pl 2, .pl 2)
  else if n = 0x060 ∨ n = 0x061 ∨ n = 0x064 then some (.pl 1, .pl 2)
  else if n = 0x062 then some (.pl 1, .never)
  else if n = 0x063 then some (.pl 0, .pl 2)
  else if n = 0x065 then some (.pl 2, .pl 2)
  else if 0x070 ≤ n ∧ n ≤ 0x080 then own 0x070 .never
  else if 0x090 ≤ n ∧ n ≤ 0x0A0 then own 0x090 (.ownPart (n - 0x090))
  else if 0x0B0 ≤ n ∧ n ≤ 0x0C0 then own 0x0B0 (.ownPart (n - 0x0B0))
  else if 0x0D0 ≤ n ∧ n ≤ 0x0E0 then own 0x0D0 .never
  else if 0x0F0 ≤ n ∧ n ≤ 0x100 then own 0x0F0 (.pl 2)
  else if 0x110 ≤ n ∧ n ≤ 0x120 then own 0x110 .never
  else if 0x130 ≤ n ∧ n ≤ 0x140 then own 0x130 .never
  else if 0x150 ≤ n ∧ n ≤ 0x160 then own 0x150 .never
  else if 0x170 ≤ n ∧ n ≤ 0x180 then own 0x170 .never
  else if 0x190 ≤ n ∧ n ≤ 0x1A0 then own 0x190 .never
  else if 0x200 ≤ n ∧ n < 0x300 then some (.pl 1, .never)
  else if 0x400 ≤ n ∧ n < 0x800 then some (.ownAsid (n - 0x400), .ownAsid (n - 0x400))
  else if 0x800 ≤ n ∧ n < 0xC00 then some (.ownAsid (n - 0x800), .ownAsid (n - 0x800))
  else if 0xC00 ≤ n ∧ n ≤ 0xC87 then some (.ownPart ((n - 0xC00) / 8), .ownPart ((n - 0xC00) / 8))
  else if 0xC90 ≤ n ∧ n < 0xCA0 then some (.pl 1, .pl 1)
  else if 0xCA0 ≤ n ∧ n ≤ 0xCB0 then own 0xCA0 .never
  else if 0xCC0 ≤ n ∧ n ≤ 0xCD0 then own 0xCC0 (.pl 2)
  else if 0xCE0 ≤ n ∧ n ≤ 0xCF0 then own 0xCE0 (.ownPart (n - 0xCE0))
  else if n = 0xCF8 then some (.pl 1, .pl 1)
  else if n = 0xCFA ∨ n = 0xCFB then some (.pl 2, .pl 2)
  else none

/-- May a task at its level and partition pass a level column (R266)? `.never` is no matter of privilege. -/
def State.lvlOk (s : State) (l : Lvl) : Bool :=
  let pl := s.core.pl.toNat
  match l with
  | .pl n => decide (n ≤ pl)
  | .ownPart p => pl == 2 || (pl == 1 && s.core.part == p)
  | .ownAsid a => pl == 2 || (pl == 1 && s.asidPart a == s.core.part)
  | .never => true

/-- PLVL (R267). -/
def Core.plvl (k : Core) : Dword := BitVec.ofNat 64 (k.pl.toNat + 16 * k.part)

/-- A CSR as CSRR reads it at the current issue. RNGCTR reads as before the issue (R296); VCLOCK counts as no rule
fixes (R126). (DEDUCED, log entry 17) -/
def State.readCsr (s : State) (n : Nat) : Dword :=
  let k := s.core
  match n with
  | 0x000 => k.lc.setWidth 64
  | 0x001 => k.sgate.setWidth 64
  | 0x002 => k.rwin.setWidth 64
  | 0x003 => k.kvwait.setWidth 64
  | 0x004 => k.pbound.setWidth 64
  | 0x005 => k.domset.setWidth 64
  | 0x006 => k.taskid
  | 0x007 => k.plvl
  | 0x008 => k.issue.rng.extractLsb' 0 64
  | 0x009 => k.issue.rng.extractLsb' 64 64
  | 0x00A => k.slip.setWidth 64
  | 0x00B => BitVec.ofNat 64 s.frame
  | 0x00C => BitVec.ofNat 64 (s.devns + s.mcbF k.mcid 895 832)
  | 0x010 => k.epc1
  | 0x011 => k.epc2
  | 0x012 => k.estat1
  | 0x013 => k.estat2
  | 0x014 => k.ecause1
  | 0x015 => k.ecause2
  | n => if 0x040 ≤ n ∧ n < 0x044 then (FMap.get 0 s.vclock (4 * s.die + (n - 0x040))).setWidth 64 else s.csr n

/-- A task that leaves its level-4 domain tells the package that holds the barrier, where that is another one (R154).
(DESIGN CHOICE, log entry 31) -/
def State.tellLeave (s : State) (m rank : Nat) : State :=
  let home := s.mcbF m 919 912
  if s.mcbF m 928 928 = 1 ∧ s.fabV ∧ home ≠ s.fabId then { s with out := .barLeave home (s.mcbF m 911 896) m rank :: s.out } else s

/-- A task leaves the domains whose bits of DOMSET a write clears (R154). -/
def State.leaveDomains (s : State) (old new : BitVec 5) : State :=
  let gone := (List.range 5).filter fun l => old.getLsbD l && !new.getLsbD l
  let ls := gone.map fun l => (⟨s.core.mcid, l, s.core.rank⟩ : Left)
  { (if gone.contains 4 then s.tellLeave s.core.mcid s.core.rank else s) with left := s.left ++ ls.filter fun e => !s.left.contains e }

/-- RWIN is in a state that a write may leave it in (R239). -/
def rwinOk (v : Nat) : Bool :=
  let first := bits v 5 0
  let size := bits v 12 6
  first % 8 == 0 && size % 8 == 0 && decide (first + size ≤ 64) && (size == 0 || decide (bits v 18 13 < size))

/-- The bits of `v` that a register of the given fields keeps. -/
def keep (v : Dword) (m : Nat) : Dword := v &&& BitVec.ofNat 64 m

/-- A ring CSR whose LOG2N lies outside its range leaves V = 0 (R365, R388, R393). -/
def ringCsr (v : Dword) (m lo hi : Nat) : Dword :=
  let n := bits v.toNat 5 1
  if lo ≤ n ∧ n ≤ hi then keep v m else keep v m &&& ~~~1

/-- What a PL1 or PL2 write leaves in a watchpoint (R378): an address or an MC beyond the writer's partition leaves V = 0;
OWNER is written by the device. -/
def State.watchWrite (s : State) (n : Nat) (v : Dword) : State :=
  let k := s.core
  let w := (n - 0xC90) % 8
  let okPa (pa : Nat) := k.pl.toNat == 2 || s.frameValid k.part pa
  let okMc (m : Nat) := k.pl.toNat == 2 || s.holds k.part 2 m
  if n < 0xC98 then
    let s := s.setCsr n (keep v (2 ^ 48 - 8))
    if okPa (bits v.toNat 47 0) then s else s.setCsr (0xC98 + w) (s.csr (0xC98 + w) &&& ~~~1)
  else
    let f := keep v (2 ^ 23 - 1)
    let own := if v.getLsbD 0 then k.part else s.csrF n 27 23
    let f := f ||| BitVec.ofNat 64 (own * 2 ^ 23)
    s.setCsr n (if okPa (s.csrF (0xC90 + w) 47 0) && okMc (bits v.toNat 22 9) then f else f &&& ~~~1)

/-- A write to a watchpoint that another partition owns raises PRIVILEGE (R378). -/
def State.watchForeign (s : State) (n : Nat) : Bool :=
  let c := 0xC98 + (n - 0xC90) % 8
  decide (0xC90 ≤ n ∧ n < 0xCA0) && s.core.pl.toNat != 2 && (s.csr c).getLsbD 0 && s.csrF c 27 23 != s.core.part

/-- The write of a CSR: its effect on the state, for the next issue (R265). Reserved bits and read-only fields keep their
value (R8). Numbers whose write level is "—" are refused before this. -/
def State.writeCsr (s : State) (n : Nat) (v : Dword) : State :=
  match n with
  | 0x000 => s.onCore fun k => { k with lc := v.setWidth 32 }
  | 0x001 => s.onCore fun k => { k with sgate := v.setWidth 11 }
  | 0x002 => s.onCore fun k => { k with rwin := v.setWidth 19 }
  | 0x003 => s.onCore fun k => { k with kvwait := v.setWidth 32 }
  | 0x004 => s.onCore fun k => { k with pbound := v.setWidth 32 }
  | 0x005 =>
    let new := s.core.domset &&& (v.setWidth 5 ||| 1)
    (s.leaveDomains s.core.domset new).onCore fun k => { k with domset := new }
  | 0x008 => (s.onCore fun k => { k with rng := (k.issue.rng.extractLsb' 64 64 ++ v : BitVec 128) }).onIssue fun i => { i with rngSet := true }
  | 0x009 => (s.onCore fun k => { k with rng := (v ++ k.issue.rng.extractLsb' 0 64 : BitVec 128) }).onIssue fun i => { i with rngSet := true }
  | 0x00A => s.onCore fun k => { k with slip := v.setWidth 32 }
  | 0x010 => s.onCore fun k => { k with epc1 := keep v (2 ^ 52 - 4) }
  | 0x011 => s.onCore fun k => { k with epc2 := keep v (2 ^ 52 - 4) }
  | 0x012 => s.onCore fun k => { k with estat1 := keep v 7 }
  | 0x013 => s.onCore fun k => { k with estat2 := keep v 7 }
  | 0x014 => s.onCore fun k => { k with ecause1 := keep v 0xFFFF00FF }
  | 0x015 => s.onCore fun k => { k with ecause2 := keep v 0xFFFF00FF }
  | 0x060 => s.setCsr n (keep v 0xFFFF)
  | 0x061 => s.setCsr n (keep v 0xFFFFFFFF)
  | 0x063 =>
    if (s.csr n).getLsbD 8 || s.staged.any (fun e => e.1 == 0x063) then s
    else if v.getLsbD 8 then { s with staged := s.staged ++ [(0x063, keep v 0x1FF)] } else s.setCsr n (keep v 0xFF)
  | 0x064 => s.setCsr n (keep v 0x7FFFFFFF)
  | 0x065 => if (s.csr n).getLsbD 0 then s else s.setCsr n (keep v (2 ^ 48 - 64 + 1))
  | 0xCF8 => s
  | 0xCFA => s.setCsr n (s.csr n &&& ~~~v)
  | 0xCFB => s.setCsr n (s.csr n &&& ~~~v)
  | n =>
    if 0x020 ≤ n ∧ n ≤ 0x030 then s.setCsr n (keep v (2 ^ 52 - 4))
    else if 0x050 ≤ n ∧ n < 0x054 then s.setCsr n (keep v (2 ^ 48 - 2 ^ 20))
    else if 0x054 ≤ n ∧ n < 0x058 then s.setCsr n (keep v (2 ^ 48 - 32))
    else if 0x058 ≤ n ∧ n < 0x05C then s.setCsr n (keep v (2 ^ 30 - 1))
    else if 0x05C ≤ n ∧ n < 0x060 then s.setCsr n (keep v (2 ^ 48 - 16))
    else if (0x090 ≤ n ∧ n ≤ 0x0A0) ∨ (0x0B0 ≤ n ∧ n ≤ 0x0C0) ∨ (0x800 ≤ n ∧ n < 0xC00) then
      s.setCsr n (keep v (2 ^ 48 - 64 + 1))
    else if 0x0F0 ≤ n ∧ n ≤ 0x100 then s.setCsr n (keep v (2 ^ 48 - 1))
    else if 0x400 ≤ n ∧ n < 0x800 then
      if s.core.pl.toNat = 2 then s.setCsr n (keep v 0xF800FFFFF)
      else s.setCsr n (keep v 0x800FFFFF ||| keep (s.csr n) 0xF00000000)
    else if 0xC00 ≤ n ∧ n ≤ 0xC87 then s.setCsr n (ringCsr v (2 ^ 60 - 1) 4 16)
    else if 0xC90 ≤ n ∧ n < 0xCA0 then s.watchWrite n v
    else if 0xCC0 ≤ n ∧ n ≤ 0xCD0 then s.setCsr n (ringCsr v (2 ^ 48 - 2 ^ 12 + 63) 4 16)
    else if 0xCE0 ≤ n ∧ n ≤ 0xCF0 then s.setCsr n (ringCsr v (2 ^ 52 - 2 ^ 12 + 63) 4 12)
    else s

end Sys2Proof.Machine
end

