-- ==== Sys2Proof/Machine/Translate.lean ====
section
/-! DEFINITION. Translation of global virtual addresses: the page walk (R16 to R20), grist frames (R29 to R33), cached
translations (R23, R24), the host window (R47 to R50), for tasks and for engines. -/

namespace Sys2Proof.Machine

/-- Where an access goes: device memory under a key, or a host address of a function and PASID with what it translates to (R48). -/
inductive Loc where
  | dev (pa : Nat) (tag : LineTag)
  | host (fn pasid addr xaddr : Nat)
  deriving DecidableEq, Repr

/-- What a page walk ends with (R19): a leaf with its level and its address, an outcome with the level it arose at, a grist
frame that is still STEEPING (R41), or an entry on a poisoned line (R416). -/
inductive WalkOut where
  | hit (leaf level pte : Nat)
  | out (code level : Nat)
  | steep (frame : Nat)
  | bad (line : Nat)
  deriving DecidableEq, Repr

/-! ### Grist frames (R29, R30) -/

/-- The frame table entry of a grist frame (R29). -/
def State.gristPa (s : State) (frame : Nat) : Nat :=
  s.csrF 0x065 47 6 * 64 + 64 * (tierOf frame * 2 ^ 18 + bits frame 38 21)
/-- A field of a frame table entry. -/
def State.gristF (s : State) (frame hi lo : Nat) : Nat := bits (s.rd (s.gristPa frame) 64) hi lo
/-- A field of a frame table entry written, as one atomic update (R34). -/
def State.setGristF (s : State) (frame hi lo v : Nat) : State :=
  s.wr (s.gristPa frame) (setBits (s.rd (s.gristPa frame) 64) hi lo v) 64
/-- HASH of a frame. -/
def State.gristHash (s : State) (frame : Nat) : BitVec 256 := BitVec.ofNat 256 (s.gristF frame 255 0)

/-- Go on with an entry of `n` bytes unless its line is poisoned (R416). -/
def State.unlessBad (s : State) (pa n : Nat) (w : WalkOut) : WalkOut :=
  match s.poisoned pa n with
  | some l => .bad l
  | none => w

/-- The 2 MiB frame that a grist leaf names. -/
def gristFrame (leaf : Nat) : Nat := bits leaf 47 21 * 2 ^ 21

/-- The address a leaf maps a VA to (R16, R17). -/
def leafPa (leaf level va : Nat) : Nat :=
  if level = 3 then bits leaf 47 16 * 2 ^ 16 + bits va 15 0 else bits leaf 47 28 * 2 ^ 28 + bits va 27 0

/-- Is a leaf malformed (R18)? -/
def State.malformedLeaf (s : State) (part leaf level : Nat) : Bool :=
  if bit leaf 3 then
    bit leaf 1 || bit leaf 2 || level == 2 || bits leaf 47 46 == 3 || !s.frameOk (bits leaf 47 16 * 2 ^ 16)
  else if level = 3 then !s.frameValid part (bits leaf 47 16 * 2 ^ 16)
  else !s.rangeValid part (bits leaf 47 28 * 2 ^ 28) (2 ^ 28)

/-- Is a 2 MiB frame a grist frame: one of the root grist pool, or one whose entry the root has written as in use? Without a frame table
none is (R29, R280 KIND 9). The entries of frames outside the pool hold zeros unless the root has written them. (DEDUCED, log entry 53) -/
def State.isGrist (s : State) (frame : Nat) : Bool :=
  s.csrF 0x065 0 0 == 1 && decide (tierOf frame < 3) &&
    (s.gristF frame 312 256 != 0 ||
      s.grants.any fun g => g.part = 16 ∧ g.kind = 9 ∧ g.base ≤ frame ∧ frame < g.base + 2 ^ 21 * g.count)

/-- grist_check of R30: 0x5 not granted, 0x6 FREE or FAILED, STEEPING, or nothing against it. What is no grist frame nobody has been granted
(R29). -/
def State.gristCheck (s : State) (part leaf level pte : Nat) : WalkOut :=
  let f := gristFrame leaf
  if !s.isGrist f then .out 0x5 level else
  s.unlessBad (s.gristPa f) 64 <|
  if !bit (s.gristF f 312 296) part then .out 0x5 level
  else match s.gristF f 257 256 with
    | 1 => .steep f
    | 2 => .hit leaf level pte
    | _ => .out 0x6 level

/-- The checks at a leaf, in the order of R19. -/
def State.walkLeaf (s : State) (part : Nat) (acc : Access) (e level pte : Nat) : WalkOut :=
  if s.malformedLeaf part e level then .out 0x4 level
  else if acc = .write ∧ bit e 1 = false then .out 0x2 level
  else if acc = .fetch ∧ bit e 2 = false then .out 0x3 level
  else if bit e 3 then s.gristCheck part e level pte
  else .hit e level pte

/-- Level 3 of the walk. -/
def State.walk3 (s : State) (part va : Nat) (acc : Access) (table : Nat) : WalkOut :=
  let pte := table + 8 * bits va 27 16
  let e := s.rd pte 8
  s.unlessBad pte 8 <| if bit e 0 = false then .out 0x1 3 else s.walkLeaf part acc e 3 pte

/-- Level 2 of the walk. -/
def State.walk2 (s : State) (part va : Nat) (acc : Access) (table : Nat) : WalkOut :=
  let pte := table + 8 * bits va 39 28
  let e := s.rd pte 8
  s.unlessBad pte 8 <|
  if bit e 0 = false then .out 0x1 2
  else if bit e 7 then s.walkLeaf part acc e 2 pte
  else if !s.frameValid part (bits e 47 15 * 2 ^ 15) then .out 0x4 2
  else s.walk3 part va acc (bits e 47 15 * 2 ^ 15)

/-- The walk of R19 for an address outside the host window. (DESIGN CHOICE, log entry 80) -/
def State.walk (s : State) (asid va : Nat) (acc : Access) : WalkOut :=
  let part := s.asidPart asid
  match s.asidRoot asid with
  | none => .out 0x1 1
  | some root =>
    let e := s.rd (root + 8 * bits va 51 40) 8
    s.unlessBad (root + 8 * bits va 51 40) 8 <|
    if bit e 0 = false then .out 0x1 1
    else if bit e 7 then .out 0x4 1
    else if !s.frameValid part (bits e 47 15 * 2 ^ 15) then .out 0x4 1
    else s.walk2 part va acc (bits e 47 15 * 2 ^ 15)

/-! ### The walk cache (R23) -/

/-- Does a cached non-leaf entry lie on the path of a VA? -/
def WalkEntry.onPath (e : WalkEntry) (die asid va : Nat) : Bool :=
  e.die == die && e.asid == asid && e.index == (if e.level = 1 then bits va 51 40 else bits va 51 28)

/-- The walk from the table of a cached entry. -/
def State.walkVia (s : State) (va : Nat) (acc : Access) (e : WalkEntry) : WalkOut :=
  if e.level = 1 then s.walk2 (s.asidPart e.asid) va acc e.table else s.walk3 (s.asidPart e.asid) va acc e.table

/-- The non-leaf entries that a walk from the root passes, down to a leaf of the level. -/
def State.pathEntries (s : State) (die asid va level : Nat) : List WalkEntry :=
  match s.asidRoot asid with
  | none => []
  | some root =>
    let t2 := bits (s.rd (root + 8 * bits va 51 40) 8) 47 15 * 2 ^ 15
    ⟨die, asid, 1, bits va 51 40, t2⟩ ::
      (if level = 3 then [⟨die, asid, 2, bits va 51 28, bits (s.rd (t2 + 8 * bits va 39 28) 8) 47 15 * 2 ^ 15⟩] else [])

/-- The entries of a walk kept in the walk cache of its die. -/
def State.fillWalks (s : State) (es : List WalkEntry) : State :=
  { s with walks := es.filter (fun e => !s.walks.contains e) ++ s.walks }

/-- What a walk finds: from the root, or, where a cached non-leaf entry leads elsewhere, from its table, until a TLBINV: the choice is a free
value (R23). An ASID without a root has no walk but the one that ends at level 1 (R13). Answers too whether it started at the root.
(DEDUCED, log entry 11) -/
def State.walkCached (s : State) (die asid va : Nat) (acc : Access) : WalkOut × Bool :=
  let new := s.walk asid va acc
  let es := s.walks.filter fun e => (s.asidRoot asid).isSome && e.onPath die asid va && s.walkVia va acc e != new
  let c := if es = [] then 0 else (Config.free 32 s.tick .translation (va + 2 ^ 52) asid).toNat % (es.length + 1)
  if c = 0 then (new, true)
  else match es[c - 1]? with
    | some e => (s.walkVia va acc e, false)
    | none => (new, true)

/-- The place a leaf maps a VA to, with the key of its page (R27). -/
def State.leafLoc (s : State) (asid va leaf level : Nat) : Loc :=
  let pa := leafPa leaf level va
  if bit leaf 3 then .dev pa (.seg (s.gristHash (gristFrame leaf)) 0)
  else if bit leaf 4 then .dev pa (.priv (((s.keys.find? asid).getD (Config.resetKey asid)).extractLsb' 0 512))
  else .dev pa .plain

/-- The atomic OR of A, and of D on a write, into a leaf (R19). (DESIGN CHOICE, log entry 80) -/
def State.setAD (s : State) (pte : Nat) (acc : Access) : State :=
  let b := s.rd pte 1
  let n := b ||| (if acc = .write then 0x60 else 0x20)
  if n = b then s else s.wr pte n 1

/-- Bind a grist key slot to a frame that has none, and derive its key: the first free slot at or after the pointer, or the slot at the
pointer taken from its frame, whose cached translations go (R31). The pointer moves to the slot after the one bound; the rule gives it no
step. (DESIGN CHOICE, log entry 87) -/
def State.bindGrist (s : State) (frame : Nat) : State :=
  if s.gristF frame 330 330 = 1 then s
  else
    let free := (List.range 1024).find? fun i => (s.gristKeys.find? ((s.gristPtr + i) % 1024)).isNone
    let slot := match free with
      | some i => (s.gristPtr + i) % 1024
      | none => s.gristPtr % 1024
    let s := match s.gristKeys.find? slot with
      | some (old, _) =>
        let s := s.setGristF old 330 320 0
        { s with tlb := s.tlb.filter fun e => !(e.leaf.getLsbD 3 && gristFrame e.leaf.toNat == old) }
      | none => s
    let s := s.setGristF frame 330 320 (1024 + slot)
    { s with gristKeys := s.gristKeys.insert slot (frame, segKey (s.gristHash frame)), gristPtr := (slot + 1) % 1024 }

/-! ### The host window (R47 to R50) -/

/-- What a host translation ends with: an address; an outcome; a request that is to be waited for; a page request that is
to be sent first. -/
inductive HostOut where
  | hit (fn pasid addr xaddr : Nat)
  | out (code : Nat)
  | miss (fn pasid page : Nat)
  | pageWait (fn pasid page : Nat)
  deriving DecidableEq, Repr

/-- Is a VA in the host window (R14)? -/
def inHost (va : Nat) : Bool := bits va 51 48 == 0xF

/-- The 4 KiB host page of a host-window VA. -/
def hostPage (va : Nat) : Nat := bits va 47 12

/-- The agent number of a task for what it has asked the host (R49, R50): the task keeps it on whichever core it runs. -/
def taskAgent (mcid rank : Nat) : Nat := 2 ^ 72 + 64 * mcid + rank

/-- The agent number of the executing task. -/
def State.asker (s : State) : Nat := taskAgent s.core.mcid s.core.rank

/-- How the page request of a page stands for an agent's access, if there is one (R50). -/
def State.priState (s : State) (fn pasid page who : Nat) : Option PriState :=
  (s.pri.find? fun r => r.fn = fn ∧ r.pasid = pasid ∧ r.page = page ∧ r.who = who).map (·.st)

/-- Is a page request of a page on its way, whoever asked (R50)? -/
def State.priWaits (s : State) (fn pasid page : Nat) : Bool :=
  s.pri.any fun r => r.fn == fn && r.pasid == pasid && r.page == page && r.st == .waiting

/-- Is a refusal waiting for the access that asked (R49)? -/
def State.isBad (s : State) (die fn pasid page who : Nat) : Bool :=
  s.atsBad.any fun r => r.die = die ∧ r.fn = fn ∧ r.pasid = pasid ∧ r.page = page ∧ r.who = who

/-- The page request that an agent's access to a page has led to is used up (R50). -/
def State.priDone (s : State) (fn pasid page who : Nat) : State :=
  { s with pri := s.pri.filter fun r => !(r.fn == fn && r.pasid == pasid && r.page == page && r.who == who) }

/-- What an agent has asked of the host's translation is no longer wanted. -/
def State.forgetAsks (s : State) (p : Nat → Bool) : State :=
  { s with ats := s.ats.filter (!p ·.who), atsBad := s.atsBad.filter (!p ·.who), pri := s.pri.filter (!p ·.who) }

/-- Does an entry translate a page? -/
def DtcEntry.covers (e : DtcEntry) (die fn pasid page : Nat) : Bool :=
  e.die == die && e.fn == fn && e.pasid == pasid && decide (e.page ≤ page) && decide (page < e.page + e.pages)

/-- The entry of the die's DTC for a page (R49). -/
def State.dtcFind (s : State) (die fn pasid page : Nat) : Option DtcEntry := s.dtc.find? fun e => e.covers die fn pasid page

/-- The address that an entry translates an I/O address to. -/
def DtcEntry.xlate (e : DtcEntry) (addr : Nat) : Nat := 4096 * (e.xpage + (addr / 4096 - e.page)) + addr % 4096

/-- host_translate of R19: HPASID, the DTC, and what an agent's requests for the page have come to. A hit whose entry lacks the permission is refused
at once, without a new request. (DESIGN CHOICE, log entry 68) -/
def State.hostXlate (s : State) (who die asid va : Nat) (acc : Access) : HostOut :=
  let h := s.csrN (0x400 + asid)
  let fn := bits h 35 32
  let pasid := bits h 19 0
  let page := hostPage va
  if acc = .fetch then .out 0x3
  else if bit h 31 = false then .out 0x8
  else match s.dtcFind die fn pasid page with
    | some e => if (acc = .read ∧ e.r) ∨ (acc = .write ∧ e.w) then .hit fn pasid (bits va 47 0) (e.xlate (bits va 47 0)) else .out 0x8
    | none =>
      if s.isBad die fn pasid page who then .out 0x8
      else match s.priState fn pasid page who with
        | some .failed => .out 0xA
        | some .again => .out 0xA
        | some .absent => .pageWait fn pasid page
        | some .waiting => .pageWait fn pasid page
        | _ => .miss fn pasid page

/-! ### Translation for any agent -/

/-- What a translation comes to. -/
inductive Xlate where
  | hit (l : Loc)
  | out (code level : Nat)
  | steep (frame : Nat)
  | bad (line : Nat)
  | motion
  | ats (fn pasid page : Nat)
  | pri (fn pasid page : Nat)
  deriving DecidableEq, Repr

/-- May a cached translation serve an access (R23, R24)? One that carries D = 0 is not used for a write. (DEDUCED, log entry 11) -/
def TlbEntry.serves (e : TlbEntry) (acc : Access) : Bool := acc != .write || e.leaf.getLsbD 6

/-- The outcome by which a cached translation that serves an access denies it (R19, R23). -/
def TlbEntry.denies (e : TlbEntry) (acc : Access) : Option Nat :=
  match acc with
  | .read => none
  | .write => if e.leaf.getLsbD 1 then none else some 0x2
  | .fetch => if e.leaf.getLsbD 2 then none else some 0x3

/-- Does a cached translation cover a VA of an ASID on a die? -/
def TlbEntry.covers (e : TlbEntry) (die asid va : Nat) : Bool :=
  e.die == die && e.asid == asid && (if e.level = 3 then e.page == bits va 51 16 else e.page / 4096 == bits va 51 28)

/-- Is a page in motion (R110)? -/
def State.inMotion (s : State) (asid va : Nat) : Bool := s.motion.any fun m => m.asid == asid && m.page == bits va 51 16

/-- Are two cached translations the same one? -/
def TlbEntry.same (a b : TlbEntry) : Bool :=
  a.die == b.die && a.asid == b.asid && a.page == b.page && a.level == b.level && a.leaf.toNat == b.leaf.toNat

/-- A walk's answer kept in the translation cache of its die (R23). -/
def State.fillTlb (s : State) (die asid va leaf level : Nat) : State :=
  let e : TlbEntry := ⟨die, asid, bits va 51 16, level, BitVec.ofNat 64 leaf⟩
  if s.tlb.any e.same then s else { s with tlb := e :: s.tlb }

/-- Translate by a new walk (R19). -/
def State.xlateWalk (s : State) (die asid va : Nat) (acc : Access) : Xlate × State :=
  if s.inMotion asid va then (.motion, s)
  else match s.walkCached die asid va acc with
    | (.out c l, _) => (.out c l, s)
    | (.steep f, _) => (.steep f, s)
    | (.bad l, _) => (.bad l, s)
    | (.hit leaf level pte, fromRoot) =>
      let s := if fromRoot then s.fillWalks (s.pathEntries die asid va level) else s
      let l := s.leafLoc asid va leaf level
      let s := s.setAD pte acc
      let s := if bit leaf 3 then s.bindGrist (gristFrame leaf) else s
      (.hit l, s.fillTlb die asid va (leaf ||| (if acc = .write then 0x60 else 0x20)) level)

/-- Does a cached translation say what a new walk says, and would the walk change nothing? -/
def State.sameAsWalk (s : State) (asid va : Nat) (acc : Access) (e : TlbEntry) : Bool :=
  match s.walk asid va acc with
  | .hit leaf level _ =>
    e.level == level && e.leaf.toNat == leaf && !bit leaf 3 && bit leaf 5 && (bit leaf 6 || acc != .write) && !s.inMotion asid va
  | _ => false

/-- Translate an agent's access of an ASID from a die: the host window by ATS, the rest by a cached translation or a walk. After a
page-table entry has changed either may serve, until a TLBINV (R23): the choice is a free value. (DEDUCED, log entry 11) -/
def State.xlate (s : State) (who die asid va : Nat) (acc : Access) : Xlate × State :=
  let va := va % 2 ^ 52
  if inHost va then
    match s.hostXlate who die asid va acc with
    | .hit fn pasid a x => (.hit (.host fn pasid a x), s.priDone fn pasid (hostPage va) who)
    | .out c => (.out c 0, s)
    | .miss fn pasid p => (.ats fn pasid p, s)
    | .pageWait fn pasid p => (.pri fn pasid p, s)
  else
    let es := s.tlb.filter fun e => e.covers die asid va && e.serves acc && !s.sameAsWalk asid va acc e
    let c := if es = [] then 0 else (Config.free 32 s.tick .translation va asid).toNat % (es.length + 1)
    if c = 0 then s.xlateWalk die asid va acc
    else match es[c - 1]? with
      | some e =>
        match e.denies acc with
        | some code => (.out code e.level, s)
        | none => (.hit (s.leafLoc asid va e.leaf.toNat e.level), s)
      | none => s.xlateWalk die asid va acc

/-- The cause of a walk outcome (R19, R361). -/
def outcomeCause (code : Nat) : Nat :=
  match code with
  | 0x1 => 0x10
  | 0x6 => 0x10
  | 0x7 => 0x16
  | 0x8 => 0x14
  | 0x9 => 0x15
  | 0xA => 0x14
  | _ => 0x11

/-- The fault of a walk outcome at a VA. -/
def walkFault (code level va : Nat) (acc : Access) : FaultInfo :=
  ⟨outcomeCause code, code, level, vaInfo va (acc == .write) (acc == .fetch)⟩

/-- Consumed data with an uncorrectable error terminates the task (R416). (DEDUCED, log entry 40) -/
def uncorrectable (pa : Nat) : FaultInfo := ⟨0x20, 0, 0, BitVec.ofNat 192 pa⟩

/-- Is a page request of a page on its way, or must a new one wait for room among the 512 of the die, or in the function's allocation (R50)?
(DESIGN CHOICE, log entry 68) -/
def State.priRoom (s : State) (die fn pasid page : Nat) : Bool :=
  let pages (p : PriReq → Bool) : Nat := (((s.pri.filter fun r => r.st = .waiting ∧ p r).map fun r => (r.fn, r.pasid, r.page)).eraseDups).length
  s.priWaits fn pasid page || (decide (pages (·.die = die) < 512) && decide (pages (·.fn = fn) < Config.priAlloc fn))

/-- What a translation whose outcome is given leaves behind: a refusal or a failure that has reached its access (R49, R50). -/
def State.outPosts (s : State) (who die asid va code : Nat) : List Post :=
  let h := s.csrN (0x400 + asid)
  let fn := bits h 35 32
  let pasid := bits h 19 0
  if code = 0x8 ∧ s.isBad die fn pasid (hostPage va) who then [.badUsed die fn pasid (hostPage va) who]
  else if code = 0xA then [.priUsed fn pasid (hostPage va) who] else []

/-- Does an invalidation cover a page of a function and PASID? -/
def Inval.covers (i : Inval) (fn pasid page : Nat) : Bool :=
  i.fn == fn && (i.pasid.isNone || i.pasid == some pasid) && decide (i.page ≤ page ∧ page < i.page + i.pages)

/-- The fetch of a steeping segment moves ahead of every entry whose fetch has not been issued (R36). -/
def Steep.moveAhead (t : Steep) (frame : Nat) : Steep :=
  let flying := t.fetching.take 16
  let (hit, rest) := (t.fetching.drop 16).partition fun e => e.frame = frame
  { t with fetching := flying ++ hit ++ rest }

/-- What a translation leaves in the units it asked. A translation request asks for every permission (R48), and one that is on its way serves
every access to its page; one that overlaps an invalidation in progress is held until that is done (R51 step 2): the access asks again. -/
def State.askUnits (s : State) (p : Post) : State :=
  match p with
  | .ats r =>
    if s.ats.contains r ∨ s.invals.any (fun i => i.covers r.fn r.pasid r.page) then s
    else
      let sent := s.ats.any fun q => q.die == r.die && q.fn == r.fn && q.pasid == r.pasid && q.page == r.page
      { s with ats := s.ats ++ [r], out := if sent then s.out else .ats r.fn r.pasid r.page true true false :: s.out }
  | .pri r =>
    if s.priState r.fn r.pasid r.page r.who = some .waiting then s
    else
      let t := s.priDone r.fn r.pasid r.page r.who
      { t with pri := t.pri ++ [r], out := if s.priWaits r.fn r.pasid r.page then s.out else .pri r.fn r.pasid r.page :: s.out }
  | .priUsed fn pasid page who => s.priDone fn pasid page who
  | .badUsed die fn pasid page who => { s with atsBad := s.atsBad.filter (· ≠ ⟨die, fn, pasid, page, who⟩) }
  | .ahead frame => { s with steeps := s.steeps.map (·.moveAhead frame) }
  | _ => s

/-- The access needs a die-to-die link that is lost (R163). -/
def linkDown : FaultInfo := ⟨0x21, 0, 0, 0⟩

/-- The home of a place is within reach of a die (R101, R163). (DEDUCED, log entry 67) -/
def needReach (die : Nat) : Loc → M Unit
  | .dev pa _ => do M.need ((← get).reaches die pa) (.fault linkDown)
  | .host _ _ _ _ => pure ()

/-- A translation for the executing task (R20, R41, R49, R50): faults are precise at its bundle; a steeping segment stalls
it, or raises STEEP_WAIT at once where STEEPWAIT is 0; a DTC miss asks the host and stalls it; an absent host page raises
PRI_WAIT. -/
def xlateAs (asid va : Nat) (acc : Access) : M Loc := do
  let s ← get
  let k := s.core
  let (x, s') := s.xlate s.asker s.die asid va acc
  match x with
  | .hit l =>
    set s'
    needReach s.die l
    pure l
  | .out c lv => M.stop (.fault (walkFault c lv va acc)) (s.outPosts s.asker s.die asid va c)
  | .steep f =>
    if k.steepwait = 0 then M.stop (.fault (walkFault 0x7 3 va acc)) [.ahead f]
    else M.stop (.stall (.steep f (walkFault 0x7 3 va acc))) [.ahead f]
  | .bad l => M.stop (.fault (uncorrectable l))
  | .motion => M.stop (.stall .motion)
  | .ats fn pasid p => M.stop (.stall (.ats fn pasid p)) [.ats ⟨s.die, fn, pasid, p, s.asker⟩]
  | .pri fn pasid p =>
    M.need (s.priRoom s.die fn pasid p) (.stall (.ats fn pasid p))
    M.stop (.fault (walkFault 0x9 0 va acc)) [.pri ⟨s.die, fn, pasid, p, s.asker, .waiting⟩]

/-- A translation for an engine of a die, as an agent, in an ASID: it waits where a task would stall, and for an absent host page sends the page
request and waits (R341, R419). -/
def xlateEng (who die asid va : Nat) (acc : Access) : M Loc := do
  let s ← get
  let (x, s') := s.xlate who die asid va acc
  match x with
  | .hit l => set s'; pure l
  | .out c lv => M.stop (.fault (walkFault c lv va acc)) (s.outPosts who die asid va c)
  | .steep f => M.stop (.stall (.steep f (walkFault 0x7 3 va acc))) [.ahead f]
  | .bad l => M.stop (.fault (uncorrectable l))
  | .motion => M.stop (.stall .motion)
  | .ats fn pasid p => M.stop (.stall (.ats fn pasid p)) [.ats ⟨die, fn, pasid, p, who⟩]
  | .pri fn pasid p =>
    M.need (s.priRoom die fn pasid p) (.stall (.ats fn pasid p))
    M.stop (.stall (.ats fn pasid p)) [.pri ⟨die, fn, pasid, p, who, .waiting⟩]

/-- A translation for the executing task in its current ASID (R13, R269). -/
def xlateTask (va : Nat) (acc : Access) : M Loc := do xlateAs (← get).core.asid va acc

end Sys2Proof.Machine
end

