-- ==== Sys2Proof/Machine/Records.lean ====
section
/-! DEFINITION. Fault records and fault queues (R364 to R366), MSI-X messages (R387), watchpoint records (R378). -/

namespace Sys2Proof.Machine

/-- The fields of a fault record that its cause does not fix (R366). -/
structure RecHead where
  smask : Nat
  pl : Nat
  async : Bool
  img : Bool
  part : Nat
  mcid : Nat
  rank : Nat
  core : Nat
  pc : Nat
  issue : Nat
  status : Nat
  deriving DecidableEq, Repr

/-- A fault record, SEQNO zero (R366). -/
def mkRecord (h : RecHead) (fi : FaultInfo) (time : Nat) : BitVec 512 :=
  let d0 := fi.cause + 2 ^ 8 * h.smask + 2 ^ 14 * h.pl + 2 ^ 16 * h.async.toNat + 2 ^ 17 * h.img.toNat + 2 ^ 18 * h.part +
    2 ^ 24 * h.mcid + 2 ^ 38 * h.rank + 2 ^ 44 * h.core
  let d2 := h.issue + 2 ^ 8 * fi.outcome + 2 ^ 16 * fi.level + 2 ^ 24 * h.status
  BitVec.ofNat 512 (d0 + 2 ^ 64 * h.pc + 2 ^ 128 * d2 + 2 ^ 192 * fi.info.toNat + 2 ^ 448 * (time % 2 ^ 64))

/-- The fault queue of an MC's records (R365). -/
def State.queueOf (s : State) (m : Nat) : Nat :=
  let p := s.mcPart m
  (if p = 16 then 128 else 8 * p) + s.mcbF m 50 48

/-- The function that carries a partition's vectors: its lowest VF, or the PF for the root (R387). -/
def State.vectorFn (s : State) (p : Nat) : Option Nat :=
  if p = 16 then some 0 else (List.range 17).find? fun f => decide (1 ≤ f) && s.holds p 10 f

/-- Send an MSI-X message; a vector beyond the table, or a partition without a VF, sends none (R387). -/
def State.sendVec (s : State) (p vec : Nat) : State :=
  match s.vectorFn p with
  | none => s
  | some f => if vec < (if f = 0 then 256 else 32) then { s with out := .msix f vec :: s.out } else s

/-- The partition of a fault queue (R365). -/
def queuePart (q : Nat) : Nat := if q < 128 then q / 8 else 16

/-- Write a record to a queue that is installed and not full: the record, then TAIL as a release at `.SYS` (R365). A ring that leaves the memory
granted to its partition counts as full there (R380, R11). (DESIGN CHOICE, log entry 91) -/
def State.fqWrite (s : State) (q : Nat) (r : BitVec 512) : Option State :=
  let c := s.csrN (0xC00 + q)
  let base := bits c 47 6 * 64
  let n := 2 ^ bits c 5 1
  let tail := s.rd base 8
  let head := s.rd (base + 8) 8
  let p := queuePart q
  if bit c 0 = false ∨ !s.frameValid p base ∨ !s.frameValid p (base + 64 + 64 * (tail % n)) ∨ (tail + 2 ^ 64 - head) % 2 ^ 64 ≥ n then none
  else
    let s := s.wr (base + 64 + 64 * (tail % n)) (r.toNat + 2 ^ 384 * tail) 64
    let s := s.wr base ((tail + 1) % 2 ^ 64) 8
    some (if bit c 59 then s.sendVec p (bits c 58 48) else s)

/-- A record is dropped: LOST of an installed queue rises (R364). -/
def State.fqLost (s : State) (q : Nat) : State :=
  let c := s.csrN (0xC00 + q)
  let a := bits c 47 6 * 64 + 16
  if bit c 0 && s.frameValid (queuePart q) a then s.wr a (s.rd a 8 + 1) 8 else s

/-- A precise record is never dropped: where its queue cannot take it, it waits for a frame boundary (R364). -/
def State.recordPrecise (s : State) (q : Nat) (r : BitVec 512) : State :=
  if s.pendRecs.any fun e => e.queue = q then { s with pendRecs := s.pendRecs ++ [⟨q, r⟩] }
  else (s.fqWrite q r).getD { s with pendRecs := s.pendRecs ++ [⟨q, r⟩] }

/-- An asynchronous record: dropped, and counted in LOST, where its queue cannot take it (R364). -/
def State.recordAsync (s : State) (q : Nat) (r : BitVec 512) : State := (s.fqWrite q r).getD (s.fqLost q)

/-- At a frame boundary the device tries the records that wait (R364). -/
def State.retryRecords (s : State) : State :=
  s.pendRecs.foldl (fun s e => s.recordPrecise e.queue e.record) { s with pendRecs := [] }

/-- The MC of a watchpoint. -/
def State.watchMc (s : State) (w : Nat) : Nat := s.csrF (0xC98 + w) 22 9

/-- WATCHEV records for the watchpoints that a performed write touches, but for those of MC `own` (R378). `kind` and `who`
name the writer, `wmc` its MC when it has one (R366). (DEDUCED, log entry 33) -/
def State.watchEvents (s : State) (own : Option Nat) (kind who wmc pa n : Nat) : State :=
  ((s.watchHits pa n).filter fun w => some (s.watchMc w) ≠ own).foldl (init := s) fun s w =>
    let m := s.watchMc w
    let wordPa := max (pa / 8 * 8) (s.csrF (0xC90 + w) 47 0)
    let info := BitVec.ofNat 192 (wordPa + 2 ^ 48 * kind + 2 ^ 52 * who + 2 ^ 60 * wmc)
    s.recordAsync (s.queueOf m)
      (mkRecord ⟨0, 0, true, false, s.mcPart m, m, 0, 0, 0, 0, 0⟩ ⟨0x32, 0, 0, info⟩ s.time)

/-- A write of the device to what no access reaches before it: every later read finds it, and it is reported (R378). (DEDUCED, log entry 33) -/
def State.agentWrite (s : State) (kind who wmc : Nat) (t : LineTag) (pa : Nat) (bs : List Byte) : State :=
  ((s.putBytes t pa bs).settled pa bs.length).watchEvents none kind who wmc pa bs.length

/-- At the end of a step the writes of the device that a watchpoint names are reported (R378). (DEDUCED, log entry 33) -/
def State.reportTouched (s : State) : State :=
  if s.touched = [] then s
  else s.touched.foldl (fun s r => s.watchEvents none 5 0 0 r.1 r.2) { s with touched := [] }

end Sys2Proof.Machine
end

