-- ==== Sys2Proof/Machine/Weak.lean ====
section
/-! DEFINITION. The memory consistency model (R116 to R144): scopes (R120), which of the writes of a location a read may return (R118, R122,
R125), what releases carry and acquires learn (R121, R123), fences (R124), VCLOCK (R126). Every performed write stands in `State.hist` for two
frames (R98); a read returns the newest write of its location, or, as far as its agent may not have seen them yet, an older one. -/

namespace Sys2Proof.Machine

/-! ### Scopes (R120) -/

/-- Core, MC and group of an agent that runs on a core or was issued by one. -/
def Agent.place : Agent → Option (Nat × Nat × Nat)
  | .task c m g => some (c, m, g)
  | .cmd c m g _ => some (c, m, g)
  | _ => none

/-- Is an agent one of the package? -/
def Agent.inPackage : Agent → Bool
  | .host _ => false
  | .cxl => false
  | .peer _ => false
  | _ => true

/-- Does agent `b` lie within a scope of agent `a` (R120)? -/
def Agent.within (scope : Nat) (a b : Agent) : Bool :=
  let near (f : Nat × Nat × Nat → Nat × Nat) : Bool :=
    match a.place, b.place with
    | some p, some q => f p == f q
    | _, _ => false
  match scope with
  | 0 => a == b || match b with
    | .cmd _ _ _ _ => near fun p => (p.1, 0)
    | _ => false
  | 1 => a == b || near fun p => p.2
  | 2 => a == b || near fun p => (p.1 / 64, 0)
  | 3 => a.inPackage && b.inPackage
  | _ => true

/-- Do a release and an acquire of agent `b` at a scope reach each other (R123)? -/
def Rel.meets (r : Rel) (b : Agent) (scope : Nat) : Bool := r.agent.within r.scope b && b.within scope r.agent

/-- The executing task as an agent. -/
def State.me (s : State) : Agent := .task s.cur s.core.mcid s.core.grp

/-! ### Reads (R117, R118, R122, R125) -/

/-- Split a run of bytes at multiples of `g`: starts and lengths. -/
def pieces (g : Nat) : Nat → Nat → Nat → List (Nat × Nat)
  | 0, _, _ => []
  | fuel + 1, a, n =>
    if n = 0 then [] else
    let m := min n (g - a % g)
    (a, m) :: pieces g fuel (a + m) (n - m)

/-- Is an access at a VA one that is single-copy atomic only for each byte: a scalar one that is not naturally aligned (R117)? -/
def bytewise (va n : Nat) : Bool := decide (n ≤ 8) && va % n != 0

/-- The single-copy atomic units of a part of an access in one line (R117): of one that is not naturally aligned each byte; else all of a scalar,
of a run each naturally aligned 8-byte word. -/
def atoms (bytes : Bool) (pa n : Nat) : List (Nat × Nat) :=
  if bytes then (List.range n).map fun i => (pa + i, 1)
  else if [1, 2, 4, 8].contains n ∧ pa % n = 0 then [(pa, n)]
  else pieces 8 (n / 8 + 2) pa n

/-- Two sets of write numbers as one. -/
def addIds (a b : List Nat) : List Nat := a ++ b.filter fun i => !a.contains i

/-- The cells of a record within a run. -/
def WRec.within (w : WRec) (pa n : Nat) : List Host.Cell := w.cells.filter fun c => decide (pa ≤ c.1) && decide (c.1 < pa + n)

/-- The recorded writes to a run, the newest first, as far as they were made under its key. -/
def State.writesTo (s : State) (t : LineTag) (pa n : Nat) : List WRec :=
  if s.lineTagOf pa = tagAt t pa then s.hist.filter fun w => w.tag = t ∧ w.within pa n ≠ [] else []

/-- A run of bytes as it was before some writes, the newest of its writes first. -/
def priorBytes (ws : List WRec) (pa : Nat) (bs : List Byte) : List Byte :=
  ws.foldl (fun bs w => bs.mapIdx fun i b => (w.cells.find? fun c => c.1 = pa + i).elim b (·.2)) bs

/-- The releases of the writes that a read returns: those that no newer one has covered. -/
def relsOf (pa n : Nat) : List WRec → List Nat → List Rel
  | [], _ => []
  | w :: ws, seen =>
    let cs := (w.within pa n).map (·.1)
    (if cs.all seen.contains then [] else w.rels) ++ relsOf pa n ws (cs ++ seen)

/-- What a read that returns the newest of some writes has returned. -/
def gotOf (ws : List WRec) (pa n : Nat) : Got := ⟨ws.map (·.id), relsOf pa n ws []⟩

/-- A read at the home of a run: every write of its coherence order (R104, R119). -/
def State.gotHome (s : State) (t : LineTag) (pa n : Nat) : Got := gotOf (s.writesTo t pa n) pa n

/-- What a read event comes to: its bytes, the writes it has returned, and those newer ones that it goes behind. -/
structure Read where
  bytes : List Byte
  got : Got
  missed : List Nat
  deriving DecidableEq, Repr

/-- Two reads one after the other. -/
def Read.then (a b : Read) : Read :=
  ⟨a.bytes ++ b.bytes, ⟨addIds a.got.ids b.got.ids, a.got.rels ++ b.got.rels⟩, addIds a.missed b.missed⟩

/-- One read event of an agent that has seen some writes: it goes behind as many of the newest that it has not seen as a free value says,
none of them older than the frame before this one (R98, R122, R125). (DEDUCED, log entry 32) -/
def State.readAtom (s : State) (seen : List Nat) (who : Nat) (t : LineTag) (pa n : Nat) : Read :=
  let ws := s.writesTo t pa n
  let m := (ws.takeWhile fun w => !seen.contains w.id && decide (s.frame ≤ w.frame + 1)).length
  let h := if m = 0 then 0 else (Config.free 32 s.tick .order pa who).toNat % (m + 1)
  ⟨priorBytes (ws.take h) pa (s.rdBytes t pa n), gotOf (ws.drop h) pa n, (ws.take h).map (·.id)⟩

/-- A read of a run by an agent, unit by unit (R117). -/
def State.readRun (s : State) (seen : List Nat) (who : Nat) (t : LineTag) (pa n : Nat) (bytes : Bool := false) : Read :=
  if s.hist = [] then ⟨s.rdBytes t pa n, ⟨[], []⟩, []⟩
  else (atoms bytes pa n).foldl (fun r a => r.then (s.readAtom seen who t a.1 a.2)) ⟨[], ⟨[], []⟩, []⟩

/-! ### What a task knows -/

/-- The writes among some that a read could still go behind. -/
def State.alive (s : State) (ids : List Nat) : List Nat := ids.filter fun i => s.hist.any (·.id == i)

/-- The task has read: its later reads of the location do not go behind, and an acquire fence may take up what it has returned (R118, R122). -/
def State.saw (s : State) (g : Got) : State :=
  if g.ids = [] then s
  else s.onCore fun k =>
    let v := k.view
    { k with view := { v with seen := addIds v.seen g.ids, nt := v.nt.filter fun i => !g.ids.contains i,
                              got := ⟨addIds v.got.ids g.ids, v.got.rels ++ g.rels.filter fun r => !v.got.rels.contains r⟩ } }

/-- Some writes happen before every later event of the task (R125). -/
def State.learn (s : State) (ids : List Nat) : State :=
  let ids := s.alive ids
  if ids = [] then s
  else s.onCore fun k => { k with view := { k.view with seen := addIds k.view.seen ids, acq := addIds k.view.acq ids } }

/-- The writes that happen before a release of the task made now: non-temporal stores are left out (R122, R132). -/
def State.before (s : State) : List Nat := s.alive (s.core.view.seen.filter fun i => !s.core.view.nt.contains i)

/-- A release of the task at a scope, if there is something that it orders: at `.SYS` also writes to the host (R141). -/
def State.release (s : State) (scope : Nat) : List Rel := if s.before = [] ∧ scope ≠ 4 then [] else [⟨s.me, scope, s.before⟩]

/-- What a write of the task carries: its own release, if it is one, and those of the fences before it (R121, R122). -/
def State.writeRels (s : State) (scope : Option Nat) : List Rel := (scope.elim [] s.release) ++ s.core.view.rels

/-! ### The L1 at an acquire (R99, R100) -/

/-- The cores of a fused group, or the core alone (R100). -/
def State.l1Group (s : State) : List Nat :=
  let k := s.core
  if k.fused then
    let n := 2 ^ bits k.taskid.toNat 16 14
    (List.range n).map (s.cur / n * n + ·)
  else [s.cur]

/-- What an acquire at a scope does to the L1: nothing at `.CORE`; at `.GRP` and wider every line goes, in a fused L1 at
`.DIE` and wider (R99). -/
def State.dropL1 (s : State) (scope : Nat) : State :=
  if scope ≥ (if s.core.fused then 2 else 1) then
    s.l1Group.foldl (fun s n => s.setCoreAt n { s.coreAt n with l1 := [] }) s
  else s

/-! ### Acquires, releases and fences (R121 to R124) -/

/-- An acquire at `.SYS`: later reads refresh the lines of pooled memory (R144). -/
def State.freshCxl (s : State) (scope : Nat) : State :=
  if scope = 4 then s.onCore fun k => { k with view := { k.view with cxl := true } } else s

/-- An acquire of the task at a scope that has read `g`: what the releases with which it synchronises carry, and what it has read, happens
before its later events (R121, R123). -/
def State.acquire (s : State) (scope : Nat) (g : Got) : State :=
  ((s.dropL1 scope).learn (g.ids ++ (g.rels.filter (·.meets s.me scope)).flatMap (·.view))).freshCxl scope

/-- A `FENCE` of kind acquire: an acquire by every read before it (R122, R123). -/
def State.acquireFence (s : State) (scope : Nat) : State := s.acquire scope s.core.view.got

/-- Releases with a newer one of the same scope in the place of the older. -/
def renewed (new old : List Rel) : List Rel := new ++ old.filter fun r => new.all (·.scope != r.scope)

/-- A `FENCE` of kind release: the task's later writes carry what happens before it (R122). -/
def State.releaseFence (s : State) (scope : Nat) : State :=
  if s.release scope = [] then s
  else s.onCore fun k => { k with view := { k.view with rels := renewed (s.release scope) k.view.rels } }

/-- A full `FENCE`: both, and after every earlier full fence that it meets (R122, R124); every access of a later command comes after it too
(R123, R128). -/
def State.fullFence (s : State) (scope : Nat) : State :=
  let s := s.acquireFence scope
  let s := s.learn ((s.fences.filter (·.meets s.me scope)).flatMap (·.view) ++ s.before)
  let new := s.release scope
  { (s.releaseFence scope).onCore fun k => { k with view := { k.view with full := renewed new k.view.full } } with fences := s.fences ++ new }

/-- The release fences that the writes of a command issued now come after: with ACQ every one, else the full ones (R123, R128). -/
def State.issueRels (s : State) (acq : Bool) : List Rel := if acq then s.core.view.rels else s.core.view.full

/-- The writes that the accesses of a command issued now do not go behind (R128): with ACQ every event of the task before it, but for
non-temporal stores. -/
def State.issueView (s : State) (acq : Bool) : List Nat := if acq then s.before else s.alive s.core.view.acq

/-! ### Writes (R117, R118) -/

/-- The single-copy atomic units of what a task's store writes. -/
def unitsOf (cs : List Host.Cell) : List (List Host.Cell) :=
  let n := cs.length
  let a := (cs.head?.elim 0 (·.1))
  if [1, 2, 4, 8].contains n ∧ a % n = 0 ∧ (cs.getLast?.elim 0 (·.1)) = a + (n - 1) then [cs]
  else if n ≤ 8 then cs.map fun c => [c]
  else cs.foldr (fun c us => match us with
    | (d :: u) :: us => if c.1 / 8 = d.1 / 8 then (c :: d :: u) :: us else [c] :: (d :: u) :: us
    | us => [c] :: us) []

/-- What other requesters have written to bytes that this package now writes through to the pooled device (R144). -/
def State.overCxl (s : State) (hit : Nat → Bool) : State :=
  if s.cxl = [] then s
  else { s with cxl := (s.cxl.map fun w => { w with cells := w.cells.filter fun c => !hit c.1 }).filter fun w => w.cells ≠ [] }

/-- `s` is the state after a write to `units` under a key, `s0` the one before: the write is recorded, the last of a location's coherence
order (R118). -/
def State.recorded (s0 : State) (t : LineTag) (rels : List Rel) (units : List (List Host.Cell)) (s : State) : State :=
  let new : List WRec := units.mapIdx fun i cs => ⟨s0.writes + i, s0.frame, t, cs.map fun c => (c.1, s0.rdByte t c.1), rels⟩
  ({ s with hist := new.reverse ++ s0.hist, writes := s0.writes + units.length }.overCxl fun a => units.any fun u => u.any (·.1 == a)).wakeLines
    fun l => units.any fun u => u.any fun c => c.1 / 64 == l

/-- The numbers of the writes made since a state. -/
def State.madeSince (s s0 : State) : List Nat := (List.range (s.writes - s0.writes)).map (s0.writes + ·)

/-- The task has made some writes (R118, R132). -/
def State.wrote (s : State) (nt : Bool) (ids : List Nat) : State :=
  if ids = [] then s
  else s.onCore fun k =>
    { k with view := { k.view with seen := k.view.seen ++ ids, nt := if nt then k.view.nt ++ ids else k.view.nt } }

/-- A write to a tier by an agent that is not a task of the watched job, recorded: performed, then reported (R118, R378). -/
def State.payWrite (s : State) (kind who wmc : Nat) (rels : List Rel) (t : LineTag) (pa : Nat) (bs : List Byte) : State :=
  ((s.recorded t rels (unitsOf (bs.mapIdx fun i b => (pa + i, b))) (s.putBytes t pa bs))).watchEvents none kind who wmc pa bs.length

/-! ### Pooled memory (R144) -/

/-- The home slice reads a line of the pooled device again: what other requesters have written to it is written. Answers the numbers of the
writes. -/
def State.refreshLine (s : State) (line : Nat) : List Nat × State :=
  if s.cxl = [] then ([], s)
  else
    let mine (w : CxlWrite) : Bool := w.cells.any fun c => c.1 / 64 == line
    let s1 := (s.cxl.filter mine).foldl (init := { s with cxl := s.cxl.filter fun w => !mine w }) fun s w =>
      s.recorded (s.lineTagOf (64 * line)) [⟨.cxl, 4, []⟩] (w.cells.map fun c => [c])
        (w.cells.foldl (fun s c => s.wrByte (s.lineTagOf (64 * line)) c.1 c.2) s)
    (s1.madeSince s, s1)

/-- A read of the task in pooled memory, of the lines of a run, after an acquire at `.SYS`. -/
def State.taskRefresh (s : State) (pa n : Nat) : State :=
  if s.cxl = [] ∨ tierOf pa ≠ 3 ∨ !s.core.view.cxl then s
  else (List.range ((pa % 64 + n + 63) / 64)).foldl (init := s) fun s i =>
    let (ids, s) := s.refreshLine (pa / 64 + i)
    s.learn ids

/-! ### VCLOCK (R126) -/

/-- A request that crosses from a die to another carries the sender's clock: how the entries count the rules leave open. (DEDUCED, log entry 17) -/
def State.crosses (s : State) (from_ pa : Nat) : State :=
  let d := homeDie pa
  if d = from_ then s
  else
    let put (s : State) (die e : Nat) : State :=
      { s with vclock := s.vclock.insert (4 * die + e) (Config.free 32 s.tick .counter (4 * die + e) s.writes) }
    put (put (put s from_ from_) d from_) d d

end Sys2Proof.Machine
end

