-- ==== Sys2Proof/Machine/Access.lean ====
section
/-! DEFINITION. The global accesses of a task: loads through the L1 (R97 to R100), stores with the region store buffer
(R127) and non-temporal stores (R132, R133), acquire and release (R121, R99), the host window (R328, R141). -/

namespace Sys2Proof.Machine

/-- The core whose L1 holds a line: the task's own, or the member that the hash names in a fused group (R100). -/
def State.l1Home (s : State) (pa : Nat) : Nat :=
  let k := s.core
  if k.fused then
    let n := 2 ^ bits k.taskid.toNat 16 14
    s.cur / n * n + foldXor pa % n
  else s.cur

/-- The recorded writes to a run that an L1 line holds. -/
def L1Line.holds (e : L1Line) (ws : List WRec) : List WRec := ws.filter fun w => (decide (w.id < e.upto) && !e.lacks.contains w.id) || e.has.contains w.id

/-- What a load of a run may read from an L1 line: one filled in this frame or the one before (R98), that is still held and that holds every
write which the task may not read behind (R118, R125). (DEDUCED, log entries 12, 32) -/
def State.l1Hit (s : State) (t : LineTag) (pa n : Nat) : Option Read :=
  match (s.coreAt (s.l1Home pa)).l1.find? (pa / 64) with
  | none => none
  | some e =>
    let ws := s.writesTo t pa n
    let held := e.holds ws
    if s.frame ≤ e.frame + 1 ∧ (Config.free 1 s.tick .l1 (pa / 64) s.cur) = 1 ∧ ws.all fun w => !s.core.view.seen.contains w.id || held.contains w then
      some ⟨(List.range n).map fun i => e.data.extractLsb' (8 * ((pa + i) % 64)) 8, gotOf held pa n, []⟩
    else none

/-- The frame from which the age of a line counts that is filled now without some writes: that of the oldest of them, so that no load is served
from it later than the frame after that write's (R98). -/
def State.fillFrame (s : State) (lacks : List Nat) : Nat :=
  (s.hist.filter fun w => lacks.contains w.id).foldl (fun f w => min f w.frame) s.frame

/-- The line of an address filled from its home slice, without the writes of `lacks` (R97); a slice that holds its 4,096 lines gives one up,
which one the spec leaves open. -/
def State.l1Fill (s : State) (t : LineTag) (pa : Nat) (lacks : List Nat) : State :=
  let n := s.l1Home pa
  let k := s.coreAt n
  let a := pa / 64 * 64
  let bs := priorBytes (s.hist.filter fun w => lacks.contains w.id) a (s.rdBytes t a 64)
  let l := if k.l1.length < 4096 then k.l1 else (k.l1.erase (pa / 64)).eraseIdx ((Config.free 32 s.tick .l1 n k.l1.length).toNat % 4096)
  s.setCoreAt n { k with l1 := l.insert (pa / 64) ⟨BitVec.ofNat 512 (ofBytes bs), s.fillFrame lacks, s.writes, lacks, []⟩ }

/-- A line leaves the L1 (R97). -/
def State.l1Drop (s : State) (pa : Nat) : State :=
  let n := s.l1Home pa
  let k := s.coreAt n
  s.setCoreAt n { k with l1 := k.l1.erase (pa / 64) }

/-- A store that hits updates the L1 line (R97); `id` is its write's number. -/
def State.l1Update (s : State) (id pa : Nat) (b : Byte) : State :=
  let n := s.l1Home pa
  let k := s.coreAt n
  match k.l1.find? (pa / 64) with
  | none => s
  | some e =>
    let d := BitVec.ofNat 512 (setBits e.data.toNat (8 * (pa % 64) + 7) (8 * (pa % 64)) b.toNat)
    s.setCoreAt n { k with l1 := k.l1.insert (pa / 64) { e with data := d, has := addIds e.has [id] } }

/-- One byte of device memory as the task reads it: its own held and pending stores first, the latest last (R127, R132). -/
def Core.overlay (k : Core) (pa : Nat) (b : Byte) : Byte :=
  ((k.ntq ++ k.held).filter (·.host.isNone)).foldl (fun b h => (h.cells.find? fun c => c.1 = pa).elim b (·.2)) b

/-- Has the task a non-temporal store to a run of device memory that is not performed yet? -/
def Core.owesDev (k : Core) (pa n : Nat) : Bool :=
  k.ntq.any fun h => h.host.isNone && h.cells.any fun c => decide (pa ≤ c.1) && decide (c.1 < pa + n)

/-- Is some line of a run poisoned? Then the access consumes it (R416). (DEDUCED, log entry 83) -/
def needClean (pa n : Nat) : M Unit := do
  match (← get).poisoned pa n with
  | some l => M.stop (.fault (uncorrectable l))
  | none => pure ()

/-- Does a run of bytes reach into the host window (R48)? -/
def meetsHost (va n : Nat) : Bool := inHost (va % 2 ^ 52) || inHost ((va + n - 1) % 2 ^ 52)

/-- How far an access may run in one translation: a page, in the host window one of the host (R16, R48). -/
def pageStep (va : Nat) : Nat := if inHost (va % 2 ^ 52) then 4096 else 65536

/-- A run split into what one translation covers. -/
def pagePieces (va n : Nat) : List (Nat × Nat) := pieces (pageStep va) (n / 4096 + 2) va n

/-- The pages of a task's access, translated in ascending order of their addresses (R327): each with its bytes' place. -/
def xlatePages (va n : Nat) (acc : Access) : M (List (Loc × Nat)) :=
  (pagePieces va n).mapM fun (a, m) => do
    let l ← xlateTask (a % 2 ^ 52) acc
    pure (l, m)

/-! ### The host (R48, R141, R328) -/

/-- Which access of an agent a host request serves: its ASID, its address, its length, and the AtomicOp, or 3 for a read. -/
def hostKey (asid va len kind : Nat) : Nat := va % 2 ^ 52 + 2 ^ 52 * asid + 2 ^ 62 * kind + 2 ^ 65 * len

/-- Does a key name a read? -/
def isReadKey (key : Nat) : Bool := bits key 64 62 == 3

/-- What the host has delivered for an access of an agent: a core, or another (`Given`). -/
def State.hostGiven (s : State) (who key : Nat) : Option (List Byte) :=
  if who < 256 then ((s.coreAt who).issue.given.find? fun g => g.1 = key).map (·.2)
  else (s.given.find? fun g => g.agent = who ∧ g.key = key).map (·.data)

/-- What an access in the host window has got from the host: an access whose request is out is waited for, and is not translated again,
whatever an invalidation has removed meanwhile (R51). -/
def hostHas (who asid va len kind : Nat) : M (Option (List Byte)) := do
  if !inHost (va % 2 ^ 52) then pure none
  else
    let s ← get
    let key := hostKey asid va len kind
    match s.hostGiven who key with
    | some bs => pure (some bs)
    | none =>
      match s.hostReqs.find? fun q => q.core = who ∧ q.key = key with
      | some q => M.stop (.stall (.host q.id))
      | none => pure none

/-- Has the executing task a store to bytes of the host that is not sent yet? -/
def Core.owesHost (k : Core) (fn pasid addr n : Nat) : Bool :=
  (k.ntq ++ k.held).any fun h => match h.host with
    | none => false
    | some p => p.fn == fn && p.pasid == pasid && h.cells.any fun c => decide (addr ≤ c.1) && decide (c.1 < addr + n)

/-- A read or an AtomicOp is sent to the host for an agent, at its translated address, and waited for (R141). Stores of a task to the same bytes
are sent before (R118); the translation is used, and with it what a page request has led to (R50). -/
def hostAsk {α : Type} (who asid va fn pasid addr xaddr len kind : Nat) (a b : Dword) : M α := do
  let s ← get
  let owes := decide (who < 256) && s.core.owesHost fn pasid addr len
  M.stop (.stall (.host s.nextId)) <|
    (if owes then [Post.hostOut] else []) ++ [.priUsed fn pasid (addr / 4096) (if who < 256 then s.asker else who),
      .host who fn pasid addr xaddr len kind a b (hostKey asid va len kind)]

/-- Where the bytes of a read come from: a place; or what the host has delivered for it already. -/
inductive Src where
  | place (l : Loc)
  | data (bs : List Byte)
  deriving DecidableEq, Repr

/-- The source of a read of an agent, whose translation is given. -/
def srcOf (who asid va n : Nat) (xl : M Loc) : M Src := do
  match ← hostHas who asid va n 3 with
  | some bs => pure (.data bs)
  | none => pure (.place (← xl))

/-- A read from its source: `dev` reads device memory. -/
def Src.read {α : Type} (x : Src) (who asid va n : Nat) (dev : Nat → LineTag → M α) (host : List Byte → α) : M α :=
  match x with
  | .data bs => pure (host bs)
  | .place (.dev pa t) => dev pa t
  | .place (.host fn pasid addr xaddr) => hostAsk who asid va fn pasid addr xaddr n 3 0 0

/-- The sources of a read of the executing task, in ascending order of their addresses (R327). -/
def srcPages (va n : Nat) : M (List (Src × Nat × Nat)) := do
  let s ← get
  (pagePieces va n).mapM fun (a, m) => do
    let x ← srcOf s.cur s.core.asid a m (xlateTask (a % 2 ^ 52) .read)
    pure (x, a, m)

/-! ### Stores -/

/-- The poison of a line that a set of written bytes covers whole is cleared (R416). -/
def State.cleanLines (s : State) (cs : List Host.Cell) : State :=
  let whole (l : Nat) : Bool := (cs.filter fun c => c.1 / 64 == l).length == 64
  if s.poison = [] then s else { s with poison := s.poison.filter fun e => !whole e.1 }

/-- The runs of bytes that lie next to each other in a set of cells. -/
def runsOf (cs : List Host.Cell) : List (List Host.Cell) :=
  cs.foldr (fun c rs => match rs with
    | (d :: r) :: rs => if c.1 + 1 = d.1 then (c :: d :: r) :: rs else [c] :: (d :: r) :: rs
    | rs => [c] :: rs) []

/-- A posted write to the host (R48, R141): Relaxed Ordering is cleared on a completion word and on a release at `.SYS`; another payload write
may carry it, which is a free choice. (DESIGN CHOICE, log entry 86) -/
def State.postHost (s : State) (fn xaddr : Nat) (bs : List Byte) (ep ordered : Bool) : State :=
  { s with out := .hostWrite fn xaddr bs ep (!ordered && (Config.free 1 s.tick .order xaddr (fn + 2 ^ 64)) == 1) :: s.out }

/-- Is a release at `.SYS` among some? -/
def anySys (rs : List Rel) : Bool := rs.any (·.scope == 4)

/-- The single-copy atomic units of a store (R117). -/
def Held.units (h : Held) : List (List Host.Cell) := if h.bytewise then h.cells.map fun c => [c] else unitsOf h.cells

/-- The cells of a store to the host, sent run by run; `ep` tells that they are poisoned (R416). -/
def State.sendHeld (s : State) (p : HostTo) (h : Held) (ep : Bool := false) : State :=
  (runsOf h.cells).foldl (init := s) fun s r =>
    s.postHost p.fn (4096 * p.xpage + (r.head?.elim 0 (·.1)) % 4096) (r.map (·.2)) ep (anySys h.rels)

/-- The bytes of a store in device memory written to their homes, and recorded; `l1` tells that it goes through the L1 (R97). -/
def State.writeHeld (s : State) (l1 : Bool) (h : Held) : State :=
  let us := h.units
  let s1 := (h.cells.foldl (fun s c => s.wrByte h.tag c.1 c.2) s).cleanLines h.cells
  let s1 := (s.recorded h.tag h.rels us s1).crosses s.die (h.cells.head?.elim 0 (·.1))
  if l1 then (us.mapIdx fun i u => (i, u)).foldl (fun s1 (i, u) => u.foldl (fun s1 c => s1.l1Update (s.writes + i) c.1 c.2) s1) s1 else s1

/-- A held store takes place (R127): written through to its home, or sent to the host. -/
def State.performHeld (s : State) (h : Held) : State :=
  match h.host with
  | some p => s.sendHeld p h
  | none =>
    match h.cells with
    | [] => s
    | c :: _ =>
      let s1 := s.writeHeld true h
      (s1.wrote h.nt (s1.madeSince s)).watchEvents (some s.core.mcid) 0 s.cur s.core.mcid c.1 h.cells.length

/-- The numbers that the writes of some held stores get, which are performed next. -/
def State.nextIds (s : State) (hs : List Held) : List Nat :=
  (hs.foldl (init := (s.writes, [])) fun (n, ids) h =>
    if h.host.isSome then (n, ids)
    else
      let m := h.units.length
      (n + m, if h.nt then ids else ids ++ (List.range m).map (n + ·))).2

/-- Every held store leaves the buffer, in order, and every held release command starts, with the stores before it (R127, R129). -/
def State.letOut (s : State) : State :=
  let start (c : Cmd) : Cmd :=
    if c.core = s.cur ∧ c.held then { c with held := false, before := c.before ++ s.nextIds (s.core.held.take c.heldN) } else c
  let s := (s.core.held.foldl State.performHeld s).onCore fun k => { k with held := [] }
  { s with cmds := s.cmds.map start }

/-- Every non-temporal store is performed (R133). -/
def State.drainNt (s : State) : State :=
  (s.core.ntq.foldl State.performHeld s).onCore fun k => { k with ntq := [] }

/-- Before a task reads a run at which it has a non-temporal store pending, its non-temporal stores are performed: what the read returns is then
known to its later events (R125, R132). (DEDUCED, log entry 32) -/
def State.readReady (s : State) (pa n : Nat) : State := (if s.core.owesDev pa n then s.drainNt else s).taskRefresh pa n

/-- `n` bytes within one line for a plain load, through the L1 (R97, R98), with what they return; `bytes` tells that each is a unit of its own
(R117). -/
def loadLine (t : LineTag) (pa n : Nat) (bytes : Bool) : M (List Byte × Got) := do
  needClean pa n
  M.change (·.readReady pa n)
  let s ← get
  let r := match s.l1Hit t pa n with
    | some r => r
    | none => s.readRun s.core.view.seen s.cur t pa n bytes
  set (if (s.l1Hit t pa n).isSome then s else s.l1Fill t pa r.missed)
  M.change (·.saw r.got)
  pure (r.bytes.mapIdx fun i b => s.core.overlay (pa + i) b, r.got)

/-- The place of a run in device memory, read by the task at its home slices and not through the L1 (R97), with what it returns. The read of a
`RED` is none that an agent observes (R119). -/
def readHome (t : LineTag) (pa n : Nat) (observed : Bool := true) : M (List Byte × Got) := do
  M.change (·.readReady pa n)
  let s ← get
  let g := s.gotHome t pa n
  if observed then M.change (·.saw g)
  pure ((s.rdBytes t pa n).mapIdx fun i b => s.core.overlay (pa + i) b, g)

/-- The bytes of a load (R328): device lines through the L1, host data from the host on every access; with what they return. -/
def loadEvent (va n : Nat) : M (List Byte × Got) := do
  let xs ← srcPages va n
  let s ← get
  let rs ← xs.mapM fun (x, a, m) =>
    x.read s.cur s.core.asid a m (fun pa t => do
      let parts ← (pieces 64 (m / 64 + 2) pa m).mapM fun (a, k) => loadLine t a k (bytewise va n)
      pure ((parts.map (·.1)).flatten, (⟨parts.flatMap (·.2.ids), parts.flatMap (·.2.rels)⟩ : Got)))
      fun bs => (bs, ⟨[], []⟩)
  pure ((rs.map (·.1)).flatten, ⟨rs.flatMap (·.2.ids), rs.flatMap (·.2.rels)⟩)

/-- The bytes of a load. -/
def loadBytes (va n : Nat) : M (List Byte) := do
  let r ← loadEvent va n
  pure r.1

/-- `DRAINNT` at a scope: every non-temporal store is performed, and a fence of kind release covers them (R133). -/
def State.drainFence (s : State) (scope : Nat) : State :=
  (s.drainNt.onCore fun k => { k with view := { k.view with nt := [] } }).releaseFence scope

/-- Cases 2 to 4 of R127: the held stores leave, and the region is no longer restartable. -/
def State.endRegion (s : State) : State := s.letOut.onCore fun k => { k with restart := false }

/-- Do two stores touch the same byte? -/
def Held.meets (a b : Held) : Bool :=
  a.host == b.host && a.cells.any fun c => b.cells.any fun d => c.1 == d.1

/-- A store event of the task whose pages are translated: held in the region buffer, or pending as a non-temporal store, or
performed. Which, where the spec says "may", is a free choice; stores to one task's locations keep their order (R118).
(DEDUCED, log entries 14, 32) -/
def State.storeEvent (s : State) (nt : Bool) (h : Held) : State :=
  let k := s.core
  let bit := Config.free 1 s.tick .hold (h.cells.head?.elim 0 (·.1)) s.cur
  let older := k.ntq.any h.meets
  if k.restart && (k.held != [] || bit == 1) then
    let s := if older then s.drainNt else s
    if k.held.length < 256 then s.onCore fun k => { k with held := k.held ++ [h] } else s.endRegion.performHeld h
  else if nt && (bit == 1 || older) then s.onCore fun k => { k with ntq := k.ntq ++ [h] }
  else if older then s.drainNt.performHeld h
  else s.performHeld h

/-- A write by the job's own store to a byte that a watchpoint of its MC names raises WATCH, and is not performed (R378). -/
def needUnwatched (va pa n : Nat) : M Unit := do
  let s ← get
  M.need (!(s.watchHits pa n).any fun w => s.watchMc w == s.core.mcid) (.fault ⟨0x30, 0, 0, vaInfo va true false⟩)

/-- The cells of a run of bytes. -/
def cellsAt (pa : Nat) (bs : List Byte) : List Host.Cell := bs.mapIdx fun i b => (pa + i, b)

/-- A store of the task as it stands before it takes place: `rel` is the scope of its release, if it is one; `bytes` tells that each byte is a
unit of its own (R117). -/
def State.heldOf (s : State) (l : Loc) (asid : Nat) (nt : Bool) (rel : Option Nat) (bs : List (Nat × Byte)) (bytes : Bool := false) : Held :=
  match l with
  | .dev pa t => ⟨bs.map fun b => (pa + b.1, b.2), t, none, asid, nt, s.writeRels rel, bytes⟩
  | .host fn pasid addr xaddr =>
    ⟨bs.map fun b => (addr + b.1, b.2), .plain, some ⟨fn, pasid, addr / 4096, xaddr / 4096⟩, asid, nt, s.writeRels rel, bytes⟩

/-- The bytes of a run, each with its offset. -/
def offsets (bs : List Byte) : List (Nat × Byte) := bs.mapIdx fun i b => (i, b)

/-- Translate and store bytes of the task (R327): every page is translated before anything is written. `rel` is the scope of a store that is
a release. -/
def storeBytes (va : Nat) (bs : List Byte) (nt : Bool) (rel : Option Nat) : M Unit := do
  let n := bs.length
  let ls ← xlatePages va bs.length .write
  let _ ← ls.foldlM (init := 0) fun i (l, m) => do
    match l with
    | .dev pa _ => needUnwatched (va + i) pa m
    | .host _ _ _ _ => pure ()
    pure (i + m)
  let _ ← ls.foldlM (init := bs) fun bs (l, m) => do
    M.change fun s => s.storeEvent nt (s.heldOf l s.core.asid nt rel (offsets (bs.take m)) (bytewise va n))
    pure (bs.drop m)
  pure ()

end Sys2Proof.Machine
end

