-- ==== Sys2Proof/Machine/KvWalk.lean ====
section
/-! DEFINITION. The KV space: sequence descriptors and first-stage tables (R55 to R58), the global block table (R59, R60), the
two-stage walk (R62), pins (R62, R75). -/

namespace Sys2Proof.Machine

/-- The address of a sequence descriptor in the table of an MC, or none beyond the table or without one (R55, R147). -/
def State.seqPa (s : State) (mc seq : Nat) : Option Nat :=
  let r := s.mcbF mc 191 128
  if r = 0 ∨ seq ≥ 2 ^ bits r 4 0 then none else some (bits r 47 12 * 4096 + 64 * seq)

/-- The first-stage level-1 table of a descriptor lies in memory of its partition. A descriptor that its supervisor has written over leads
nowhere else (R56, R11). (DESIGN CHOICE, log entry 91) -/
def State.rootOk (s : State) (part root : Nat) : Bool := root % 2048 == 0 && s.frameValid part root

/-- A field of a sequence descriptor (R56). -/
def State.seqF (s : State) (d hi lo : Nat) : Nat := bits (s.rd d 64) hi lo
/-- A field of a sequence descriptor written: a poison marker stays (R416). -/
def State.setSeqF (s : State) (d hi lo v : Nat) : State := { s.wr d (setBits (s.rd d 64) hi lo v) 64 with poison := s.poison }

/-- Block bytes of a block size code (R54, R56). -/
def blockBytes (bsz : Nat) : Nat := 16384 * 2 ^ bsz
/-- Row bytes of a block size code (R54). -/
def rowBytes (bsz : Nat) : Nat := blockBytes bsz / 128

/-- The address of a GBT entry, or none out of range (R59). -/
def State.gbtPa (s : State) (gbn : Nat) : Option Nat :=
  if s.csrF (0x058 + gbn % 4) 29 0 ≤ gbn / 4 then none else some (s.csrF (0x054 + gbn % 4) 47 0 + 32 * (gbn / 4))

/-- A field of a GBT entry (R60). -/
def State.gbtF (s : State) (g hi lo : Nat) : Nat := bits (s.rd g 32) hi lo
/-- A field of a GBT entry written (R60). -/
def State.setGbtF (s : State) (g hi lo v : Nat) : State := s.wr g (setBits (s.rd g 32) hi lo v) 32

/-- The index of a first-stage level (R57). -/
def stageIndex (lvl layer head block : Nat) : Nat :=
  match lvl with
  | 1 => layer
  | 2 => head
  | 3 => bits block 17 9
  | _ => bits block 8 0

/-- Does the table that an entry of a first-stage level names lie whole in memory of the partition, aligned to its size (R57, R11)? -/
def State.stageOk (s : State) (part lvl nta : Nat) : Bool :=
  let n := if lvl = 1 then 2048 else 4096
  nta % n == 0 && s.frameValid part nta

/-- What a first-stage walk ends with: the address of the leaf, an outcome, or an entry on a poisoned line (R416). -/
inductive StageOut where
  | leaf (a : Nat)
  | out (code : Nat)
  | bad (line : Nat)
  deriving DecidableEq, Repr

/-- The first stage from a table at a level down (R57, R62): the address of the leaf, or the outcome 0x13 or 0x14; `fuel`
levels are left below this one. -/
def State.stageWalk (s : State) (part layer head block : Nat) : Nat → Nat → Nat → StageOut
  | lvl, t, 0 =>
    match s.poisoned (t + 8 * stageIndex lvl layer head block) 8 with
    | some l => .bad l
    | none => .leaf (t + 8 * stageIndex lvl layer head block)
  | lvl, t, fuel + 1 =>
    let e := s.rd (t + 8 * stageIndex lvl layer head block) 8
    match s.poisoned (t + 8 * stageIndex lvl layer head block) 8 with
    | some l => .bad l
    | none =>
    if bit e 0 = false then .out 0x13
    else if !s.stageOk part lvl (bits e 47 11 * 2048) then .out 0x14
    else s.stageWalk part layer head block (lvl + 1) (bits e 47 11 * 2048) fuel

/-- What a KV walk ends with: a place; a block of another package; an outcome with the CHIP and GBN it had reached; an entry on a
poisoned line (R416). -/
inductive KvOut where
  | hit (gbt gbn bsz loc kslot : Nat)
  | remote (chip gbn bsz : Nat)
  | out (code chip gbn : Nat)
  | bad (line : Nat)
  deriving DecidableEq, Repr

/-- Decrements held for owners that can be reached again are sent, in order (R80). -/
def State.sendDecs (s : State) : State :=
  let (up, rest) := s.decs.partition fun d => s.peerUp d.1
  { s with decs := rest, out := (up.map (·.2)).reverse ++ s.out }

/-- A decrement or a pin release leaves for an owner; one that cannot be sent is held, in order (R80). -/
def State.sendOwner (s : State) (fab : Nat) (m : OutMsg) : State :=
  if s.peerUp fab ∧ !s.decs.any (·.1 == fab) then { s with out := m :: s.out } else { s with decs := s.decs ++ [(fab, m)] }

/-- What this package asks of a block of another one: an operation, the GBN, an argument. The bytes are the model's own.
(DESIGN CHOICE, log entry 39) -/
def kvAsk (op gbn arg : Nat) : List Byte := toBytes 1 op ++ toBytes 8 gbn ++ toBytes 8 arg

/-- The second stage on this package's GBT (R59, R62). -/
def State.gbtWalk (s : State) (part chip gbn bsz : Nat) : KvOut :=
  match s.gbtPa gbn with
  | none => .out 0x14 chip gbn
  | some g =>
    match s.poisoned g 32 with
    | some l => .bad l
    | none =>
    if s.gbtF g 46 42 ≠ part then .out 0x14 chip gbn
    else if s.gbtF g 3 2 = 0 then .out 0x16 chip gbn
    else if s.gbtF g 5 5 = 1 then .out 0x18 chip gbn
    else if s.gbtF g 3 2 ≠ 1 then .out 0x15 chip gbn
    else .hit g gbn bsz (s.gbtF g 111 64) (s.gbtF g 41 32)

/-- kv_translate of R62, without the wait of a pin. `checkLen`: a read, which sees only positions below LEN. -/
def State.kvWalk (s : State) (mc seq layer head pos : Nat) (checkLen : Bool) : KvOut :=
  match s.seqPa mc seq with
  | none => .out 0x11 0 0
  | some d =>
    match s.poisoned d 64 with
    | some l => .bad l
    | none =>
    let part := s.mcPart mc
    if s.seqF d 0 0 = 0 then .out 0x11 0 0
    else if layer > s.seqF d 15 8 ∨ head > s.seqF d 23 16 ∨ pos > 16777215 then .out 0x12 0 0
    else if checkLen ∧ pos ≥ s.seqF d 48 24 then .out 0x12 0 0
    else if !s.rootOk part (s.seqF d 111 64) then .out 0x14 0 0
    else match s.stageWalk part layer head (pos / 64) 1 (s.seqF d 111 64) 3 with
      | .out c => .out c 0 0
      | .bad l => .bad l
      | .leaf a =>
        let e := s.rd a 8
        if bit e 0 = false then .out 0x13 0 0
        else
          let chip := bits e 11 4
          let gbn := bits e 43 12
          if chip ≠ s.fabId then
            (if s.fabV && !s.linksDown.contains (.peer chip) then .remote chip gbn (s.seqF d 2 1) else .out 0x17 chip gbn)
          else s.gbtWalk part chip gbn (s.seqF d 2 1)

/-- INFO of the KV causes (R366). -/
def kvInfo (seq layer head pos chip gbn : Nat) : BitVec 192 :=
  BitVec.ofNat 192 (seq + 2 ^ 20 * layer + 2 ^ 28 * head + 2 ^ 36 * pos + 2 ^ 60 * chip + 2 ^ 68 * gbn)

/-- The cause of a KV walk outcome (R62, R72). -/
def kvCause (code : Nat) : Nat :=
  match code with
  | 0x15 => 0x12
  | 0x17 => 0x21
  | 0x18 => 0x20
  | _ => 0x13

/-! ### Pools (R66) -/

/-- The descriptor of a KV pool of a partition, if its pools are installed. -/
def State.kvPool (s : State) (p k : Nat) : Option Nat :=
  let c := s.csrN (0x090 + p)
  if bit c 0 then some (bits c 47 6 * 64 + 32 * k) else none

/-- A ring of a pool descriptor: RING, SIZE, HEAD, TAIL. -/
def State.ring (s : State) (d : Nat) : Nat × Nat × Nat × Nat :=
  (bits (s.rd d 8) 47 0, s.rd (d + 8) 4, s.rd (d + 12) 4, s.rd (d + 16) 4)

/-- Do a pool descriptor and a slot of its ring lie in memory of the partition? A pool that its supervisor has placed elsewhere counts as
empty and as full, and nothing is written there (R66, R380, R11). (DESIGN CHOICE, log entry 91) -/
def State.slotOk (s : State) (p d i : Nat) : Bool := s.rangeValid p d 32 && s.rangeValid p ((s.ring d).1 + 8 * i) 8

/-- Take an entry from the head of a pool (R66). -/
def State.poolTake (s : State) (p d : Nat) : Option (Nat × State) :=
  let (ring, size, head, tail) := s.ring d
  if head = tail ∨ !s.slotOk p d head then none
  else some (s.rd (ring + 8 * head) 8, s.wr (d + 12) (if head + 1 = size then 0 else head + 1) 4)

/-- An entry is rejected or dropped: LOST rises. -/
def State.poolLost (s : State) (p d : Nat) : State := if s.rangeValid p d 32 then s.wr (d + 20) (s.rd (d + 20) 4 + 1) 4 else s

/-- Add an entry at the tail of a pool; a full pool drops it (R66). -/
def State.poolPut (s : State) (p d v : Nat) : State :=
  let (ring, size, head, tail) := s.ring d
  let next := if tail + 1 = size then 0 else tail + 1
  if next = head ∨ !s.slotOk p d tail then s.poolLost p d else (s.wr (ring + 8 * tail) v 8).wr (d + 16) next 4

/-- Bytes of a logical block of a namespace. -/
def lbaBytes (nsid : Nat) : Nat := 512 * (Config.nvmeBlock nsid + 1)
/-- Where a logical block of a namespace stands in the model's store. (DESIGN CHOICE, log entry 21) -/
def nvmeAt (nsid lba : Nat) : Nat := nsid * 2 ^ 100 + lba * lbaBytes nsid

/-- Logical blocks of a KV block on a namespace. -/
def blockLbas (bsz ns : Nat) : Nat := (blockBytes bsz + lbaBytes ns - 1) / lbaBytes ns

/-- May an entry stand in a pool of a partition (R71): a GBN of its range whose entry is FREE, an aligned frame of its memory, LBAs of its
namespace, a buffer VA? (DESIGN CHOICE, log entry 38) -/
def State.entryOk (s : State) (p k d v : Nat) : Bool :=
  if k = 0 then (match s.gbtPa (v % 2 ^ 32) with
    | some g => s.holds p 4 (v % 2 ^ 32) && s.gbtF g 3 2 == 0
    | none => false)
  else if k ≤ 9 then v % blockBytes ((k - 1) % 3) == 0 && s.rangeValid p v (blockBytes ((k - 1) % 3))
  else if k ≤ 12 then
    let ns := s.rd (d + 24) 4
    let n := blockLbas ((k - 1) % 3) ns
    s.holds p 7 ns && v % n == 0 && decide (v + n ≤ Config.nvmeBlocks ns)
  else if k = 13 then v % 4096 == 0 && s.rangeValid p v 4096
  else v % 64 == 0 && decide (v < 2 ^ 52)

/-- May an entry at the head of a pool be used: what R71 would have rejected is not reached (R379). The root's pools are taken from as they
stand. (DESIGN CHOICE, log entry 91) -/
def State.takeOk (s : State) (p k d v : Nat) : Bool := p == 16 || s.entryOk p k d v

/-- Take from a KV pool. While the entry at its head may not be used the pool counts as empty (R11). (DESIGN CHOICE, log entry 91) -/
def State.kvTake (s : State) (p k : Nat) : Option (Nat × State) :=
  match s.kvPool p k with
  | none => none
  | some d => (s.poolTake p d).filter fun r => s.takeOk p k d r.1

/-- Return an entry to a KV pool. While the pools are not installed it is dropped, and nothing counts it: R66 speaks of takes and of full pools
only. (DESIGN CHOICE, log entry 91) -/
def State.kvPut (s : State) (p k v : Nat) : State :=
  match s.kvPool p k with
  | none => s
  | some d => s.poolPut p d v

/-! ### Blocks: release and moves (R69, R80, R84) -/

/-- The count of blocks under a key slot (R65). -/
def State.countBlock (s : State) (slot : Nat) (up : Bool) : State :=
  let n := FMap.get 0 s.kvCount slot
  { s with kvCount := s.kvCount.set 0 slot (if up then n + 1 else n - 1) }

/-- A block whose last reference has gone becomes FREE once PIN = 0 and no move is in progress: its GBN and its frame return to
the pools of its partition (R80). (DEDUCED, log entry 78) -/
def State.settleBlock (s : State) (gbn : Nat) : State :=
  match s.gbtPa gbn with
  | none => s
  | some g =>
    let e := s.rd g 32
    if bits e 3 2 = 0 ∨ bits e 31 16 ≠ 0 ∨ bits e 59 48 ≠ 0 ∨ s.moves.any (·.gbn == gbn) then s
    else
      let p := bits e 46 42
      let s := (s.wr g (setBits e 3 2 0) 32).countBlock (bits e 41 32) false
      (s.kvPut p 0 gbn).kvPut p (1 + 3 * bits e 1 0 + bits e 131 130) (bits e 127 64)

/-! ### Pins and rows (R62, R75, R321) -/

/-- PIN of a block raised, for a stream that does not hold it yet (R62). -/
def State.pinBlock (s : State) (g : Nat) : State := s.setGbtF g 59 48 (s.gbtF g 59 48 + 1)

/-- PIN of a block falls (R75); a block whose last reference has gone may become FREE (R80). (DEDUCED, log entry 78) -/
def State.unpinBlock (s : State) (gbn : Nat) : State :=
  match s.gbtPa gbn with
  | none => s
  | some g => (s.setGbtF g 59 48 (s.gbtF g 59 48 - 1)).settleBlock gbn

/-- A pin of a stream is released: here, or at the owner of its block (R61, R75). -/
def State.unpin (s : State) (p : Pin) : State :=
  match p.owner with
  | none => s.unpinBlock p.gbn
  | some fab => s.sendOwner fab (.peerUnpin fab p.gbn)

/-- The key a block's lines bear (R64). -/
def State.slotTag (s : State) (slot : Nat) : LineTag :=
  .priv (((s.keys.find? slot).getD (Config.resetKey slot)).extractLsb' 0 512)

/-- A stream of the executing core. -/
def State.strm (s : State) (i : Nat) : Option Stream := s.core.streams.find? i
/-- A stream of the executing core replaced. -/
def State.setStrm (s : State) (i : Nat) (t : Stream) : State := s.onCore fun k => { k with streams := k.streams.insert i t }
/-- A stream of the executing core unbound. -/
def State.dropStrm (s : State) (i : Nat) : State := s.onCore fun k => { k with streams := k.streams.erase i }

/-- Container bits of the elements of a KV row: 16 for BF16 and FP16, or those of the format (R205, R320). -/
def containerBits (w : Nat) : Nat := if w ≤ 2 then 2 else if w ≤ 4 then 4 else 8
/-- See `containerBits`. -/
def Stream.elemBits (t : Stream) : Nat := if t.ekind = 2 then containerBits (bits t.fmt.toNat 3 0) else 16
/-- Elements under one scale code, 0 for none (R203). -/
def fmtBlock (f : Nat) : Nat := match bits f 19 18 with | 0 => 0 | 1 => 16 | 2 => 32 | _ => 64

/-- Does the delivered run, with every scale code it needs, fit in a row (R321)? -/
def Stream.fits (t : Stream) (rb : Nat) : Bool :=
  let blk := if t.ekind = 2 then fmtBlock t.fmt.toNat else 0
  decide ((t.eoff + t.dim) * t.elemBits ≤ 8 * rb) && (blk == 0 || decide (2 * t.soff + (t.eoff + t.dim - 1) / blk < rb))

/-- The fault of a KV stream at its position. -/
def Stream.kvFault (t : Stream) (code chip gbn : Nat) : FaultInfo :=
  ⟨kvCause code, code, 0, kvInfo t.seq t.layer t.head t.cur chip gbn⟩

/-- The row of a KV stream at a position, read through the translation that it holds for a pinned block
(R131). The rows that LEN covered at its walk are there (R79). -/
def kvRead (t : Stream) (p : Pin) (pos : Nat) : M (BitVec 4096) := do
  let rb := rowBytes p.bsz
  M.need (t.fits rb) (.fault (({ t with cur := pos }).kvFault 0x12 0 p.gbn))
  let a := p.loc + (if t.vrow then blockBytes p.bsz / 2 else 0) + (pos % 64) * rb
  needClean a rb
  let s ← get
  pure (BitVec.ofNat 4096 (ofBytes (s.readRun (addIds t.view p.view) s.cur (s.slotTag p.kslot) a rb).bytes))

/-- The row of a remote block, which the owner delivers: it translates, pins the block for the stream if that does not hold it yet, and reads
the row at `.SYS` (R61). A link that is lost is outcome 0x17. (DESIGN CHOICE, log entry 39) -/
def askRow {α : Type} (i : Nat) (t : Stream) (pos chip gbn : Nat) (held : Bool) : M α := do
  let s ← get
  M.need (s.peerUp chip) (.fault (({ t with cur := pos }).kvFault 0x17 chip gbn))
  M.stop (.stall .other) [.peer s.cur chip i (kvAsk (if held then 1 else 0) gbn pos)]

/-- The row of a KV stream at a position (R321): through the translation of a pin that it holds (R63, R82); or walked, its block pinned, and
read. A missing block stalls the bundle (R72), or raises KV_ABSENT at once where KVWAIT is 0; a block at its pin limit is another
interlock (R62). Answers the row and the pins. (DEDUCED, log entry 30) -/
def kvFetch (i : Nat) (t : Stream) (pos : Nat) : M (BitVec 4096 × List Pin) := do
  let s ← get
  let bad (code chip gbn : Nat) := ({ t with cur := pos }).kvFault code chip gbn
  match t.pins.find? fun p => decide (p.index = pos / 64) && decide (pos < p.limit) with
  | some p =>
    match p.owner with
    | some fab => askRow i t pos fab p.gbn true
    | none => do
      let v ← kvRead t p pos
      pure (v, t.pins)
  | none =>
    match s.kvWalk s.core.mcid t.seq t.layer t.head pos true with
    | .remote chip gbn _ => askRow i t pos chip gbn (t.pins.any fun q => decide (q.index = pos / 64) && decide (q.gbn = gbn) && q.owner == some chip)
    | .bad l => M.stop (.fault (uncorrectable l))
    | .out 0x15 chip gbn =>
      let ps := match s.gbtPa gbn with
        | some g => if s.gbtF g 4 4 = 1 ∧ s.gbtF g 3 2 = 3 then [Post.rack gbn] else []
        | none => []
      if s.core.kvwait = 0 then M.stop (.fault (bad 0x15 chip gbn)) ps else M.stop (.stall (.kv i pos gbn (bad 0x15 chip gbn))) ps
    | .out c chip gbn => M.stop (.fault (bad c chip gbn))
    | .hit g gbn bsz loc kslot =>
      let d := (s.seqPa s.core.mcid t.seq).getD 0
      let p : Pin := ⟨pos / 64, gbn, s.seqF d 48 24, loc, kslot, min bsz (s.gbtF g 131 130), none, FMap.get [] s.seqView d⟩
      let same (q : Pin) : Bool := decide (q.index = p.index) && decide (q.gbn = gbn) && q.owner.isNone
      let have_ := t.pins.any same
      M.need (have_ || decide (s.gbtF g 59 48 < 4095)) (.stall .other)
      if have_ then pure () else set (s.pinBlock g)
      let v ← kvRead t p pos
      pure (v, (t.pins.filter fun q => !same q) ++ [p])

/-- CUR moves past a row; past a block's last row its pin goes (R75). -/
def State.passRow (s : State) (t : Stream) : State × Stream :=
  if t.cur % 64 = 63 then
    let (done, rest) := t.pins.partition fun p => p.index = t.cur / 64
    (done.foldl State.unpin s, { t with cur := t.cur + 1, pins := rest })
  else (s, { t with cur := t.cur + 1 })

/-- The row of a KV stream at CUR, fetched ahead or now; CUR moves past it (R321). -/
def kvRow (i : Nat) (t : Stream) : M (BitVec 4096 × Stream) := do
  M.need (t.cur < t.stop) (.fault (t.kvFault 0x12 0 0))
  let (v, t) ← match t.ahead with
    | a :: rest =>
      match a.bad with
      | some fi => M.stop (.fault fi)
      | none => pure (a.val, { t with ahead := rest })
    | [] => do
      let (v, pins) ← kvFetch i t t.cur
      pure (v, { t with pins := pins })
  let s ← get
  let (s, t) := s.passRow t
  set s
  pure (v, t)

/-! ### References and moves (R69, R80) -/

/-- One reference to a block of this package goes (R80). -/
def State.decBlock (s : State) (gbn : Nat) : State :=
  match s.gbtPa gbn with
  | none => s
  | some g =>
    let c := s.gbtF g 31 16
    if s.gbtF g 3 2 = 0 ∨ c = 0 then s else (s.setGbtF g 31 16 (c - 1)).settleBlock gbn

/-- A move starts: the entry is RACKING towards a frame (R69 step 4). -/
def State.startMove (s : State) (gbn g tier frame : Nat) (cmd : Option Nat) (peer : Option Nat := none) : State :=
  let e := s.rd g 32
  let e := setBits (setBits (setBits e 3 2 2) 129 128 tier) 223 160 frame
  { s.wr g e 32 with moves := s.moves ++ [⟨gbn, cmd, peer⟩] }

/-- A block that the append of a command needs is racked to tier 0, for a frame of the pool of its partition (R78 step 3). -/
def State.rackIn (s : State) (gbn cmd : Nat) : State :=
  match s.gbtPa gbn with
  | none => s
  | some g =>
    match s.kvTake (s.gbtF g 46 42) (1 + s.gbtF g 131 130) with
    | none => s
    | some (f, s) => s.startMove gbn g 0 f (some cmd)

end Sys2Proof.Machine
end

