-- ==== Sys2Proof/Machine/Fetch.lean ====
section
/-! DEFINITION. What a fetch of the M slot reads and what its tiles come to (R88, R302, R303, R307 to R312): operands in the scratchpad,
their elements, the entries of the result; and what a write to an operand under the fetch does to it. -/

namespace Sys2Proof.Machine

/-! ### Formats of operands and rows (R302, R312) -/

/-- How the elements of an operand are read: narrow through a format, BF16 or FP16. -/
inductive MatFmt where
  | narrow (f : NFmt)
  | wide (f : FpFmt)
  deriving DecidableEq, Repr

/-- Container width (R302). -/
def MatFmt.c : MatFmt → Nat
  | .narrow f => f.container
  | .wide _ => 16
/-- Block size (R302). -/
def MatFmt.blk : MatFmt → Nat
  | .narrow f => f.blk
  | .wide _ => 0
/-- Element code times scale code, exactly (R208, R211). -/
def MatFmt.value (m : MatFmt) (code scale : Nat) : Num :=
  match m with
  | .narrow f => f.scaled code scale
  | .wide f => f.value code

/-- The format of a KIND (R305), of which `v` is the format register. -/
def matFmtOf (kind : Nat) (v : Dword) : MatFmt :=
  match kind with
  | 0 => .narrow (nfmt v)
  | 1 => .wide bf16
  | _ => .wide fp16

/-- The format of a KIND (R305): through a register, BF16 or FP16. -/
def State.matFmt (s : State) (kind fs : Nat) : MatFmt := matFmtOf kind (s.getF fs)

/-- Element steps of an operand of K indices (R302). -/
def MatFmt.elemSteps (m : MatFmt) (K : Nat) : Nat := if m.c = 2 then K / 2 else K * m.c / 8
/-- Fetch steps of an operand (R302). -/
def MatFmt.steps (m : MatFmt) (K : Nat) : Nat := m.elemSteps K + (if m.blk = 0 then 0 else (K + m.blk - 1) / m.blk)

/-- Bits of an element of a row (R312). -/
def MatFmt.rowBits (m : MatFmt) : Nat := if m = .wide fp32 then 32 else m.c
/-- Bytes of a row before rounding up (R312). -/
def MatFmt.rowLen (m : MatFmt) : Nat := 16 * m.rowBits + (if m.blk = 0 then 0 else 128 / m.blk)
/-- RS (R312). -/
def MatFmt.rowStride (m : MatFmt) : Nat := (m.rowLen + 63) / 64 * 64

/-- The format of a row of type TY (R312), of which `v` is the format register. -/
def rowFmtOf (ty : Nat) (v : Dword) : MatFmt :=
  match ty with
  | 0 => .wide fp32
  | 1 => .wide bf16
  | 2 => .wide fp16
  | _ => .narrow (nfmt v)

/-- The format of the rows of a KV stream (R310, R320). -/
def Stream.rowFmt (t : Stream) : MatFmt := matFmtOf (if t.ekind = 0 then 1 else if t.ekind = 1 then 2 else 0) t.fmt

/-! ### The fetch (R88, R303) -/

/-- A write in flight as a fetch sees it: one whose bound has not passed gives the old or the new byte (R303). -/
def Pend.seeFetch (tick slot n : Nat) (b : BitVec 4096) (e : Pend) : BitVec 4096 :=
  if e.due ≤ n then blend e.mask b e.val
  else blend (e.mask &&& spread 8 (Config.free 128 tick .window (e.file.code + 4 * e.key) (e.issue + 2 ^ 64 * slot))) b e.val

/-- A 64-byte chunk as a fetch that issues now reads it (R303). -/
def State.fetchChunk (s : State) (c : Nat) : Nat :=
  let k := s.core
  (((k.flight .sp c).foldl (Pend.seeFetch s.tick k.issue.slot k.issueNo) (k.landed .sp c)).setWidth 512).toNat

/-- An operand of `steps` fetch steps at a start offset, with its plane distance (R88): the steps of 128 bytes each. -/
def State.fetchSteps (s : State) (start pd steps : Nat) : List Nat :=
  (List.range steps).map fun j => s.fetchChunk (start / 64 + j) + 2 ^ 512 * s.fetchChunk (start / 64 + 1 + 16 * pd + j)

/-- The chunks of an operand as its fetch delivers them: both planes (R88, R303). -/
def State.planes (s : State) (start pd steps : Nat) : List (Nat × List Nat) :=
  [(start / 64, (List.range steps).map fun j => s.fetchChunk (start / 64 + j)),
    (start / 64 + 1 + 16 * pd, (List.range steps).map fun j => s.fetchChunk (start / 64 + 1 + 16 * pd + j))]

/-- The steps of 128 bytes that plane `p` and the plane after it deliver. -/
def stepsOf (ps : List (List Nat)) (p : Nat) : List Nat :=
  ((ps[p]?).getD []).zipWith (fun a b => a + 2 ^ 512 * b) ((ps[p + 1]?).getD [])

/-! ### Elements and products (R211 to R213, R302, R307, R308, R310) -/

/-- An element of an operand that has been fetched: element `n` of slab `k`, with the scale code of its block (R302). -/
def operandAt (m : MatFmt) (K : Nat) (steps : List Nat) (n k : Nat) : Num :=
  let pos := if m.c = 2 then 1024 * (k / 2) + 256 * (k % 2) + 2 * n else (128 * k + n) * m.c
  let code := bits ((steps[pos / 1024]?).getD 0) (pos % 1024 + m.c - 1) (pos % 1024)
  let scale := if m.blk = 0 then 0 else bits ((steps[m.elemSteps K + k / m.blk]?).getD 0) (8 * n + 7) (8 * n)
  m.value code scale

/-- One entry after the block terms of its K-blocks, in ascending order (R211 to R213, R307); a K-block without products adds
nothing (R216). -/
def accumulate (a : Acc40) (blocks : List (List Num)) : Acc40 :=
  blocks.foldl (fun a ps => if ps = [] then a else accAdd a (blockTerm ps)) a

/-- The 32 indices of a K-block. -/
def kBlock (b : Nat) : List Nat := (List.range 32).map (32 * b + ·)

/-- K of a KB field (R305). -/
def kOf (kb : BitVec 4) : Nat := 32 * (kb.toNat + 1)

/-- Steps of one K-block of a compressed B (R308): bitmap, elements, indices, scales. -/
def sparseSteps (f : NFmt) (lv : Nat) : Nat := 1 + lv * f.container / 64 + lv / 32 + (if f.blk = 32 then (lv + 127) / 128 else 0)

/-- Column `j` of one K-block of a compressed B: its elements, each with its index, or none where the column is dead (R308). -/
def sparseColumn (f : NFmt) (lv b : Nat) (steps : List Nat) (j : Nat) : List (Nat × Num) :=
  let base := b * sparseSteps f lv
  let at_ (first pos w : Nat) : Nat := bits ((steps[base + first + pos / 1024]?).getD 0) (pos % 1024 + w - 1) (pos % 1024)
  let map := (steps[base]?).getD 0
  let t := popGo map j
  if !bit map j || decide (lv ≤ t) then []
  else
    let c := f.container
    let idx := at_ (1 + lv * c / 64) (32 * t) 32
    let scale := if f.blk = 32 then at_ (1 + lv * c / 64 + lv / 32) (8 * t) 8 else 0
    (List.range 16).map fun e => (32 * b + 4 * (e / 2) + bits idx (2 * e + 1) (2 * e), f.scaled (at_ 1 ((16 * t + e) * c) c) scale)

/-- Element `n` of the run that a row delivers, with its scale (R310, R321). -/
def rowElement (t : Stream) (m : MatFmt) (row n : Nat) : Num :=
  let e := t.eoff + n
  let code := bits row (m.c * e + m.c - 1) (m.c * e)
  let sb := 2 * t.soff + (if m.blk = 0 then 0 else e / m.blk)
  m.value code (if m.blk = 0 then 0 else bits row (8 * sb + 7) (8 * sb))

/-- Which row of the scratchpad a tile row comes from, if one of `n` rows from `first` on. -/
def rowOf (first n i : Nat) : Option Nat := if (i + 128 - first) % 128 < n then some ((i + 128 - first) % 128) else none

/-! ### What a fetch operation comes to -/

/-- The entries that a fetch operation gives its tiles, from the chunks that its fetch delivers (R307 to R312). -/
def MWork.entry (w : MWork) (ps : List (List Nat)) : Nat → Nat → Nat → Acc40 :=
  match w.op with
  | .mma o =>
    let fa := matFmtOf o.kind.toNat w.fa
    let fb := matFmtOf o.kind.toNat w.fb
    let K := kOf o.kb
    let a := stepsOf ps 0
    let b := stepsOf ps 2
    fun t i j => accumulate (w.before.get t i j)
      ((List.range (K / 32)).map fun q => (kBlock q).map fun k => (operandAt fa K a i k).mul (operandAt fb K b j k))
  | .mmas o =>
    let fa : MatFmt := .narrow (nfmt w.fa)
    let K := kOf o.kb
    let lv := 32 * (o.lvf.toNat + 1)
    let a := stepsOf ps 0
    let b := stepsOf ps 2
    fun t i j => accumulate (w.before.get t i j)
      ((List.range (K / 32)).map fun q =>
        (sparseColumn (nfmt w.fb) lv q b (128 * (t - o.td.toNat) + j)).map fun e => (operandAt fa K a i e.1).mul e.2)
  | .stream o av st rows =>
    let fb := st.rowFmt
    let fa := if st.ekind = 2 then .narrow (nfmt w.fa) else fb
    let K := kOf o.kb
    let a := stepsOf ps 0
    let pick (k j : Nat) : Option (Nat × Nat) :=
      if av then (if k ≤ o.nr.toNat ∧ j < min st.dim 128 then some (k, j) else none)
      else (if k < min K st.dim ∧ j ≤ o.nr.toNat then some (j, k) else none)
    fun t i j => accumulate (w.before.get t i j)
      ((List.range (K / 32)).map fun q => (kBlock q).filterMap fun k => (pick k j).map fun p =>
        (operandAt fa K a i k).mul (rowElement st fb ((rows[p.1]?).getD 0) p.2))
  | .reduce o scan =>
    let fa := matFmtOf o.kind.toNat w.fa
    let K := kOf o.kb
    let a := stepsOf ps 0
    fun t i j => accumulate (w.before.get t i j)
      ((List.range (K / 32)).map fun q => (kBlock q).map fun k =>
        (operandAt fa K a i k).mul (.fin false (if scan ∧ j < k then 0 else 1) 0))
  | .load o row =>
    let m := rowFmtOf o.ty.toNat w.fa
    let per := m.rowStride / 64
    let data := (List.range (o.nr.toNat + 1)).map fun n =>
      (List.range per).foldr (fun j a => ((((ps[0]?).getD [])[per * n + j]?).getD 0) + 2 ^ 512 * a) 0
    let wd := m.rowBits
    let el (v j : Nat) : Acc40 :=
      let sb := 16 * wd + (if m.blk = 0 then 0 else j / m.blk)
      toAcc (m.value (bits v (wd * j + wd - 1) (wd * j)) (if m.blk = 0 then 0 else bits v (8 * sb + 7) (8 * sb)))
    fun t i j =>
      match rowOf row (o.nr.toNat + 1) i with
      | some n => el ((data[n]?).getD 0) j
      | none => w.before.get t i j

/-- The tiles that a fetch operation writes. -/
def MWork.tiles (w : MWork) : List Nat :=
  match w.op with
  | .mma o => [o.td.toNat]
  | .mmas o => (List.range (2 ^ o.ntc.toNat)).map (o.td.toNat + ·)
  | .stream o _ _ _ => [o.td.toNat]
  | .reduce o _ => [o.td.toNat]
  | .load o _ => [o.td.toNat]

/-- The tiles after a fetch operation. -/
def MWork.into (w : MWork) (ps : List (List Nat)) (ts : Tiles) : Tiles :=
  let f := w.entry ps
  w.tiles.foldl (fun ts t => ts.setTile t (f t)) ts

/-- A fetch in progress delivers, of a chunk that is written meanwhile, the old or the new value of each piece of `n` bytes (R303, R117):
what its tiles come to follows from that. `val` and `mask` are the write. -/
def Core.smudge (k : Core) (tick chunk n : Nat) (val mask : BitVec 512) : Core :=
  match k.mfetch with
  | none => k
  | some f =>
    match f.work with
    | none => k
    | some w =>
      if k.fetchCycle < f.start + f.len ∧ f.operands.any (fun o => o.1 ≤ chunk ∧ chunk < o.1 + o.2.length) then
        let ops := f.operands.mapIdx fun p (o : Nat × List Nat) =>
          if o.1 ≤ chunk ∧ chunk < o.1 + o.2.length then
            let c := Config.free 64 tick .word (2 ^ 20 + 4 * chunk + p) n
            let old := BitVec.ofNat 4096 ((o.2[chunk - o.1]?).getD 0)
            (o.1, setAt o.2 (chunk - o.1) (blend (mask.setWidth 4096 &&& spread (8 * n) (c.setWidth 128)) old (val.setWidth 4096)).toNat)
          else o
        { k with mfetch := some { f with operands := ops }, tiles := w.into (ops.map (·.2)) k.tiles }
      else k

end Sys2Proof.Machine
end

