-- ==== Sys2Proof/Machine/Operands.lean ====
section
/-! DEFINITION. Every operand form of the V, M and C slots: source fields and destinations (R224, R225, R282), address cursors
(R230), scratchpad runs with their bank accesses (R85 to R93) and mapped granules (R42, R43), streams (R231, R320, R321, R343
to R345), command descriptors (R316). -/

namespace Sys2Proof.Machine

/-! ### Address cursors (R230) -/

/-- The cursors of the executing slot: formed at an explicit issue, stepped before use at every later one, each modulo its own
range. (DEDUCED, log entry 76) -/
def State.moveCursors (s : State) (fresh : List Nat) (steps : List (Int × Nat)) : State :=
  s.onCore fun k =>
    let j := k.issue.slot - 1
    match k.slots[j]? with
    | none => k
    | some sl =>
      let cs := if k.issue.explicit then (fresh.zip steps).map fun (c, _, m) => c % m
        else (sl.cursors.zip steps).map fun (c, st, m) => (((c : Int) + st) % (m : Int)).toNat
      { k with slots := setAt k.slots j { sl with cursors := cs } }

/-- A cursor of the executing slot. (DEDUCED, log entry 76) -/
def State.cursor (s : State) (n : Nat) : Nat := ((s.core.slots[s.core.issue.slot - 1]?).bind fun sl => sl.cursors[n]?).getD 0

/-! ### The scratchpad (R85 to R93) -/

/-- Bytes of a scratchpad. -/
def spSize : Nat := 2 ^ 21
/-- The bank group of an offset: 0 SPA, 1 SPB (R85). -/
def spGroup (off : Nat) : Nat := bits off 20 20
/-- The bank of an offset within its group (R85). -/
def spBank (off : Nat) : Nat := bits off 9 6

/-- The chunks of a run of bytes, modulo the scratchpad (R297). -/
def spChunks (off n : Nat) : List Nat :=
  (List.range ((off % 64 + n + 63) / 64)).map fun i => (off / 64 + i) % (spSize / 64)

/-- Something that the units are asked when the bundle in progress has committed. -/
def State.post (s : State) (p : Post) : State := s.onIssue fun i => { i with posts := i.posts ++ [p] }

/-- A bundle-issued access is noted for the checks of R87, R92 and R300. -/
def State.noteAcc (s : State) (chunk : Nat) (write : Bool) : State :=
  s.onIssue fun i => { i with acc := ⟨i.slot, chunk, write⟩ :: i.acc }

/-- The live map that covers an offset, by its place in the list (R42). -/
def Core.mapOf (k : Core) (off : Nat) : Option Nat := k.maps.findIdx? fun m => decide (m.off ≤ off) && decide (off < m.off + m.len)

/-- A granule of a map. -/
def RegMap.granule (m : RegMap) (g : Nat) : Granule := FMap.get ⟨.invalid, 0⟩ m.gran g

/-- Fill an INVALID granule of the executing core: a read by the task, not through the L1 (R42, R43, R97), for the agent `who`, whose
translations are given. The map unit copies a poisoned line, and its chunk is poisoned (R416). -/
def fillGranuleBy (who : Nat) (xl : Nat → Nat → M Loc) (mi g : Nat) : M Unit := do
  let s ← get
  match s.core.maps[mi]? with
  | none => pure ()
  | some m =>
    let va := (m.gva + 256 * g) % 2 ^ 52
    let x ← srcOf who m.asid va 256 (xl m.asid va)
    let (bs, bad) ← x.read who m.asid va 256 (fun pa t => do
        M.change (·.readReady pa 256)
        let s ← get
        let r := s.readRun s.core.view.seen s.cur t pa 256
        M.change (·.saw r.got)
        pure (r.bytes.mapIdx fun i b => s.core.overlay (pa + i) b, (List.range 4).map fun i => s.poisoned (pa + 64 * i) 64))
      fun bs => (bs, [])
    let c0 := (m.off + 256 * g) / 64
    let spots (m : FMap Nat) : FMap Nat := (List.range 4).foldl (init := m) fun m i => match (bad[i]?).bind id with
      | some l => m.insert (c0 + i) l
      | none => m.erase (c0 + i)
    M.change (·.onCore fun k =>
      { k with sp := k.sp.writeBytes (m.off + 256 * g) bs, spBad := spots k.spBad,
               maps := setAt k.maps mi { m with gran := m.gran.insert g ⟨.clean, 0⟩ } })

/-- The granule of an offset is there before an agent's access to the executing core's scratchpad. -/
def needGranuleBy (who : Nat) (xl : Nat → Nat → M Loc) (off : Nat) : M Unit := do
  let s ← get
  match s.core.mapOf off with
  | none => pure ()
  | some mi =>
    match s.core.maps[mi]? with
    | none => pure ()
    | some m => if (m.granule ((off - m.off) / 256)).st = .invalid then fillGranuleBy who xl mi ((off - m.off) / 256) else pure ()

/-- The granule of an offset is there before a local access (R42, R93, R303). -/
def needGranule (off : Nat) : M Unit := do needGranuleBy (← get).cur (fun a va => xlateAs a va .read) off

/-- A chunk that holds poisoned data is not consumed (R416). (DEDUCED, log entry 83) -/
def needSound (c : Nat) : M Unit := do
  match (← get).core.spBad.find? c with
  | some pa => M.stop (.fault (uncorrectable pa))
  | none => pure ()

/-- Written bytes of a chunk are marked in its granule, which turns DIRTY (R42). `m` has one bit per byte of the chunk. -/
def Core.markChunk (k : Core) (chunk : Nat) (m : BitVec 64) : Core :=
  let off := 64 * chunk
  match k.mapOf off with
  | none => k
  | some mi =>
    match k.maps[mi]? with
    | none => k
    | some r =>
      let g := (off - r.off) / 256
      let e := r.granule g
      let mask := e.mask ||| (m.setWidth 256 <<< (64 * ((off - r.off) % 256 / 64)))
      { k with maps := setAt k.maps mi { r with gran := r.gran.insert g ⟨.dirty, mask⟩ } }

/-- The bytes of a chunk in which a bit mask has a bit. -/
def byteMask (m : BitVec 512) : BitVec 64 :=
  BitVec.ofNat 64 (digits 1 (fun i => if m.extractLsb' (8 * i) 8 = 0 then 0 else 1) 0 64)

/-- A bundle-issued access to every chunk of a run: noted, and its granules filled (R42, R86, R298). -/
def touchRun (off n : Nat) (write : Bool) : M Unit := do
  let _ ← (spChunks off n).mapM fun c => do
    needGranule (64 * c)
    if !write then needSound c
    M.change (·.noteAcc c write)
  pure ()

/-- The bytes of a run of which `chunk` gives the chunks, as one number. -/
def runBy (chunk : Nat → Nat) (off n : Nat) : Nat :=
  ((spChunks off n).map chunk).foldr (fun v a => v + 2 ^ 512 * a) 0 / 2 ^ (8 * (off % 64)) % 2 ^ (8 * n)

/-- The bytes of a run as an operation of this issue reads them, as one number (R232). -/
def State.spRun (s : State) (off n : Nat) : Nat :=
  runBy (fun c => ((s.core.seen s.tick .sp c (s.core.landed .sp c)).setWidth 512).toNat) off n

/-- A chunk as background traffic reads it: each 8-byte word as it stands after some of the writes in flight, in the order of their issue
(R117, R301). (DEDUCED, log entry 16) -/
def Core.padChunk (k : Core) (tick c : Nat) : Nat :=
  match k.flight .sp c with
  | [] => (k.landed .sp c).toNat
  | es =>
    digits 64 (fun i =>
      let seen := (Config.free 32 tick .word (2 ^ 21 + 8 * c + i) es.length).toNat % (es.length + 1)
      let v := (es.mapIdx fun j e => (j, e)).foldl (fun b (j, e) => if e.due ≤ k.issueNo ∨ j < seen then blend e.mask b e.val else b) (k.landed .sp c)
      bits v.toNat (64 * i + 63) (64 * i)) 0 8

/-- The scratchpad with every write in flight landed. -/
def Core.settledPad (k : Core) : Pad :=
  (k.pend.filter fun e => e.file = .sp).foldl (fun p e => p.setChunk e.key ((blend e.mask (spChunk p e.key) e.val).setWidth 512)) k.sp

/-- Write the bits of `mask` of a run with a bound (R232, R233, R298). -/
def State.putRun (s : State) (off n val mask lat : Nat) : State :=
  let sh := 8 * (off % 64)
  let v := (val % 2 ^ (8 * n)) * 2 ^ sh
  let m := (mask % 2 ^ (8 * n)) * 2 ^ sh
  ((spChunks off n).mapIdx fun i c => (i, c)).foldl (init := s) fun s (i, c) =>
    let mc := BitVec.ofNat 512 (m / 2 ^ (512 * i))
    if mc = 0 then s
    else
      (s.putPend .sp c ((BitVec.ofNat 512 (v / 2 ^ (512 * i))).setWidth 4096) (mc.setWidth 4096) lat).onCore fun k =>
        let k := (k.markChunk c (byteMask mc)).smudge s.tick c 1 (BitVec.ofNat 512 (v / 2 ^ (512 * i))) mc
        if mc = BitVec.allOnes 512 then { k with spBad := k.spBad.erase c } else k

/-- Is a fetch cycle within a gather or scatter window (R300)? -/
def Window.covers (w : Window) (cycle : Nat) : Bool := decide (w.start ≤ cycle) && decide (cycle < w.start + 8)

/-- Does a gather or scatter window hold background traffic off the banks of a run (R300)? In a stall no cycle of the window passes (R90), and the banks
are free; a stall for the M slot or a busy tile is no such stall, and its cycles have passed at once. (DEDUCED, log entry 18) -/
def Core.windowHolds (k : Core) (off n : Nat) : Bool :=
  k.run == .running && k.wait.isNone && (spChunks off n).any fun c => k.windows.any fun w => w.group == c / 16384 && w.covers k.fetchCycle

/-! ### Streams (R231, R343 to R345) -/

/-- One element or row has gone by: after the last the stream is unbound (R343). -/
def State.stepStream (s : State) (i : Nat) (t : Stream) : State :=
  if t.left ≤ 1 then s.dropStrm i else s.setStrm i { t with index := t.index + 1, left := t.left - 1 }

/-- The place of an element of a stream (R343). -/
def Stream.place (t : Stream) (m n : Nat) : Nat := (((t.base : Int) + (n : Int) * t.estride) % (m : Int)).toNat

/-- The element of a global stream at a VA, as engine reads of the task's walk (R345, R131, R97) that do not go behind some writes; answers
too the writes that it has returned. -/
def globalElement (asid va : Nat) (view : List Nat) : M (BitVec 4096 × List Nat) := do
  let ps ← (pagePieces va 512).mapM fun (a, m) => do
    let cur := (← get).cur
    let x ← srcOf cur asid a m (xlateAs asid (a % 2 ^ 52) .read)
    x.read cur asid a m (fun pa t => do
      needClean pa m
      let s ← get
      let lines := (List.range ((pa % 64 + m + 63) / 64)).map (pa / 64 + ·)
      let (new, s) := if s.core.view.cxl && tierOf pa == 3 then lines.foldl (init := ([], s)) fun (ids, s) l =>
          let (more, s) := s.refreshLine l
          (ids ++ more, s)
        else ([], s)
      set s
      let r := s.readRun (addIds view new) s.cur t pa m
      pure (r.bytes, addIds new r.got.ids)) fun bs => (bs, [])
  pure (BitVec.ofNat 4096 (ofBytes (ps.map (·.1)).flatten), ps.flatMap (·.2))

/-- The 8 chunks of an element lie in one bank group, or BANKCONFLICT (R344). -/
def needElement (o : Nat) : M Unit :=
  M.need (decide (o + 512 ≤ spSize) && spGroup o == spGroup (o + 511)) (.fault bankConflict)

/-- Pop one element of a stream (R231, R321, R344, R345). -/
def popStream (i : Nat) : M (BitVec 4096) := do
  let s ← get
  match s.strm i with
  | none => M.stop (.fault illegalSlot)
  | some t =>
    M.need (!t.push) (.fault illegalSlot)
    match t.kind with
    | .scratch =>
      let o := t.place spSize t.index
      needElement o
      touchRun o 512 false
      let s ← get
      set (s.stepStream i t)
      pure (BitVec.ofNat 4096 (s.spRun o 512))
    | .global =>
      match t.ahead with
      | a :: rest =>
        match a.bad with
        | some fi => M.stop (.fault fi)
        | none =>
          set (s.stepStream i { t with ahead := rest })
          pure a.val
      | [] =>
        let (v, ids) ← globalElement t.asid (t.place (2 ^ 52) t.index) t.view
        M.change (·.stepStream i { t with view := addIds t.view ids })
        pure v
    | .kv =>
      let (v, t) ← kvRow i t
      M.change (·.setStrm i t)
      pure v

/-- A stream write of the engine is performed: each byte at its place, and the watched words reported (R345, R378). -/
def State.performPushed (s : State) (h : Held) : State :=
  match h.host with
  | some p => s.sendHeld p h
  | none =>
    let s := s.writeHeld false h
    if (List.range 8).all fun w => (s.csr (0xC98 + w)).getLsbD 0 == false then s
    else h.cells.foldl (fun s c => s.watchEvents none 5 s.cur s.core.mcid c.1 1) s

/-- Stream writes are performed in order; the stream's command is the agent of them (R129). Answers their numbers. -/
def State.performAll (s : State) (hs : List Held) : State × List Nat :=
  let s1 := hs.foldl State.performPushed s
  (s1, s1.madeSince s)

/-- The enabled lanes of a pushed element, as stores to the pages it lies on (R282, R345): non-temporal ones of the task, or payload. -/
def State.pushHelds (s : State) (t : Stream) (ls : List (Loc × Nat)) (v : Vec) (m : Pred) : List Held :=
  (ls.foldl (init := (0, [])) fun (i, hs) (l, n) =>
    let bs := ((List.range n).filter fun j => m.getLsbD ((i + j) / 4)).map fun j => (j, v.extractLsb' (8 * (i + j)) 8)
    let h := s.heldOf l t.asid t.nt none bs
    (i + n, if bs = [] then hs else hs ++ [if t.nt then h else { h with rels := [] }])).2

/-- Push one element, of which the lanes of `m` are written (R231, R282, R344, R345). -/
def pushStream (i : Nat) (v : Vec) (m : Pred) (lat : Nat) : M Unit := do
  let s ← get
  match s.strm i with
  | none => M.stop (.fault illegalSlot)
  | some t =>
    M.need t.push (.fault illegalSlot)
    match t.kind with
    | .kv => M.stop (.fault illegalSlot)
    | .scratch =>
      let o := t.place spSize t.index
      needElement o
      touchRun o 512 true
      M.change fun s => (s.putRun o 512 v.toNat (spread 32 m).toNat lat).stepStream i t
    | .global =>
      let va := t.place (2 ^ 52) t.index
      let ls ← (pagePieces va 512).mapM fun (a, n) => do pure (← xlateAs t.asid (a % 2 ^ 52) .write, n)
      let hs := (← get).pushHelds t ls v m
      if t.nt then
        M.change fun s => (hs.foldl (fun s h => s.storeEvent true h) s).stepStream i t
      else
        -- room for the element: the oldest of 16 pending ones is written first
        let old := if t.pushed.length ≥ 16 then t.pushed.head?.getD [] else []
        let rest := if t.pushed.length ≥ 16 then t.pushed.drop 1 else t.pushed
        M.change fun s =>
          let (s, ids) := s.performAll old
          if t.left ≤ 1 then ((s.dropStrm i).performAll (rest.flatten ++ hs)).1
          else s.setStrm i { t with index := t.index + 1, left := t.left - 1, pushed := rest ++ [hs], view := addIds t.view ids }

/-! ### Sources and destinations (R224, R225, R282) -/

/-- A source of format VR and the like: 128 lanes from a vector register, a stream, the bypass history or a broadcast. -/
def source (f : BitVec 9) : M Vec := do
  let s ← get
  let idx := bits f.toNat 5 0
  match bits f.toNat 8 7 with
  | 0 =>
    M.need (!s.isFreed idx) (.fault deadreg)
    pure (s.getV idx)
  | 1 => popStream idx
  | 2 => pure (s.getY idx)
  | _ => pure (mkVec fun _ => (s.getX idx).setWidth 32)

/-- The vector result `v` of the executing operation, for the lanes of `m`: into a vector register, a stream, or neither
(R225). -/
def toDst (d : BitVec 8) (v : Vec) (m : Pred) (lat : Nat) : M Unit :=
  let idx := bits d.toNat 5 0
  match bits d.toNat 7 6 with
  | 0 => M.change (·.putV idx v m lat)
  | 1 => pushStream idx v m lat
  | _ => pure ()

/-- The result of a V operation: to its destination, and into the bypass history, where the lanes that are not enabled are
open (R236). (DEDUCED, log entry 8) -/
def vResult (d : BitVec 8) (v : Vec) (m : Pred) (lat : Nat) : M Unit := do
  toDst d v m lat
  M.change fun s =>
    s.enterBypass (if m = BitVec.allOnes 128 then v
      else blend (spread 32 m) (Config.free 4096 s.tick .freedLanes (64 + s.core.issue.slot) s.cur) v) lat

/-- A V operation, where at least one lane is enabled (R226, R227). -/
def vOp (c : Ctl) (m : Pred → M Unit) (s : State) : Host.Outcome State Fault Refusal :=
  if s.enabledV c then runSlot (m (s.effPred c)) s else .next s

/-- A lane-by-lane V operation of one source. -/
def vOp1 (c : Ctl) (o : VR) (f : BitVec 32 → BitVec 32) : State → Host.Outcome State Fault Refusal :=
  vOp c fun m => do
    let a ← source o.opa
    vResult o.dst (mkVec fun i => f (lane a i)) m c.lat.toNat

/-- A lane-by-lane V operation of two sources. -/
def vOp2 (c : Ctl) (o : VR) (f : BitVec 32 → BitVec 32 → BitVec 32) : State → Host.Outcome State Fault Refusal :=
  vOp c fun m => do
    let a ← source o.opa
    let b ← source o.opb
    vResult o.dst (mkVec fun i => f (lane a i) (lane b i)) m c.lat.toNat

/-- A lane-by-lane V operation of three sources. -/
def vOp3 (c : Ctl) (o : VR) (f : BitVec 32 → BitVec 32 → BitVec 32 → BitVec 32) : State → Host.Outcome State Fault Refusal :=
  vOp c fun m => do
    let a ← source o.opa
    let b ← source o.opb
    let d ← source o.opc
    vResult o.dst (mkVec fun i => f (lane a i) (lane b i) (lane d i)) m c.lat.toNat

/-- A vector compare: the bits of the enabled lanes of a predicate register (R285, R287). -/
def vCompare (c : Ctl) (o : VP) (f : BitVec 32 → BitVec 32 → Bool) : State → Host.Outcome State Fault Refusal :=
  vOp c fun m => do
    let a ← source o.opa
    let b ← source o.opb
    M.change (·.putPMask o.pd.toNat (mkPred fun i => f (lane a i) (lane b i)) m c.lat.toNat)

/-! ### Command descriptors (R316, R338) -/

/-- The descriptor cursor of format CK (R316). -/
def State.ckCursor (s : State) (o : CK) : State :=
  s.moveCursors [64 * o.offb.toNat + (s.getX o.xb.toNat).toNat] [(64 * sext o.step.toNat 10, spSize)]

/-- A write in flight as the descriptor read sees it: one of the same bundle is old or new in each 8-byte word (R316). -/
def Pend.seeWord (tick slot n : Nat) (b : BitVec 4096) (e : Pend) : BitVec 4096 :=
  if e.issue = n then
    let c := Config.free 64 tick .word e.key (e.issue + 2 ^ 64 * slot)
    blend (e.mask &&& BitVec.ofNat 4096 (digits 64 (fun i => if c.getLsbD i then 2 ^ 64 - 1 else 0) 0 64)) b e.val
  else Pend.see tick slot n b e

/-- Read the 64-byte descriptor at the cursor, as a bundle-issued access of one chunk (R316). -/
def readDesc : M Nat := do
  let s ← get
  let c := s.cursor 0
  M.need (c % 64 == 0) (.fault bankConflict)
  touchRun c 64 false
  let s ← get
  let k := s.core
  let ch := c / 64
  pure (((k.flight .sp ch).foldl (Pend.seeWord s.tick k.issue.slot k.issueNo) (k.landed .sp ch)).setWidth 512).toNat

/-- The scratchpad as a command issued now sees it: every write of a committed bundle (R128), and of a write of its own bundle
the old or the new in each 8-byte word (R301). -/
def State.snapshot (s : State) : Pad :=
  let k := s.core
  (k.pend.filter fun e => e.file = .sp).foldl (init := k.sp) fun m e =>
    let old := spChunk m e.key
    let new := if e.issue = k.issueNo then Pend.seeWord s.tick k.issue.slot k.issueNo old e else blend e.mask old e.val
    if new = old then m else m.setChunk e.key (new.setWidth 512)

end Sys2Proof.Machine
end

