-- ==== Sys2Proof/Machine/Special.lean ====
section
/-! DEFINITION. The special functions (R289, R290): the exact cases, and otherwise one of the binary32 values inside the
stated error bound of the exact result, chosen by `Config.special`. The exact result is enclosed between two whole numbers over
2^320. -/

namespace Sys2Proof.Machine

/-- Binary places of the enclosures. -/
def spP : Nat := 320
/-- One. -/
def spOne : Nat := 2 ^ spP
/-- floor(ln 2 · 2^320). -/
def spLn2 : Nat := 1480553391661173448385607439722553250922680800745876974795605978609098082859138712941075737848984

/-- A lower and an upper bound of an exact result, over 2^320. (DEDUCED, log entry 23) -/
structure Enclosure where
  lo : Int
  hi : Int
  deriving DecidableEq, Repr

/-- A computed magnitude with the error of its computation, far below the precision that a result needs. -/
def enclose (v : Nat) : Enclosure := ⟨(v : Int) - ((v / 2 ^ 280 : Nat) : Int) - 2 ^ 20, (v : Int) + ((v / 2 ^ 280 : Nat) : Int) + 2 ^ 20⟩

/-- A magnitude that is known to lie below a bound. -/
def Enclosure.below (r : Enclosure) (b : Nat) : Enclosure := { r with hi := min r.hi ((b : Int) - 1) }

/-- A magnitude that is known not to be zero. -/
def Enclosure.positive (r : Enclosure) : Enclosure := { r with lo := max r.lo 1 }

/-- The sum of a power series: each term is the one before times `x` over 2^320, divided by the next of the given numbers. -/
def seriesGo (x : Nat) : Nat → Nat → Nat → Nat → Nat
  | 0, _, _, acc => acc
  | fuel + 1, k, t, acc =>
    let t := t * x / spOne / k
    seriesGo x fuel (k + 1) t (acc + t)

/-- 2^f for f in [0, 1) over 2^320. -/
def exp2Frac (f : Nat) : Nat := seriesGo (f * spLn2 / spOne) 90 1 spOne spOne

/-- z + z^3/3 + z^5/5 + … over 2^320. -/
def atanhGo (z2 : Nat) : Nat → Nat → Nat → Nat → Nat
  | 0, _, _, acc => acc
  | fuel + 1, k, t, acc =>
    let t := t * z2 / spOne
    atanhGo z2 fuel (k + 2) t (acc + t / k)

/-- log2 of m in [1, 2) over 2^320. -/
def log2Frac (m : Nat) : Nat :=
  let z := (m - spOne) * spOne / (m + spOne)
  2 * atanhGo (z * z / spOne) 110 3 z z * spOne / spLn2

/-- The whole square root by bits, from bit `n` down. -/
def isqrtGo (v : Nat) : Nat → Nat → Nat
  | 0, r => if (r + 1) * (r + 1) ≤ v then r + 1 else r
  | n + 1, r =>
    let c := r + 2 ^ (n + 1)
    isqrtGo v n (if c * c ≤ v then c else r)

/-- 2^(x) for a signed x over 2^320, as a number over 2^320. -/
def exp2Fix (x : Int) : Nat :=
  let n := x / (spOne : Int)
  let f := (x % (spOne : Int)).toNat
  let v := exp2Frac f
  if 0 ≤ n then v * 2 ^ n.toNat else v / 2 ^ (-n).toNat

/-- A finite value over 2^320; a value of FP32 is a whole number of 2^(−149). -/
def fixOf (m : Nat) (e : Int) : Nat := m * 2 ^ (e + (spP : Int)).toNat

/-- e^(−v) for v ≥ 0 over 2^320. -/
def expNeg (v : Nat) : Nat := if v ≥ 1024 * spOne then 0 else exp2Fix (-((v * spOne / spLn2 : Nat) : Int))

/-- The exponent of the spacing of binary32 at a magnitude over 2^320: the place of its unit in the last place. -/
def ulpPlace (v : Nat) : Nat := (max ((ilog2 (max v 1) : Int) - (spP : Int)) (-126) - 23 + (spP : Int)).toNat

/-- The index of the largest binary32 at or below a magnitude over 2^320, or of the smallest at or above. -/
def indexOf (up : Bool) (v : Nat) : Nat :=
  let u := ulpPlace v
  let n := if up then (v + 2 ^ u - 1) / 2 ^ u else v / 2 ^ u
  -- the lowest place, of 2^(−149), is 171
  (u - 171) * 2 ^ 23 + n

/-- The index of a signed number. -/
def indexInt (up : Bool) (v : Int) : Int := if 0 ≤ v then indexOf up v.natAbs else -(indexOf (!up) v.natAbs : Int)

/-- The binary32 of an index; index 0 takes the sign `z`. -/
def ofIndex (z : Bool) (i : Int) : BitVec 32 :=
  let m := min i.natAbs 0x7F800000
  BitVec.ofNat 32 (if i < 0 ∨ (i = 0 ∧ z) then 2 ^ 31 + m else m)

/-- One of the values within `ulps` units of an enclosed result (R289), the same for the same input (R290). The unit is that of the exact
result, which is no power of two and lies, where the enclosure holds one, below it. -/
def within (fn ulps : Nat) (a : BitVec 32) (neg : Bool) (r : Enclosure) : BitVec 32 :=
  let u : Int := ulps * 2 ^ ulpPlace r.lo.natAbs
  let lo := indexInt true (r.lo - u)
  let hi := indexInt false (r.hi + u)
  let c := Config.special fn a
  let i := lo + ((c % (hi - lo + 1).toNat : Nat) : Int)
  ofIndex (c / 2 ^ 64 % 2 = 1) (if neg then -i else i)

/-- The canonical NaN of FP32 (R202). -/
def nan32 : BitVec 32 := 0x7FC00000#32
/-- An infinity of FP32. -/
def inf32 (neg : Bool) : BitVec 32 := if neg then 0xFF800000#32 else 0x7F800000#32
/-- A zero of FP32. -/
def zero32 (neg : Bool) : BitVec 32 := if neg then 0x80000000#32 else 0#32

/-- Is a magnitude a power of two? -/
def isPow2 (m : Nat) : Bool := decide (m = 2 ^ ilog2 m)

/-- VEXP2 (R289). -/
def sfExp2 (a : BitVec 32) : BitVec 32 :=
  match f32 a with
  | .nan => nan32
  | .inf neg => if neg then 0 else inf32 false
  | .fin neg m e =>
    let v := fixOf m e
    if !neg && decide (128 * spOne ≤ v) then inf32 false
    else if neg && decide (150 * spOne < v) then 0
    else
      let x : Int := if neg then -(v : Int) else v
      let k := x / (spOne : Int)
      if x % (spOne : Int) = 0 ∧ -149 ≤ k ∧ k ≤ 127 then toF32 (.fin false 1 k)
      else within 0 1 a false (enclose (exp2Fix x))

/-- VLOG2 (R289). -/
def sfLog2 (a : BitVec 32) : BitVec 32 :=
  match f32 a with
  | .nan => nan32
  | .inf neg => if neg then nan32 else inf32 false
  | .fin neg m e =>
    if m = 0 then inf32 true
    else if neg then nan32
    else
      let n : Int := (ilog2 m : Int) + e
      if isPow2 m then toF32 (.ofInt n)
      else
        let r : Int := n * (spOne : Int) + (log2Frac (m * 2 ^ (spP - ilog2 m)) : Int)
        let en := enclose r.natAbs
        within 1 1 a (decide (r < 0)) en

/-- VRCP (R289). -/
def sfRcp (a : BitVec 32) : BitVec 32 :=
  match f32 a with
  | .nan => nan32
  | .inf neg => zero32 neg
  | .fin neg m e =>
    if m = 0 then inf32 neg
    else if isPow2 m then toF32 (.fin neg 1 (-((ilog2 m : Int) + e)))
    else within 2 1 a neg (enclose (2 ^ (((spP : Int) - e).toNat) / m))

/-- VRSQ (R289). -/
def sfRsq (a : BitVec 32) : BitVec 32 :=
  match f32 a with
  | .nan => nan32
  | .inf neg => if neg then nan32 else 0
  | .fin neg m e =>
    if m = 0 then inf32 neg
    else if neg then nan32
    else
      let l : Int := (ilog2 m : Int) + e
      if isPow2 m ∧ l % 2 = 0 then toF32 (.fin false 1 (-(l / 2)))
      else within 3 1 a false (enclose (isqrtGo (2 ^ ((2 * (spP : Int) - e).toNat) / m) 420 0))

/-- VTANH (R289). -/
def sfTanh (a : BitVec 32) : BitVec 32 :=
  match f32 a with
  | .nan => nan32
  | .inf neg => if neg then 0xBF800000#32 else 0x3F800000#32
  | .fin neg m e =>
    if m = 0 then a
    else
      let t := expNeg (2 * fixOf m e)
      -- tanh v lies below v and below 1
      within 4 2 a neg (((enclose ((spOne - t) * spOne / (spOne + t))).below spOne).below (fixOf m e)).positive

/-- VSIGM (R289). -/
def sfSigm (a : BitVec 32) : BitVec 32 :=
  match f32 a with
  | .nan => nan32
  | .inf neg => if neg then 0 else 0x3F800000#32
  | .fin neg m e =>
    if m = 0 then 0x3F000000#32
    else
      let t := expNeg (fixOf m e)
      within 5 2 a false ((enclose ((if neg then t else spOne) * spOne / (spOne + t))).below spOne).positive

end Sys2Proof.Machine
end

