-- ==== Sys2Proof/Machine/Vector.lean ====
section
/-! DEFINITION. Vector arithmetic (R284 to R290), conversions and quantisation (R291 to R294), moves and permutes (R295), random
numbers (R296). -/

namespace Sys2Proof.Machine

/-! ### FP32 (R284, R285) -/

/-- `VFADD` (R284). -/
def execVfadd (c : Ctl) (o : VR) : State → Host.Outcome State Fault Refusal :=
  vOp2 c o fun a b => faddRne a b

/-- `VFSUB` (R284). -/
def execVfsub (c : Ctl) (o : VR) : State → Host.Outcome State Fault Refusal :=
  vOp2 c o fun a b => toF32 ((f32 a).add (f32 b).neg)

/-- `VFMUL` (R284). -/
def execVfmul (c : Ctl) (o : VR) : State → Host.Outcome State Fault Refusal :=
  vOp2 c o fun a b => toF32 ((f32 a).mul (f32 b))

/-- `VFMA` (R284), rounded once. -/
def execVfma (c : Ctl) (o : VR) : State → Host.Outcome State Fault Refusal :=
  vOp3 c o fun a b d => toF32 (((f32 a).mul (f32 b)).add (f32 d))

/-- `VFMS` (R284), rounded once. -/
def execVfms (c : Ctl) (o : VR) : State → Host.Outcome State Fault Refusal :=
  vOp3 c o fun a b d => toF32 (((f32 a).mul (f32 b)).add (f32 d).neg)

/-- `VFNMA` (R284), rounded once. -/
def execVfnma (c : Ctl) (o : VR) : State → Host.Outcome State Fault Refusal :=
  vOp3 c o fun a b d => toF32 ((f32 d).add ((f32 a).mul (f32 b)).neg)

/-- `VFMIN` (R285). -/
def execVfmin (c : Ctl) (o : VR) : State → Host.Outcome State Fault Refusal :=
  vOp2 c o fminBits

/-- `VFMAX` (R285). -/
def execVfmax (c : Ctl) (o : VR) : State → Host.Outcome State Fault Refusal :=
  vOp2 c o fmaxBits

/-- `VFABS` (R285). -/
def execVfabs (c : Ctl) (o : VR) : State → Host.Outcome State Fault Refusal :=
  vOp1 c o fun a => if (f32 a).isNan then nan32 else a &&& 0x7FFFFFFF#32

/-- `VFNEG` (R285). -/
def execVfneg (c : Ctl) (o : VR) : State → Host.Outcome State Fault Refusal :=
  vOp1 c o fun a => if (f32 a).isNan then nan32 else a ^^^ 0x80000000#32

/-- `VFCMP` (R285). -/
def execVfcmp (c : Ctl) (o : VP) : State → Host.Outcome State Fault Refusal :=
  vCompare c o (fcompare o.cond.toNat)

/-! ### Packed 16-bit elements (R286) -/

/-- `VHADD` (R286). -/
def execVhaddBf16 (c : Ctl) (o : VR) : State → Host.Outcome State Fault Refusal :=
  vOp2 c o fun a b => halves bf16 (fun x y _ => x.add y) a b 0

/-- `VHADD` (R286). -/
def execVhaddF16 (c : Ctl) (o : VR) : State → Host.Outcome State Fault Refusal :=
  vOp2 c o fun a b => halves fp16 (fun x y _ => x.add y) a b 0

/-- `VHMUL` (R286). -/
def execVhmulBf16 (c : Ctl) (o : VR) : State → Host.Outcome State Fault Refusal :=
  vOp2 c o fun a b => halves bf16 (fun x y _ => x.mul y) a b 0

/-- `VHMUL` (R286). -/
def execVhmulF16 (c : Ctl) (o : VR) : State → Host.Outcome State Fault Refusal :=
  vOp2 c o fun a b => halves fp16 (fun x y _ => x.mul y) a b 0

/-- `VHFMA` (R286). -/
def execVhfmaBf16 (c : Ctl) (o : VR) : State → Host.Outcome State Fault Refusal :=
  vOp3 c o (halves bf16 fun x y z => (x.mul y).add z)

/-- `VHFMA` (R286). -/
def execVhfmaF16 (c : Ctl) (o : VR) : State → Host.Outcome State Fault Refusal :=
  vOp3 c o (halves fp16 fun x y z => (x.mul y).add z)

/-! ### Integers (R287) -/

/-- A whole number clamped to a signed 32-bit lane. -/
def clamp32 (v : Int) : BitVec 32 := BitVec.ofInt 32 (max (-2147483648) (min 2147483647 v))

/-- `VADD` (R287). -/
def execVadd (c : Ctl) (o : VR) : State → Host.Outcome State Fault Refusal :=
  vOp2 c o fun a b => a + b

/-- `VSUB` (R287). -/
def execVsub (c : Ctl) (o : VR) : State → Host.Outcome State Fault Refusal :=
  vOp2 c o fun a b => a - b

/-- `VMUL` (R287). -/
def execVmul (c : Ctl) (o : VR) : State → Host.Outcome State Fault Refusal :=
  vOp2 c o fun a b => a * b

/-- `VMULH` (R287). -/
def execVmulh (c : Ctl) (o : VR) : State → Host.Outcome State Fault Refusal :=
  vOp2 c o fun a b => (a.signExtend 64 * b.signExtend 64).extractLsb' 32 32

/-- `VADDS` (R287). -/
def execVadds (c : Ctl) (o : VR) : State → Host.Outcome State Fault Refusal :=
  vOp2 c o fun a b => clamp32 (a.toInt + b.toInt)

/-- `VSUBS` (R287). -/
def execVsubs (c : Ctl) (o : VR) : State → Host.Outcome State Fault Refusal :=
  vOp2 c o fun a b => clamp32 (a.toInt - b.toInt)

/-- `VMIN` (R287). -/
def execVmin (c : Ctl) (o : VR) : State → Host.Outcome State Fault Refusal :=
  vOp2 c o fun a b => if b.slt a then b else a

/-- `VMAX` (R287). -/
def execVmax (c : Ctl) (o : VR) : State → Host.Outcome State Fault Refusal :=
  vOp2 c o fun a b => if a.slt b then b else a

/-- `VMINU` (R287). -/
def execVminu (c : Ctl) (o : VR) : State → Host.Outcome State Fault Refusal :=
  vOp2 c o fun a b => if b.ult a then b else a

/-- `VMAXU` (R287). -/
def execVmaxu (c : Ctl) (o : VR) : State → Host.Outcome State Fault Refusal :=
  vOp2 c o fun a b => if a.ult b then b else a

/-- `VAND` (R287). -/
def execVand (c : Ctl) (o : VR) : State → Host.Outcome State Fault Refusal :=
  vOp2 c o fun a b => a &&& b

/-- `VOR` (R287). -/
def execVor (c : Ctl) (o : VR) : State → Host.Outcome State Fault Refusal :=
  vOp2 c o fun a b => a ||| b

/-- `VXOR` (R287). -/
def execVxor (c : Ctl) (o : VR) : State → Host.Outcome State Fault Refusal :=
  vOp2 c o fun a b => a ^^^ b

/-- `VSHL` (R287). -/
def execVshl (c : Ctl) (o : VR) : State → Host.Outcome State Fault Refusal :=
  vOp2 c o fun a b => a <<< (b.toNat % 32)

/-- `VSHR` (R287). -/
def execVshr (c : Ctl) (o : VR) : State → Host.Outcome State Fault Refusal :=
  vOp2 c o fun a b => a >>> (b.toNat % 32)

/-- `VSRA` (R287). -/
def execVsra (c : Ctl) (o : VR) : State → Host.Outcome State Fault Refusal :=
  vOp2 c o fun a b => a.sshiftRight (b.toNat % 32)

/-- `VCMP` (R287, R257). -/
def execVcmp (c : Ctl) (o : VP) : State → Host.Outcome State Fault Refusal :=
  vCompare c o fun a b => compare o.cond.toNat a b

/-- `VABS` (R287). -/
def execVabs (c : Ctl) (o : VR) : State → Host.Outcome State Fault Refusal :=
  vOp1 c o fun a => if a.slt 0 then -a else a

/-! ### Dot products (R288) -/

/-- Element `k` of `w` bits, as a signed or unsigned value. -/
def dotElem (x : BitVec 32) (w k : Nat) (signed : Bool) : Int :=
  let e := bits x.toNat (w * k + w - 1) (w * k)
  if signed then sext e w else (e : Int)

/-- The function `vdot` of R288. -/
def vdot (n w : Nat) (sa sb sat : Bool) (a b d : BitVec 32) : BitVec 32 :=
  let v := (List.range n).foldl (fun s k => s + dotElem a w k sa * dotElem b w k sb) d.toInt
  if sat then clamp32 v else BitVec.ofInt 32 v

/-- `VDOT4.SS` (R288). -/
def execVdot4SS (c : Ctl) (o : VR) : State → Host.Outcome State Fault Refusal :=
  vOp3 c o (vdot 4 8 true true false)

/-- `VDOT4.SU` (R288). -/
def execVdot4SU (c : Ctl) (o : VR) : State → Host.Outcome State Fault Refusal :=
  vOp3 c o (vdot 4 8 true false false)

/-- `VDOT4.US` (R288). -/
def execVdot4US (c : Ctl) (o : VR) : State → Host.Outcome State Fault Refusal :=
  vOp3 c o (vdot 4 8 false true false)

/-- `VDOT4.UU` (R288). -/
def execVdot4UU (c : Ctl) (o : VR) : State → Host.Outcome State Fault Refusal :=
  vOp3 c o (vdot 4 8 false false false)

/-- `VDOT4S.SS` (R288). -/
def execVdot4sSS (c : Ctl) (o : VR) : State → Host.Outcome State Fault Refusal :=
  vOp3 c o (vdot 4 8 true true true)

/-- `VDOT4S.SU` (R288). -/
def execVdot4sSU (c : Ctl) (o : VR) : State → Host.Outcome State Fault Refusal :=
  vOp3 c o (vdot 4 8 true false true)

/-- `VDOT4S.US` (R288). -/
def execVdot4sUS (c : Ctl) (o : VR) : State → Host.Outcome State Fault Refusal :=
  vOp3 c o (vdot 4 8 false true true)

/-- `VDOT4S.UU` (R288). -/
def execVdot4sUU (c : Ctl) (o : VR) : State → Host.Outcome State Fault Refusal :=
  vOp3 c o (vdot 4 8 false false true)

/-- `VDOT8.SS` (R288). -/
def execVdot8SS (c : Ctl) (o : VR) : State → Host.Outcome State Fault Refusal :=
  vOp3 c o (vdot 8 4 true true false)

/-- `VDOT8.SU` (R288). -/
def execVdot8SU (c : Ctl) (o : VR) : State → Host.Outcome State Fault Refusal :=
  vOp3 c o (vdot 8 4 true false false)

/-- `VDOT8.US` (R288). -/
def execVdot8US (c : Ctl) (o : VR) : State → Host.Outcome State Fault Refusal :=
  vOp3 c o (vdot 8 4 false true false)

/-- `VDOT8.UU` (R288). -/
def execVdot8UU (c : Ctl) (o : VR) : State → Host.Outcome State Fault Refusal :=
  vOp3 c o (vdot 8 4 false false false)

/-- `VDOT8S.SS` (R288). -/
def execVdot8sSS (c : Ctl) (o : VR) : State → Host.Outcome State Fault Refusal :=
  vOp3 c o (vdot 8 4 true true true)

/-- `VDOT8S.SU` (R288). -/
def execVdot8sSU (c : Ctl) (o : VR) : State → Host.Outcome State Fault Refusal :=
  vOp3 c o (vdot 8 4 true false true)

/-- `VDOT8S.US` (R288). -/
def execVdot8sUS (c : Ctl) (o : VR) : State → Host.Outcome State Fault Refusal :=
  vOp3 c o (vdot 8 4 false true true)

/-- `VDOT8S.UU` (R288). -/
def execVdot8sUU (c : Ctl) (o : VR) : State → Host.Outcome State Fault Refusal :=
  vOp3 c o (vdot 8 4 false false true)

/-! ### Special functions (R289, R290) -/

/-- `VEXP2` (R289, R290). -/
def execVexp2 (c : Ctl) (o : VR) : State → Host.Outcome State Fault Refusal :=
  vOp1 c o sfExp2

/-- `VLOG2` (R289, R290). -/
def execVlog2 (c : Ctl) (o : VR) : State → Host.Outcome State Fault Refusal :=
  vOp1 c o sfLog2

/-- `VRCP` (R289, R290). -/
def execVrcp (c : Ctl) (o : VR) : State → Host.Outcome State Fault Refusal :=
  vOp1 c o sfRcp

/-- `VRSQ` (R289, R290). -/
def execVrsq (c : Ctl) (o : VR) : State → Host.Outcome State Fault Refusal :=
  vOp1 c o sfRsq

/-- `VTANH` (R289, R290). -/
def execVtanh (c : Ctl) (o : VR) : State → Host.Outcome State Fault Refusal :=
  vOp1 c o sfTanh

/-- `VSIGM` (R289, R290). -/
def execVsigm (c : Ctl) (o : VR) : State → Host.Outcome State Fault Refusal :=
  vOp1 c o sfSigm

/-! ### Random numbers (R296) -/

/-- The rounds of Philox-4x32-10 (R296). -/
def philoxGo : Nat → BitVec 32 → BitVec 32 → BitVec 32 → BitVec 32 → BitVec 32 → BitVec 32 → List (BitVec 32)
  | 0, c0, c1, c2, c3, _, _ => [c0, c1, c2, c3]
  | n + 1, c0, c1, c2, c3, k0, k1 =>
    let p0 := 0xD2511F53#64 * c0.setWidth 64
    let p1 := 0xCD9E8D57#64 * c2.setWidth 64
    philoxGo n (p1.extractLsb' 32 32 ^^^ c1 ^^^ k0) (p1.setWidth 32) (p0.extractLsb' 32 32 ^^^ c3 ^^^ k1) (p0.setWidth 32)
      (k0 + 0x9E3779B9#32) (k1 + 0xBB67AE85#32)

/-- The function `philox` of R296. -/
def philox (ctr : BitVec 128) (k0 k1 : BitVec 32) : List (BitVec 32) :=
  philoxGo 10 (ctr.extractLsb' 0 32) (ctr.extractLsb' 32 32) (ctr.extractLsb' 64 32) (ctr.extractLsb' 96 32) k0 k1

/-- The 128 lanes of one draw (R296). -/
def philoxVec (ctr : BitVec 128) (key : Dword) : Vec :=
  let ws := (List.range 32).flatMap fun j => philox (ctr + BitVec.ofNat 128 j) (key.setWidth 32) (key.extractLsb' 32 32)
  BitVec.ofNat 4096 (ws.foldr (fun w a => w.toNat + 2 ^ 32 * a) 0)

/-- `VRAND` (R296): an enabled one advances the counter by 32, whatever its lane mask. -/
def execVrand (c : Ctl) (o : VK) : State → Host.Outcome State Fault Refusal :=
  vOp c fun m => do
    let s ← get
    let v := philoxVec s.core.rng (s.getX o.xk.toNat)
    set (s.onCore fun k => { k with rng := k.rng + 32 })
    vResult o.dst v m c.lat.toNat

/-! ### Conversions (R291) -/

/-- `VCVT.F32.INT` (R291). -/
def execVcvtF32Int (c : Ctl) (o : VR) : State → Host.Outcome State Fault Refusal :=
  vOp1 c o fun a => toF32 (.ofInt a.toInt)

/-- `VCVT.F32.UINT` (R291). -/
def execVcvtF32Uint (c : Ctl) (o : VR) : State → Host.Outcome State Fault Refusal :=
  vOp1 c o fun a => toF32 (.ofInt a.toNat)

/-- `VCVT.INT.F32` (R291). -/
def execVcvtIntF32 (c : Ctl) (o : VR) : State → Host.Outcome State Fault Refusal :=
  vOp1 c o fun a => BitVec.ofInt 32 ((f32 a).toInt false (-2147483648) 2147483647)

/-- `VCVT.UINT.F32` (R291). -/
def execVcvtUintF32 (c : Ctl) (o : VR) : State → Host.Outcome State Fault Refusal :=
  vOp1 c o fun a => BitVec.ofInt 32 ((f32 a).toInt false 0 4294967295)

/-- `VCVT.INT.F32.RTZ` (R291). -/
def execVcvtIntF32Rtz (c : Ctl) (o : VR) : State → Host.Outcome State Fault Refusal :=
  vOp1 c o fun a => BitVec.ofInt 32 ((f32 a).toInt true (-2147483648) 2147483647)

/-- `VCVT.UINT.F32.RTZ` (R291). -/
def execVcvtUintF32Rtz (c : Ctl) (o : VR) : State → Host.Outcome State Fault Refusal :=
  vOp1 c o fun a => BitVec.ofInt 32 ((f32 a).toInt true 0 4294967295)

/-- Two FP32 lanes rounded into the halves of one lane (R291). -/
def packHalves (f : FpFmt) (rtz : Bool) (a b : BitVec 32) : BitVec 32 :=
  BitVec.ofNat 32 (f.round rtz (f32 a) + 65536 * f.round rtz (f32 b))

/-- Half `h` of a lane in FP32, exactly (R291). -/
def unpackHalf (f : FpFmt) (h : Nat) (a : BitVec 32) : BitVec 32 :=
  toF32 (f.value (bits a.toNat (16 * h + 15) (16 * h)))

/-- `VCVT.BF16.F32` (R291). -/
def execVcvtBf16F32 (c : Ctl) (o : VR) : State → Host.Outcome State Fault Refusal :=
  vOp2 c o (packHalves bf16 false)

/-- `VCVT.BF16.F32.RTZ` (R291). -/
def execVcvtBf16F32Rtz (c : Ctl) (o : VR) : State → Host.Outcome State Fault Refusal :=
  vOp2 c o (packHalves bf16 true)

/-- `VCVT.F32.BF16` (R291). -/
def execVcvtF32Bf16 (c : Ctl) (o : VR) : State → Host.Outcome State Fault Refusal :=
  vOp1 c o (unpackHalf bf16 (o.fn.toNat % 2))

/-- `VCVT.F16.F32` (R291). -/
def execVcvtF16F32 (c : Ctl) (o : VR) : State → Host.Outcome State Fault Refusal :=
  vOp2 c o (packHalves fp16 false)

/-- `VCVT.F16.F32.RTZ` (R291). -/
def execVcvtF16F32Rtz (c : Ctl) (o : VR) : State → Host.Outcome State Fault Refusal :=
  vOp2 c o (packHalves fp16 true)

/-- `VCVT.F32.F16` (R291). -/
def execVcvtF32F16 (c : Ctl) (o : VR) : State → Host.Outcome State Fault Refusal :=
  vOp1 c o (unpackHalf fp16 (o.fn.toNat % 2))

/-! ### Quantisation (R292 to R294) -/

/-- The value of a named format register; one that is not valid raises ILLEGAL_SLOT (R204, R283). -/
def validFmt (fs : Nat) : M NFmt := do
  let v := (← get).getF fs
  M.need (fmtValid v) (.fault illegalSlot)
  pure (nfmt v)

/-- The scale code of one cluster: from the largest finite magnitude of its enabled lanes, and whether one holds a NaN (R292). -/
def clusterScale (f : NFmt) (xs : List Num) : Nat :=
  if f.scf = 0 ∧ xs.any Num.isNan then 255 else (f.scaleX (xs.foldl (fun a x => maxLead a x.lead) none)).2

/-- `VSCL` (R292). -/
def execVscl (c : Ctl) (o : VR) : State → Host.Outcome State Fault Refusal :=
  vOp c fun m => do
    let f ← validFmt o.fsel.toNat
    M.need (f.blk != 0) (.fault illegalSlot)
    let a ← source o.opa
    let codes := (List.range 8).map fun cl =>
      clusterScale f (((List.range 16).filter fun l => m.getLsbD (16 * cl + l)).map fun l => f32 (lane a (16 * cl + l)))
    vResult o.dst (mkVec fun i => BitVec.ofNat 32 ((codes[i / 16]?).getD 0)) m c.lat.toNat

/-- The function `vqnt_lane` of R293. -/
def vqntLane (f : NFmt) (x : Num) (k : Nat) : Nat :=
  if f.blk = 0 then f.nearestNum x 0
  else if x.isNan then 0
  else if f.scf = 0 then (if k = 255 then 0 else f.nearestNum x ((k : Int) - 127))
  else
    match e4m3.decode k, x with
    | .fin sn m e, .fin xn xm xe => if m = 0 then 0 else f.nearest (sn != xn) xm m (xe - e)
    | .fin sn m _, .inf xn => if m = 0 then 0 else f.nearestNum (.inf (sn != xn)) 0
    | _, _ => 0

/-- `VQNT` (R293): with BLK = 0 there is no scale source. -/
def execVqnt (c : Ctl) (o : VR) : State → Host.Outcome State Fault Refusal :=
  vOp c fun m => do
    let f ← validFmt o.fsel.toNat
    M.need (f.blk != 0 || o.opb == 0) (.fault illegalSlot)
    let a ← source o.opa
    let ks ← if f.blk = 0 then pure (0 : Vec) else source o.opb
    let k (i : Nat) := bits (lane ks i).toNat 7 0
    vResult o.dst (mkVec fun i => BitVec.ofNat 32 (vqntLane f (f32 (lane a i)) (k i) % 256 + 256 * k i)) m c.lat.toNat

/-- `VDQNT` (R294): with BLK = 0 there is no scale source. -/
def execVdqnt (c : Ctl) (o : VR) : State → Host.Outcome State Fault Refusal :=
  vOp c fun m => do
    let f ← validFmt o.fsel.toNat
    M.need (f.blk != 0 || o.opb == 0) (.fault illegalSlot)
    let a ← source o.opa
    let ks ← if f.blk = 0 then pure (0 : Vec) else source o.opb
    vResult o.dst (mkVec fun i => toF32 (f.scaled (lane a i).toNat (bits (lane ks i).toNat 7 0))) m c.lat.toNat

/-! ### Moves and permutes (R295) -/

/-- `VSEL` (R295). -/
def execVsel (c : Ctl) (o : VR) : State → Host.Outcome State Fault Refusal :=
  vOp c fun m => do
    let a ← source o.opa
    let b ← source o.opb
    let pa := (← get).getPq (bits o.fn.toNat 4 0)
    vResult o.dst (mkVec fun i => if pa.getLsbD i then lane a i else lane b i) m c.lat.toNat

/-- `VMOV` (R295). -/
def execVmov (c : Ctl) (o : VR) : State → Host.Outcome State Fault Refusal :=
  vOp1 c o fun a => a

/-- `VMOVI` (R295). -/
def execVmovi (c : Ctl) (o : VI) : State → Host.Outcome State Fault Refusal :=
  vOp c fun m => vResult o.dst (mkVec fun _ => o.imm) m c.lat.toNat

/-- An operation that takes each lane from the lane of the first source that an index names, or 0 (R281, R295). -/
def vPick (c : Ctl) (o : VR) (useB : Bool) (f : Nat → BitVec 32 → Option Nat) : State → Host.Outcome State Fault Refusal :=
  vOp c fun m => do
    let a ← source o.opa
    let b ← if useB then source o.opb else pure (0 : Vec)
    vResult o.dst (mkVec fun i => (f i (lane b i)).elim 0 (lane a)) m c.lat.toNat

/-- `VBCAST` (R295). -/
def execVbcast (c : Ctl) (o : VR) : State → Host.Outcome State Fault Refusal :=
  vPick c o false fun i _ => some (i / 16 * 16 + o.fn.toNat % 16)

/-- `VEXTR` (R295): written only where the lane's predicate bit is 1. -/
def execVextr (c : Ctl) (o : VX) : State → Host.Outcome State Fault Refusal :=
  vOp c fun m => do
    let a ← source o.opa
    let i := o.lane.toNat
    if m.getLsbD i then M.change (·.putX o.xd.toNat ((lane a i).setWidth 64) c.lat.toNat)
    else if o.xd = 0 then pure ()
    else M.change (·.noteDest .x o.xd.toNat)

/-- `VINS` (R295): the destination is a source too. -/
def execVins (c : Ctl) (o : VR) : State → Host.Outcome State Fault Refusal :=
  vOp c fun m => do
    let a ← source o.opa
    let s ← get
    let d := bits o.dst.toNat 5 0
    M.need (!s.isFreed d) (.fault deadreg)
    let old := s.getV d
    let n := bits o.fn.toNat 6 0
    vResult o.dst (mkVec fun i => if i = n then lane a n else lane old i) m c.lat.toNat

/-- `VPERM` (R295). -/
def execVperm (c : Ctl) (o : VR) : State → Host.Outcome State Fault Refusal :=
  vPick c o true fun i b => if b.getLsbD 4 then none else some (i / 16 * 16 + b.toNat % 16)

/-- `VXCL` (R295). -/
def execVxcl (c : Ctl) (o : VR) : State → Host.Outcome State Fault Refusal :=
  vPick c o true fun _ b => if b.getLsbD 7 then none else some (b.toNat % 128)

/-- `VXCL.X` (R295). -/
def execVxclX (c : Ctl) (o : VR) : State → Host.Outcome State Fault Refusal :=
  vPick c o false fun i _ => some (i ^^^ bits o.fn.toNat 6 0)

/-! ### Scratchpad access (R297 to R301) -/

/-- Run length and alignment A of a mode, in bytes (R297). -/
def spRunA (mode : Nat) (f : NFmt) : Nat × Nat :=
  match mode with
  | 0 => (512, 64)
  | 1 => (256, 64)
  | 2 => (16 * f.container, min (16 * f.container) 64)
  | _ => (128 / f.blk, 128 / f.blk)

/-- The step of a cursor. Where a disabled `.SC` operation names a format without blocks, R297 gives A no value. -/
def State.vmStep (s : State) (o : VM) : Int :=
  let f := nfmt (s.getF o.fsel.toNat)
  let a := if o.mode.toNat = 3 ∧ f.blk = 0 then (Config.free 21 s.tick .word s.core.issue.slot s.cur).toNat else (spRunA o.mode.toNat f).2
  a * sext o.step.toNat 10

/-- The cursor of `VLD` and `VST` (R297, R230). -/
def State.vmCursor (s : State) (o : VM) : State :=
  s.moveCursors [64 * o.offb.toNat + (s.getX o.xb.toNat).toNat] [(s.vmStep o, spSize)]

/-- The checks of R297 at an enabled issue; answers the cursor, the run and the format. -/
def vmRun (o : VM) : M (Nat × Nat × NFmt) := do
  let f ← if o.mode.toNat ≥ 2 then validFmt o.fsel.toNat else pure (nfmt 0)
  M.need (o.mode != 3 || f.blk != 0) (.fault illegalSlot)
  let c := (← get).cursor 0
  let (run, a) := spRunA o.mode.toNat f
  M.need (c % a == 0) (.fault bankConflict)
  pure (c, run, f)

/-- Bits a lane takes in a run (R297). -/
def vmWidth (mode : Nat) (f : NFmt) : Nat := match mode with | 0 => 32 | 1 => 16 | _ => f.container

/-- Bits of a lane that hold its value: the container bits above a narrow code are ignored by a load, and a store writes them as zero (R205).
(DEDUCED, log entry 85) -/
def vmCode (mode : Nat) (f : NFmt) : Nat := match mode with | 0 => 32 | 1 => 16 | _ => f.w

/-- `VLD` (R297, R298). -/
def execVld (c : Ctl) (o : VM) (s : State) : Host.Outcome State Fault Refusal :=
  vOp c (fun m => do
    let (off, run, f) ← vmRun o
    touchRun off run false
    let v := (← get).spRun off run
    let w := vmWidth o.mode.toNat f
    let x (i : Nat) : Nat := if o.mode = 3 then bits v (8 * (i / f.blk) + 7) (8 * (i / f.blk)) else bits v (w * i + w - 1) (w * i) % 2 ^ vmCode o.mode.toNat f
    vResult (o.data.extractLsb' 1 8) (mkVec fun i => BitVec.ofNat 32 (x i)) m c.lat.toNat) (s.vmCursor o)

/-- `VST` (R297, R298): the bits of disabled lanes keep their value. -/
def execVst (c : Ctl) (o : VM) (s : State) : Host.Outcome State Fault Refusal :=
  vOp c (fun m => do
    let d ← source o.data
    let (off, run, f) ← vmRun o
    touchRun off run true
    let w := vmWidth o.mode.toNat f
    let val := if o.mode = 3 then digits 8 (fun b => bits (lane d (f.blk * b)).toNat 15 8) 0 run
      else digits w (fun i => (lane d i).toNat % 2 ^ vmCode o.mode.toNat f) 0 128
    let mask := if o.mode = 3 then digits 8 (fun b => if m.getLsbD (f.blk * b) then 255 else 0) 0 run
      else digits w (fun i => if m.getLsbD i then 2 ^ w - 1 else 0) 0 128
    M.change (·.putRun off run val mask c.lat.toNat)) (s.vmCursor o)

/-- The cursor of `VGATH` and `VSCAT` (R299, R230). -/
def State.vgCursor (s : State) (o : VG) : State :=
  s.moveCursors [64 * o.offb.toNat + (s.getX o.xb.toNat).toNat] [(64 * sext o.step.toNat 7, spSize)]

/-- The offset of a lane's word (R299). -/
def laneWord (c : Nat) (idx : BitVec 32) : Nat := spGroup c * 2 ^ 20 + (bits c 19 0 + bits idx.toNat 19 0) % 2 ^ 20 / 4 * 4

/-- The words of the enabled lanes, with the checks and the window of R300 and the granules of R42: lane and offset. -/
def gatherWords (idx : Vec) (m : Pred) : M (List (Nat × Nat)) := do
  let c := (← get).cursor 0
  M.need (c % 64 == 0) (.fault bankConflict)
  let ws := ((List.range 128).filter m.getLsbD).map fun i => (i, laneWord c (lane idx i))
  let chunks := (ws.map fun w => w.2 / 64).eraseDups
  M.need ((List.range 16).all fun b => decide ((chunks.filter fun k => k % 16 = b).length ≤ 8)) (.fault bankConflict)
  let _ ← chunks.mapM fun k => needGranule (64 * k)
  M.change (·.onCore fun k => { k with windows := k.windows ++ [⟨k.issue.slot, spGroup c, k.fetchCycle⟩] })
  pure ws

/-- `VGATH` (R299, R300). -/
def execVgath (c : Ctl) (o : VG) (s : State) : Host.Outcome State Fault Refusal :=
  vOp c (fun m => do
    let idx ← source o.idx
    let ws ← gatherWords idx m
    let _ ← (ws.map (·.2 / 64)).eraseDups.mapM needSound
    let s ← get
    let vals := ws.map fun w => (w.1, s.spRun w.2 4)
    let v := vals.foldl (fun (v : Vec) w => v ||| (BitVec.ofNat 4096 w.2 <<< (32 * w.1))) 0
    vResult (o.data.extractLsb' 1 8) v m c.lat.toNat) (s.vgCursor o)

/-- The lanes of a vector written to their words, of several lanes on one word the highest (R299). -/
def State.scatter (s : State) (d : Vec) (ws : List (Nat × Nat)) (lat : Nat) : State :=
  (ws.map fun w => w.2 / 64).eraseDups.foldl (init := s) fun s k =>
    let (val, mask) := (ws.filter fun w => w.2 / 64 = k).foldl (init := (0, 0)) fun (v, q) w =>
      let b := 8 * (w.2 % 64)
      (setBits v (b + 31) b (lane d w.1).toNat, setBits q (b + 31) b (2 ^ 32 - 1))
    s.putRun (64 * k) 64 val mask lat

/-- `VSCAT` (R299, R300). -/
def execVscat (c : Ctl) (o : VG) (s : State) : Host.Outcome State Fault Refusal :=
  vOp c (fun m => do
    let d ← source o.data
    let idx ← source o.idx
    let ws ← gatherWords idx m
    M.change (·.scatter d ws c.lat.toNat)) (s.vgCursor o)

end Sys2Proof.Machine
end

