-- ==== Sys2Proof/Machine/Matrix.lean ====
section
/-! DEFINITION. M-slot operations (R302 to R315): operands and their fetch, multiplications, reductions, tile loads and stores,
tile-only operations. -/

namespace Sys2Proof.Machine

/-! ### The M slot and busy tiles (R91, R94, R304) -/

/-- The M slot is free and none of the tiles is busy, or the bundle stalls while the fetch goes on. (DEDUCED, log entry 18) After one such wait the M
slot is free and every tile ready: when each busy bit clears is open. (DESIGN CHOICE, log entry 18) -/
def needTiles (ts : List Nat) : M Unit := do
  let s ← get
  let k := s.core
  let left := match k.mfetch with
    | some f => f.start + f.len - k.fetchCycle
    | none => 0
  if left ≠ 0 then M.stop (.stall .other) [.cycles left]
  else if ts.any k.tileBusy.getLsbD then
    M.stop (.stall .other) [.cycles (Config.free 8 s.tick .delay (ts.headD 0) s.cur).toNat]
  else pure ()

/-- The tiles that an operation writes are busy (R94, R304). -/
def setBusy (ts : List Nat) : M Unit :=
  M.change (·.onCore fun k => { k with tileBusy := ts.foldl (fun b t => b ||| BitVec.ofNat 12 (2 ^ t)) k.tileBusy })

/-- A tile of the executing core. -/
def State.tile (s : State) (t i j : Nat) : Num := accNum (s.core.tiles.get t i j)

/-- Write a tile whole. -/
def State.putTile (s : State) (t : Nat) (f : Nat → Nat → Acc40) : State := s.onCore fun k => { k with tiles := k.tiles.setTile t f }

/-! ### Operands (R88, R302, R303) -/

/-- A format named through a register is valid (R204). -/
def needFmt (kind fs : Nat) : M MatFmt := do
  let s ← get
  M.need (kind != 0 || fmtValid (s.getF fs)) (.fault illegalSlot)
  pure (s.matFmt kind fs)

/-- An operand lies in its bank group with both planes, and starts at a chunk (R89, R307). -/
def needPlace (start pd steps group : Nat) : M Unit := do
  M.need (start % 64 == 0) (.fault bankConflict)
  M.need (decide (group * 2 ^ 20 ≤ start) && decide (start + 64 * steps ≤ (group + 1) * 2 ^ 20) &&
    decide (start + 64 + 1024 * pd + 64 * steps ≤ (group + 1) * 2 ^ 20)) (.fault bankConflict)

/-- An operand in its place, with its granules filled (R303). -/
def needOperand (start pd steps group : Nat) : M Unit := do
  needPlace start pd steps group
  let _ ← ((List.range steps).flatMap fun j => [start + 64 * j, start + 64 + 1024 * pd + 64 * j]).mapM fun a => do
    needGranule a
    needSound (a / 64)
  pure ()

/-- The reservation of an operand (R88). -/
def reserveOf (start steps : Nat) : Reserve := ⟨spGroup start, spBank start, 2, steps⟩

/-- A fetch starts with this issue (R90). -/
def startFetch (f : Nat → MFetch) : M Unit := M.change (·.onCore fun k => { k with mfetch := some (f k.fetchCycle) })

/-- A fetch operation starts its fetch of `len` steps and writes its tiles, which are busy from now on (R90, R94, R303, R304). -/
def startWork (len : Nat) (reserve : List Reserve) (ops : List (Nat × List Nat)) (op : MOp) (fa fb : Nat) : M Unit := do
  let s ← get
  let w : MWork := ⟨op, s.getF fa, s.getF fb, s.core.tiles⟩
  startFetch fun f => ⟨f, len, reserve, [], ops, some w⟩
  M.change (·.onCore fun k => { k with tiles := w.into (ops.map (·.2)) k.tiles })
  setBusy w.tiles

/-! ### MMA (R307) -/

/-- The cursors of format MX (R305). -/
def State.mxCursor (s : State) (o : MX) : State :=
  let fa := (s.matFmt o.kind.toNat o.fa.toNat).steps (kOf o.kb)
  let fb := (s.matFmt o.kind.toNat o.fb.toNat).steps (kOf o.kb)
  s.moveCursors [(s.getX o.xa.toNat).toNat, (s.getX o.xb.toNat).toNat]
    [(64 * fa * sext o.sta.toNat 4, spSize), (64 * fb * sext o.stb.toNat 4, spSize)]

/-- `MMA` (R307). -/
def execMma (c : Ctl) (o : MX) (s : State) : Host.Outcome State Fault Refusal :=
  slotOp c (do
    let fa ← needFmt o.kind.toNat o.fa.toNat
    let fb ← needFmt o.kind.toNat o.fb.toNat
    M.need (fa.c == fb.c) (.fault illegalSlot)
    let K := kOf o.kb
    let pd := o.pd.toNat
    let s ← get
    let sa := s.cursor 0
    let sb := s.cursor 1
    let na := fa.steps K
    let nb := fb.steps K
    needPlace sb pd nb 1
    needOperand sa pd na 0
    needOperand sb pd nb 1
    let td := o.td.toNat
    needTiles [td]
    let s ← get
    startWork (max na nb) [reserveOf sa na, reserveOf sb nb] (s.planes sa pd na ++ s.planes sb pd nb) (.mma o) o.fa.toNat o.fb.toNat) (s.mxCursor o)

/-! ### MMAS (R308, R309) -/

/-- The cursors of format MS (R305). -/
def State.msCursor (s : State) (o : MS) : State :=
  let fa := (s.matFmt 0 o.fa.toNat).steps (kOf o.kb)
  let fb := kOf o.kb / 32 * sparseSteps (nfmt (s.getF o.fb.toNat)) (32 * (o.lvf.toNat + 1))
  s.moveCursors [(s.getX o.xa.toNat).toNat, (s.getX o.xb.toNat).toNat]
    [(64 * fa * sext o.sta.toNat 2, spSize), (64 * fb * sext o.stb.toNat 2, spSize)]

/-- `MMAS` (R308, R309). -/
def execMmas (c : Ctl) (o : MS) (s : State) : Host.Outcome State Fault Refusal :=
  slotOp c (do
    let fa ← validFmt o.fa.toNat
    let fb ← validFmt o.fb.toNat
    let K := kOf o.kb
    let nt := 2 ^ o.ntc.toNat
    let lv := 32 * (o.lvf.toNat + 1)
    let td := o.td.toNat
    M.need (fa.container == fb.container && (fb.blk == 0 || fb.blk == 32) && decide (lv ≤ 128 * nt) && decide (td + nt ≤ 12))
      (.fault illegalSlot)
    let pd := o.pd.toNat
    let s ← get
    let sa := s.cursor 0
    let sb := s.cursor 1
    let na := (MatFmt.narrow fa).steps K
    let nb := K / 32 * sparseSteps fb lv
    needPlace sb pd nb 1
    needOperand sa pd na 0
    needOperand sb pd nb 1
    let ts := (List.range nt).map (td + ·)
    needTiles ts
    let s ← get
    startWork (max na nb) [reserveOf sa na, reserveOf sb nb] (s.planes sa pd na ++ s.planes sb pd nb) (.mmas o) o.fa.toNat o.fb.toNat) (s.msCursor o)

/-! ### MMAT and MMAV (R310) -/

/-- The cursor of format MK (R305): the format of A is that of the rows, or the one FA names. -/
def State.mkCursor (s : State) (o : MK) : State :=
  let kind := match s.strm o.sk.toNat with
    | some t => if t.ekind = 0 then 1 else if t.ekind = 1 then 2 else 0
    | none => 0
  let fa := (s.matFmt kind o.fa.toNat).steps (kOf o.kb)
  s.moveCursors [(s.getX o.xa.toNat).toNat] [(64 * fa * sext o.sta.toNat 4, spSize)]

/-- Pop rows of a KV stream. -/
def popRows (i : Nat) : Nat → M (List Nat)
  | 0 => pure []
  | n + 1 => do
    match (← get).strm i with
    | none => M.stop (.fault illegalSlot)
    | some t => do
      let (v, t) ← kvRow i t
      M.change (·.setStrm i t)
      let rest ← popRows i n
      pure (v.toNat :: rest)

/-- What `MMAT` and `MMAV` share: the checks, A, the rows, and the products of each K-block. -/
def streamMma (c : Ctl) (o : MK) (av : Bool) (legal : Bool) (s : State) : Host.Outcome State Fault Refusal :=
  slotOp c (do
    M.need legal (.fault illegalSlot)
    match (← get).strm o.sk.toNat with
    | none => M.stop (.fault illegalSlot)
    | some t =>
      M.need (t.kind == .kv) (.fault illegalSlot)
      let fb := t.rowFmt
      let fa ← if t.ekind = 2 then needFmt 0 o.fa.toNat else do
        M.need (o.fa == 0) (.fault illegalSlot)
        pure fb
      M.need (fa.c == fb.c) (.fault illegalSlot)
      let K := kOf o.kb
      let sa := (← get).cursor 0
      let na := fa.steps K
      needOperand sa o.pd.toNat na 0
      let rows ← popRows o.sk.toNat (o.nr.toNat + 1)
      needTiles [o.td.toNat]
      let s ← get
      startWork na [reserveOf sa na] (s.planes sa o.pd.toNat na) (.stream o av t rows) o.fa.toNat 0) (s.mkCursor o)

/-- `MMAT` (R310): B[k][j] is element k of row j. -/
def execMmat (c : Ctl) (o : MK) : State → Host.Outcome State Fault Refusal := streamMma c o false (decide (o.kb.toNat ≤ 7))

/-- `MMAV` (R310): B[k][j] is element j of row k. -/
def execMmav (c : Ctl) (o : MK) : State → Host.Outcome State Fault Refusal :=
  streamMma c o true (decide (o.kb.toNat ≤ 3) && decide (o.nr.toNat < kOf o.kb))

/-! ### Reductions (R215, R311) -/

/-- `MRED` and `MSCAN`: A against an implied B of ones, or of ones and zeros. -/
def reduceOp (c : Ctl) (o : MX) (scan : Bool) (s : State) : Host.Outcome State Fault Refusal :=
  slotOp c (do
    let fa ← needFmt o.kind.toNat o.fa.toNat
    let sa := (← get).cursor 0
    let na := fa.steps (kOf o.kb)
    needOperand sa o.pd.toNat na 0
    needTiles [o.td.toNat]
    let s ← get
    startWork na [reserveOf sa na] (s.planes sa o.pd.toNat na) (.reduce o scan) o.fa.toNat 0) (s.mxCursor o)

/-- `MRED` (R215, R311). -/
def execMred (c : Ctl) (o : MX) : State → Host.Outcome State Fault Refusal := reduceOp c o false

/-- `MSCAN` (R215, R311): the zeros are real products. -/
def execMscan (c : Ctl) (o : MX) : State → Host.Outcome State Fault Refusal := reduceOp c o true

/-! ### Tile loads and stores (R312 to R314) -/

/-- The cursors of format MR (R305). -/
def State.mrCursor (s : State) (o : MR) : State :=
  s.moveCursors [(s.getX o.xa.toNat).toNat, o.row.toNat] [(64 * sext o.sto.toNat 9, spSize), (sext o.str.toNat 8, 128)]

/-- A row's format; one that a register names is valid (R204, R312). -/
def rowFmt (ty fs : Nat) : M MatFmt := do
  let s ← get
  M.need (decide (ty < 3) || fmtValid (s.getF fs)) (.fault illegalSlot)
  pure (rowFmtOf ty (s.getF fs))

/-- The checks that `MLD` and `MST` share (R312): the offset, the steps, the first tile row. -/
def rowsAt (o : MR) (m : MatFmt) : M (Nat × Nat × Nat) := do
  let s ← get
  let c0 := s.cursor 0
  let n := (o.nr.toNat + 1) * m.rowStride
  M.need (c0 % 64 == 0 && decide (c0 + n ≤ spSize) && spGroup c0 == spGroup (c0 + n - 1)) (.fault bankConflict)
  let _ ← ((List.range (n / 64)).map fun j => c0 + 64 * j).mapM needGranule
  needTiles [o.td.toNat]
  pure (c0, n / 64, s.cursor 1)

/-- `MLD` (R312 to R314). -/
def execMld (c : Ctl) (o : MR) (s : State) : Host.Outcome State Fault Refusal :=
  slotOp c (do
    let m ← rowFmt o.ty.toNat o.fs.toNat
    let (c0, steps, row) ← rowsAt o m
    let _ ← ((List.range steps).map (c0 / 64 + ·)).mapM needSound
    let s ← get
    startWork steps [⟨spGroup c0, spBank c0, 1, steps⟩] [(c0 / 64, (List.range steps).map fun j => s.fetchChunk (c0 / 64 + j))]
      (.load o row) o.fs.toNat 0) (s.mrCursor o)

/-- Consecutive elements of a row in blocks (R313). -/
def rowBlocks (blk : Nat) (xs : List Num) : List (List Num) :=
  if blk = 0 then [xs] else (List.range (xs.length / blk)).map fun b => (xs.drop (blk * b)).take blk

/-- A tile row as the readout writes it (R214, R313). -/
def MatFmt.rowOut (m : MatFmt) (xs : List Num) : Nat :=
  match m with
  | .wide f => digits m.rowBits (fun j => f.round false ((xs[j]?).getD .nan)) 0 128
  | .narrow f =>
    let qs := (rowBlocks f.blk xs).map f.quantise
    let codes := qs.flatMap (·.1)
    digits f.container (fun j => (codes[j]?).getD 0) 0 128 +
      (if f.blk = 0 then 0 else 2 ^ (128 * f.container) * digits 8 (fun b => ((qs[b]?).map (·.2)).getD 0) 0 (128 / f.blk))

/-- `MST` (R312 to R314): each step writes its chunk in its own fetch cycle. -/
def execMst (c : Ctl) (o : MR) (s : State) : Host.Outcome State Fault Refusal :=
  slotOp c (do
    let m ← rowFmt o.ty.toNat o.fs.toNat
    let (c0, steps, row) ← rowsAt o m
    let s ← get
    let td := o.td.toNat
    let per := m.rowStride / 64
    let rows := (List.range (o.nr.toNat + 1)).map fun n =>
      m.rowOut ((List.range 128).map fun j => s.tile td ((row + n) % 128) j)
    let data (j : Nat) : BitVec 512 := BitVec.ofNat 512 (((rows[j / per]?).getD 0) / 2 ^ (512 * (j % per)))
    startFetch fun f => ⟨f, steps, [⟨spGroup c0, spBank c0, 1, steps⟩],
      (List.range steps).map fun j => ⟨f + j, c0 + 64 * j, data j⟩, [], none⟩) (s.mrCursor o)

/-! ### Tile-only operations (R304, R315) -/

/-- A tile-only operation: it reads the tiles `rd`, and every entry of `td` becomes what `f` says of the state before. -/
def tileOp (c : Ctl) (td : Nat) (rd : List Nat) (f : State → Nat → Nat → Acc40) : State → Host.Outcome State Fault Refusal :=
  slotOp c do
    needTiles (td :: rd)
    M.change fun s => s.putTile td (f s)
    setBusy [td]

/-- `MZERO` (R315). -/
def execMzero (c : Ctl) (o : MT) : State → Host.Outcome State Fault Refusal := tileOp c o.td.toNat [] fun _ _ _ => 0

/-- `MADD` (R315, R213). -/
def execMadd (c : Ctl) (o : MT) : State → Host.Outcome State Fault Refusal :=
  tileOp c o.td.toNat [o.ta.toNat, o.tb.toNat] fun s i j => accAdd (s.core.tiles.get o.ta.toNat i j) (s.tile o.tb.toNat i j)

/-- `MCOPY` (R315). -/
def execMcopy (c : Ctl) (o : MT) : State → Host.Outcome State Fault Refusal :=
  tileOp c o.td.toNat [o.ta.toNat] fun s i j => s.core.tiles.get o.ta.toNat i j

/-- `MXPOSE` (R315). -/
def execMxpose (c : Ctl) (o : MT) : State → Host.Outcome State Fault Refusal :=
  tileOp c o.td.toNat [o.ta.toNat] fun s i j => s.core.tiles.get o.ta.toNat j i

/-- `MSCALE` (R315): each row by its lane of the source. -/
def execMscale (c : Ctl) (o : MT) : State → Host.Outcome State Fault Refusal :=
  slotOp c do
    let v ← source o.src
    let td := o.td.toNat
    needTiles [td]
    M.change fun s => s.putTile td fun i j => toAcc ((s.tile td i j).mul (f32 (lane v i)))
    setBusy [td]

/-- The largest entry of a row (R215). -/
def rowMax (xs : List Num) : Num :=
  if xs.any Num.isNan then .nan
  else xs.foldl (fun a x => if a.below x then x else a) (.inf true)

/-- `MRMAX` (R315): a vector result for which a read waits. -/
def execMrmax (c : Ctl) (o : MV) : State → Host.Outcome State Fault Refusal :=
  slotOp c do
    let ta := o.ta.toNat
    needTiles [ta]
    let s ← get
    toDst o.dst (mkVec fun i => toF32 (rowMax ((List.range 128).map fun j => s.tile ta i j))) (BitVec.allOnes 128) 1

end Sys2Proof.Machine
end

