-- ==== Sys2Proof/Machine/Image.lean ====
section
/-! DEFINITION. The context image in its save slot (R373 to R375): its bytes, and what a restore reads back. -/

namespace Sys2Proof.Machine

/-- The save slot of a task (R373). -/
def State.saveSlot (s : State) (mcid rank : Nat) : Nat := s.mcbF mcid 623 576 + 0x340000 * rank

/-- The key of the save area: the MC's ASID key slot (R373, R27). -/
def State.saveTag (s : State) (mcid : Nat) : LineTag := s.slotTag (s.mcAsid mcid)

/-- `n` dwords of a function, as a number. -/
def dwords (f : Nat → Nat) (n : Nat) : Nat := digits 64 f 0 n

/-- Granule `i` of the register data: x0 to x63, p0 to p23, f0 to f7, physical v0 to v63, y0 to y3 (R373). -/
def Core.regGranule (k : Core) (i : Nat) : Nat :=
  if i < 8 then dwords (fun j => (FMap.get 0 k.x (8 * i + j)).toNat) 8
  else if i < 14 then digits 128 (fun j => (FMap.get 0 k.p (4 * (i - 8) + j)).toNat) 0 4
  else if i = 14 then dwords (fun j => (FMap.get 0 k.f j).toNat) 8
  else if i < 527 then bits (FMap.get 0 k.v ((i - 15) / 8)).toNat (512 * ((i - 15) % 8) + 511) (512 * ((i - 15) % 8))
  else bits ((k.y[(i - 527) / 8]?).elim 0 (·.val.toNat)) (512 * ((i - 527) % 8) + 511) (512 * ((i - 527) % 8))

/-- The dwords of the CSR block (R373). -/
def Core.csrBlock (k : Core) : List Nat :=
  [k.lc.toNat, k.sgate.toNat, k.rwin.toNat, k.kvwait.toNat, k.pbound.toNat, k.domset.toNat,
    (k.rng.extractLsb' 0 64).toNat, (k.rng.extractLsb' 64 64).toNat, k.slip.toNat, k.plvl.toNat,
    k.epc1.toNat, k.estat1.toNat, k.ecause1.toNat, k.epc2.toNat, k.estat2.toNat, k.ecause2.toNat]

/-- The chunks of the union of four extents, ascending (R248, R373). -/
def extChunks (ext : BitVec 256) : List Nat :=
  let e := (List.range 4).map fun i => (bits ext.toNat (64 * i + 14) (64 * i), bits ext.toNat (64 * i + 30) (64 * i + 15))
  (List.range 32768).filter fun c => e.any fun x => decide (x.1 ≤ c) && decide (c < x.1 + x.2)

/-- Is a chunk part of a mapped granule that is not held back (R46, R374)? -/
def Core.dropped (k : Core) (c : Nat) : Bool :=
  match (k.mapOf (64 * c)).bind fun i => k.maps[i]? with
  | none => false
  | some m => (m.granule ((64 * c - m.off) / 256)).st != .dirty

/-- A bitmap of a list of presences, as bytes padded to a multiple of 64. -/
def bitmap (ps : List Bool) : List Byte :=
  let n := (ps.length + 511) / 512 * 64
  toBytes n (digits 1 (fun i => if ps[i]?.getD false then 1 else 0) 0 ps.length)

/-- The granules of a section that are not zero, under their bitmap: presences and bytes (R373). -/
def elide (gs : List Nat) : List Bool × List Byte :=
  (gs.map (· != 0), (gs.filter (· != 0)).flatMap (toBytes 64))

/-- The places of the granules of a section, from `a` on, by their presences. -/
def placesOf : List Bool → Nat → List (Option Nat)
  | [], _ => []
  | false :: ps, a => none :: placesOf ps a
  | true :: ps, a => some a :: placesOf ps (a + 64)

/-- 64 bytes of a tile, `j` of row `r`: 640 bytes a row, 5 an element (R373). -/
def Core.tileGranule (k : Core) (i : Nat) : Nat :=
  let t := i / 1280
  let r := i / 10 % 128
  let row := digits 40 (fun e => (k.tiles.get t r e).toNat) 0 128
  bits row (512 * (i % 10) + 511) (512 * (i % 10))

/-- The DIRTY granules that an image keeps, ascending: their 256-byte places and write masks (R45, R373). -/
def Core.heldGranules (k : Core) : FMap (BitVec 256) :=
  (k.maps.flatMap fun m => (m.gran.filter fun g => g.2.st == .dirty).map fun g => (m.off / 256 + g.1, g.2.mask)).foldl (fun m h => m.insert h.1 h.2) []

/-- The chunks that an image stores: presences, and each with its data (R373). A poisoned chunk is stored whatever it holds (R416). -/
def Image.padSection (im : Image) : List Bool × List (Nat × Nat) :=
  let k := im.core
  let cs := (extChunks im.ext).map fun c => (c, if k.dropped c then 0 else (k.sp.chunk c).toNat)
  let keep (e : Nat × Nat) : Bool := e.2 != 0 || (!k.dropped e.1 && (k.spBad.find? e.1).isSome)
  (cs.map keep, cs.filter keep)

/-- The bytes of an image after its header and control block. -/
def Image.sections (im : Image) : List Byte :=
  let k := im.core
  let (rb, rd) := elide ((List.range 559).map k.regGranule)
  let (sb, sd) := im.padSection
  let (tb, td) := elide ((List.range 15360).map fun i => if im.tl.getLsbD (i / 1280) then k.tileGranule i else 0)
  let hs := k.heldGranules
  let held := if hs = [] then []
    else toBytes 64 hs.length ++ toBytes 1024 (digits 1 (fun i => if hs.any (·.1 == i) then 1 else 0) 0 8192) ++
      hs.flatMap fun h => toBytes 32 h.2.toNat
  toBytes 128 (digits 1 (fun i => if rb[i]?.getD false then 1 else 0) 0 559) ++ rd ++ toBytes 64 im.ext.toNat ++ bitmap sb ++ sd.flatMap (fun c => toBytes 64 c.2) ++
    toBytes 1920 (digits 1 (fun i => if tb[i]?.getD false then 1 else 0) 0 15360) ++ td ++ held

/-- The chunks of the granules that an image holds back (R45). -/
def Core.heldChunks (k : Core) : List Nat := k.heldGranules.flatMap fun h => (List.range 4).map (4 * h.1 + ·)

/-- The header of an image (R373). -/
def Image.header (im : Image) (total : Nat) : Nat :=
  1 + 2 ^ 8 * im.stop + 2 ^ 11 * im.lmi + (if im.full then 2 ^ 17 else 0) + (if im.core.heldGranules = [] then 0 else 2 ^ 18) +
    2 ^ 64 * total + 2 ^ 128 * im.core.pc.toNat + 2 ^ 192 * im.tl.toNat

/-- The offsets of the lines of a save slot that hold the poisoned chunks of an image (R416). -/
def Image.badLines (im : Image) : List Nat :=
  let (_, rd) := elide ((List.range 559).map im.core.regGranule)
  let (sb, sd) := im.padSection
  let at_ := 64 + 4096 + 128 + rd.length + 64 + (bitmap sb).length
  (sd.mapIdx fun i c => (i, c.1)).filterMap fun e => if (im.core.spBad.find? e.2).isSome then some (at_ + 64 * e.1) else none

/-- The spill engine writes an image to its save slot (R371, R373), poison with it (R416). The layouts of the control block from 0x080 to 0xAFF are
not given: their bytes are open, and the model keeps what they stand for in `Image.core`. -/
def State.spill (s : State) (im : Image) : State :=
  let a := s.saveSlot im.mcid im.rank
  let t := s.saveTag im.mcid
  let sec := im.sections
  let s := s.wrBytes t a (toBytes 64 (im.header (64 + 4096 + sec.length)))
  let s := s.wrBytes t (a + 64) (im.core.csrBlock.flatMap (toBytes 8))
  let s := s.wrBytes t (a + 64 + 0x80) (toBytes 0xA80 (Config.free 21504 s.tick .word im.mcid im.rank).toNat)
  let s := s.wrBytes t (a + 64 + 0xB00) (List.replicate 0x500 0)
  let s := s.wrBytes t (a + 64 + 4096) sec
  im.badLines.foldl (fun s o => s.poisonLine ((a + o) / 64)) s

/-- Read the granules of a section: for each set bit of `ps` 64 bytes from `a` on; answers the granules and the address after
them. -/
def State.readElided (s : State) (t : LineTag) : List Bool → Nat → List Nat × Nat
  | [], a => ([], a)
  | false :: ps, a =>
    let r := s.readElided t ps a
    (0 :: r.1, r.2)
  | true :: ps, a =>
    let r := s.readElided t ps (a + 64)
    (s.rdLE t a 64 :: r.1, r.2)

/-- The bits of a number. -/
def bitList (n len : Nat) : List Bool := (List.range len).map (bit n)

/-- The map of the entries of a list that are not zero, keyed from `k` on. -/
def listMap {w : Nat} (k : Nat) (vs : List (BitVec w)) : FMap (BitVec w) :=
  (vs.mapIdx fun i v => (k + i, v)).filter fun e => e.2 != 0

/-- Elements of `w` bits of a list of granules of 512 bits. -/
def elements (w : Nat) (gs : List Nat) : List (BitVec w) :=
  let whole := gs.foldr (fun g a => g + 2 ^ 512 * a) 0
  (List.range (512 * gs.length / w)).map fun i => BitVec.ofNat w (whole / 2 ^ (w * i))

/-- A core with the CSR block of an image (R373, R375): a supervisor may have edited it, and what it wrote to reserved bits is ignored
(R8). -/
def Core.withCsrBlock (k : Core) (d : Nat → Nat) : Core :=
  { k with lc := BitVec.ofNat 32 (d 0), sgate := BitVec.ofNat 11 (d 1), rwin := BitVec.ofNat 19 (d 2),
           kvwait := BitVec.ofNat 32 (d 3), pbound := BitVec.ofNat 32 (d 4), domset := BitVec.ofNat 5 (d 5) ||| 1,
           rng := BitVec.ofNat 128 (d 6 + 2 ^ 64 * d 7), slip := BitVec.ofNat 32 (d 8), pl := BitVec.ofNat 2 (d 9),
           epc1 := keep (BitVec.ofNat 64 (d 10)) (2 ^ 52 - 4), estat1 := keep (BitVec.ofNat 64 (d 11)) 7,
           ecause1 := keep (BitVec.ofNat 64 (d 12)) 0xFFFF00FF, epc2 := keep (BitVec.ofNat 64 (d 13)) (2 ^ 52 - 4),
           estat2 := keep (BitVec.ofNat 64 (d 14)) 7, ecause2 := keep (BitVec.ofNat 64 (d 15)) 0xFFFF00FF }

/-- The scratchpad of a list of chunks (R374: what was not saved is zero). -/
def chunksMem (cs : List Nat) (gs : List Nat) : Memory :=
  (cs.zip gs).foldl (fun m (c, g) => if g = 0 then m else m.writeLE (64 * c) g 64) []

/-- The core of a spilled image as a restore reads it back: the resume PC, the CSR block, the register data, the scratchpad data
and the tile data from the save slot, the rest as it was saved (R374, R375); so the data of granules held back that lie outside the extents,
for which R373 gives no place. (DEDUCED, log entry 28) A poisoned line of the scratchpad data poisons its chunk; the task consumes any other
that has poisoned its image at its first bundle (R416). (DEDUCED, log entry 83) -/
def State.readImage (s : State) (im : Image) : Core :=
  let a := s.saveSlot im.mcid im.rank
  let t := s.saveTag im.mcid
  let k := im.core.withCsrBlock fun i => s.rdLE t (a + 64 + 8 * i) 8
  let k := { k with pc := BitVec.ofNat 52 (bits (s.rdLE t a 64) 179 128) }
  let (rg, a1) := s.readElided t (bitList (s.rdLE t (a + 4160) 128) 559) (a + 4288)
  let cs := extChunks (BitVec.ofNat 256 (s.rdLE t a1 64))
  let sbl := (cs.length + 511) / 512 * 64
  let (sg, a2) := s.readElided t (bitList (s.rdLE t (a1 + 64) sbl) cs.length) (a1 + 64 + sbl)
  let held := im.core.heldChunks.filter fun c => !cs.contains c
  let (tg, a3) := s.readElided t (bitList (s.rdLE t a2 1920) 15360) (a2 + 1920)
  let pad := placesOf (bitList (s.rdLE t (a1 + 64) sbl) cs.length) (a1 + 64 + sbl)
  let padBad := (cs.zip pad).filterMap fun e => (e.2.bind fun pa => s.poisoned pa 64).map fun pa => (e.1, pa)
  let other := (s.poisoned a (a1 + 64 + sbl - a)) <|> (s.poisoned a2 (a3 - a2))
  { k with
    spBad := padBad.foldl (fun m e => m.insert e.1 e.2) (k.spBad.filter fun e => held.contains e.1),
    due := other.map uncorrectable <|> k.due,
    x := listMap 0 (elements 64 (rg.take 8)), p := listMap 0 (elements 128 ((rg.drop 8).take 6)),
    f := listMap 0 (elements 64 ((rg.drop 14).take 1)), v := listMap 0 (elements 4096 ((rg.drop 15).take 512)),
    y := k.y.zipWith (fun e v => { e with val := v }) (elements 4096 (rg.drop 527)),
    sp := ⟨chunksMem (cs ++ held) (sg ++ held.map fun c => (k.sp.chunk c).toNat), 0, 0, []⟩, tiles := ⟨listMap 0 (elements 40 tg), 0, 0, 0⟩ }

/-! ### What a SAFE stop keeps (R374) -/

/-- The core with only what a live-mask entry names (R248, R374). (DEDUCED, log entry 28) -/
def Core.liveOnly (k : Core) (e : Nat) : Core :=
  let cs := extChunks (BitVec.ofNat 256 (bits e 511 256))
  let cs := cs ++ k.heldChunks.filter fun c => !cs.contains c
  { k with
    x := k.x.filter fun r => bit e r.1,
    v := k.v.filter fun r => (List.range 64).any fun i => k.physV i == r.1 && bit e (64 + i),
    p := k.p.filter fun r => bit e (128 + r.1),
    y := k.y.mapIdx fun i y => if bit e (152 + i) then y else .zero,
    tiles := (List.range 12).foldl (fun ts t => if bit e (156 + t) then ts else ts.setTile t fun _ _ => 0) k.tiles,
    sp := ⟨chunksMem cs (cs.map fun c => (k.sp.chunk c).toNat), 0, 0, []⟩ }

/-- Does a live-mask entry keep to its layout: no reserved bit, no extent beyond the scratchpad (R374)? -/
def liveOk (e : Nat) : Bool :=
  bits e 255 168 == 0 && (List.range 4).all fun i =>
    bits e (256 + 64 * i + 63) (256 + 64 * i + 31) == 0 &&
      decide (bits e (256 + 64 * i + 14) (256 + 64 * i) + bits e (256 + 64 * i + 30) (256 + 64 * i + 15) ≤ 32768)

/-- Everything but what is never saved: freed registers and mapped granules not held back (R374). -/
def Core.saved (k : Core) : Core :=
  let cs := (List.range 32768).filter k.dropped
  { k with v := k.v.filter fun r => !k.freed.getLsbD r.1, sp := cs.foldl (fun p c => p.setChunk c 0) k.sp }

end Sys2Proof.Machine
end

