-- ==== Sys2Proof/Machine/Splice.lean ====
section
/-! DEFINITION. The Splice queue (R164 to R176): combining operators, push, pop and release. -/

namespace Sys2Proof.Machine

/-- The highest COUNT at which a fold is still allowed (R167). -/
def spliceCap (op : Nat) : Nat := if op = 0x08 then 27 else if op = 0x09 then 6 else 65534

/-- A lane operator on the eight 32-bit lanes of bytes 0 to 31 (R167). -/
def foldLanes (f : BitVec 32 → BitVec 32 → BitVec 32) (r : BitVec 1792) (p : BitVec 256) : BitVec 1792 :=
  let v := digits 32 (fun i => (f (r.extractLsb' (32 * i) 32) (p.extractLsb' (32 * i) 32)).toNat) 0 8
  BitVec.ofNat 1792 (setBits r.toNat 255 0 v)

/-- The payload after a fold into a record of `count` packets (R167). -/
def foldPayload (op count : Nat) (r : BitVec 1792) (p : BitVec 256) : BitVec 1792 :=
  match op with
  | 0x01 => foldLanes (· + ·) r p
  | 0x02 => foldLanes (fun a b => BitVec.ofInt 32 (max (-2147483648) (min 2147483647 (a.toInt + b.toInt)))) r p
  | 0x03 => foldLanes faddRne r p
  | 0x04 => foldLanes (fun a b => if a.slt b then b else a) r p
  | 0x05 => foldLanes (fun a b => if b.slt a then b else a) r p
  | 0x06 => foldLanes fmaxBits r p
  | 0x07 => foldLanes (· ||| ·) r p
  | 0x08 => BitVec.ofNat 1792 (setBits r.toNat (64 * count + 63) (64 * count) p.toNat)
  | 0x09 => BitVec.ofNat 1792 (setBits r.toNat (256 * count + 255) (256 * count) p.toNat)
  | 0x0B => BitVec.ofNat 1792 (setBits r.toNat 255 0 p.toNat)
  | _ => r

/-- The payload of an inserted record (R167). -/
def initPayload (op : Nat) (p : BitVec 256) : BitVec 1792 := if op = 0x0C then 0 else p.setWidth 1792

/-- Records of a partition in a shard, those popped included (R172). -/
def State.heldRecs (s : State) (part shard : Nat) : Nat :=
  (s.recs.filter fun r => decide (r.part = part) && decide (r.mcid % 8 = shard)).length

/-- Free records of a shard (R166). -/
def State.freeRecs (s : State) (shard : Nat) : Nat := 32768 - (s.recs.filter fun r => decide (r.mcid % 8 = shard)).length

/-- The waiting record of a key: neither sealed nor taken (R170). -/
def State.waiting (s : State) (mcid : Nat) (key : BitVec 128) : Option Nat :=
  s.recs.findIdx? fun r => decide (r.mcid = mcid) && decide (r.key = key) && !r.sealed_ && !r.taken

/-- Seal a record: it leaves the key index (R169). -/
def State.sealRec (s : State) (i : Nat) : State :=
  match s.recs[i]? with
  | none => s
  | some r => { s with recs := setAt s.recs i { r with sealed_ := true } }

/-- The insert of R169, sealing the record that has overflowed (R170). -/
def State.insertRec (s : State) (part mcid : Nat) (key : BitVec 128) (op : Nat) (pay : BitVec 256) (sl : Bool) (old : Option Nat)
    (view : List Nat) : Nat × State :=
  if s.heldRecs part (mcid % 8) ≥ s.csrF (0x0D0 + part) 15 0 then (0x03, s)
  else if s.freeRecs (mcid % 8) = 0 then (0x02, s)
  else
    let s := match old with
      | some i => s.sealRec i
      | none => s
    let r : Rec := ⟨key, BitVec.ofNat 8 op, sl, false, 1, mcid, part, s.time, initPayload op pay, view⟩
    (0x01, { s with recs := s.recs ++ [r], pending := s.pending.insert mcid true, defer := s.defer.erase mcid })

/-- The push of R169, for the MC and reach that its source has settled (R171). Answers the status. Every push for a partition under
SCRUB is refused with NOMC (R384). -/
def State.pushRec (s : State) (mcid : Nat) (reach : Bool) (pk : BitVec 512) (view : List Nat := []) : Nat × State :=
  let n := pk.toNat
  let op := bits n 135 128
  let key := pk.extractLsb' 0 128
  let pay := pk.extractLsb' 256 256
  let sl := bit n 136
  if bits n 143 137 ≠ 0 ∨ bits n 159 158 ≠ 0 ∨ bits n 255 162 ≠ 0 then (0x07, s)
  else if op = 0 ∨ op > 0x0C then (0x05, s)
  else if s.mcState mcid = 0 ∨ !reach ∨ s.csrF (0xCA0 + s.mcPart mcid) 2 0 = 3 then (0x06, s)
  else
    let part := s.mcPart mcid
    let w := s.waiting mcid key
    let fold := w.bind fun i => (s.recs[i]?).map fun r => (i, r)
    match fold with
    | some (i, r) =>
      if r.op.toNat ≠ op then (0x04, s)
      else if r.count ≤ spliceCap op then
        let r := { r with payload := foldPayload op r.count r.payload pay, count := r.count + 1, view := addIds r.view view }
        let s := { s with recs := setAt s.recs i { r with sealed_ := sl }, defer := s.defer.erase mcid }
        (0x00, s)
      else s.insertRec part mcid key op pay sl (some i) view
    | none => s.insertRec part mcid key op pay sl none view

/-- The push of R169. An accepted push is a release at `.PKG` of the writes `view` (R137), and counts for its MC (R392).
(DESIGN CHOICE, log entry 99) -/
def State.push (s : State) (mcid : Nat) (reach : Bool) (pk : BitVec 512) (view : List Nat := []) : Nat × State :=
  let (st, s') := s.pushRec mcid reach pk view
  (st, if st ≤ 1 then s'.count mcid 0 6 1 else s')

/-- Is a record eligible (R173)? -/
def Rec.eligible (r : Rec) (time minb maxage : Nat) : Bool :=
  decide (max minb 1 ≤ r.count) || (maxage != 0xFFFFFFFF && decide (maxage ≤ time - r.first)) || r.sealed_

/-- What a pop comes to (R174). -/
inductive PopOut where
  | empty
  | notReady
  | popped (r : BitVec 2048)
  deriving DecidableEq, Repr

/-- A record as its 256 bytes (R166). -/
def Rec.bytes (r : Rec) : BitVec 2048 :=
  BitVec.ofNat 2048 (r.key.toNat + 2 ^ 128 * r.op.toNat + (if r.sealed_ then 2 ^ 136 else 0) + (if r.taken then 2 ^ 137 else 0) +
    2 ^ 144 * r.count + 2 ^ 160 * r.mcid + 2 ^ 176 * r.part + 2 ^ 192 * (r.first % 2 ^ 64) + 2 ^ 256 * r.payload.toNat)

/-- The pop of R174. -/
def State.pop (s : State) (mcid minb maxage : Nat) : PopOut × State :=
  if s.hold.contains (s.mcPart mcid) then (.notReady, s)
  else
    let mine (r : Rec) := decide (r.mcid = mcid) && !r.taken
    if !s.recs.any mine then (.empty, { s with pending := s.pending.erase mcid })
    else match s.recs.findIdx? fun r => mine r && r.eligible s.time minb maxage with
      | none => (.notReady, s)
      | some i =>
        match s.recs[i]? with
        | none => (.notReady, s)
        | some r =>
          let r := { r with taken := true }
          let s := { s with recs := setAt s.recs i r }
          (.popped r.bytes, if s.recs.any mine then s else { s with pending := s.pending.erase mcid })

/-- The release of the popped record of an MC (R175). -/
def State.releaseRec (s : State) (mcid : Nat) : State := { s with recs := s.recs.filter fun r => !(decide (r.mcid = mcid) && r.taken) }

/-- The records of an MC that goes FREE are discarded with its pending bit (R187). -/
def State.discardRecs (s : State) (mcid : Nat) : State :=
  { s with recs := s.recs.filter fun r => !(decide (r.mcid = mcid) && !r.taken), pending := s.pending.erase mcid }

end Sys2Proof.Machine
end

