-- ==== Sys2Proof/Machine/Barriers.lean ====
section
/-! DEFINITION. Jobs and their ranks (R150, R151), the domains of their tasks and the barriers of each domain (R154 to R157). -/

namespace Sys2Proof.Machine

/-- The job of an MC. -/
def State.job (s : State) (m : Nat) : Option Job := s.jobs.find? fun j => j.mcid = m
/-- The job of an MC changed. -/
def State.onJob (s : State) (m : Nat) (f : Job → Job) : State := { s with jobs := s.jobs.map fun j => if j.mcid = m then f j else j }
/-- Cores of a tile group (R150). -/
def Job.size (j : Job) : Nat := 2 ^ j.tgsize
/-- Tasks of a job (R151). -/
def Job.tasks (j : Job) : Nat := j.size * (j.ntg + 1)
/-- Has a task retired or been terminated? -/
def Job.gone (j : Job) (r : Nat) : Bool := j.retired.getLsbD r || j.dead.getLsbD r
/-- The ranks of a group. -/
def Job.ranks (j : Job) (g : Nat) : List Nat := (List.range j.size).map (j.size * g + ·)

/-- Where a barrier of a task lives (R154): its MC, or at level 4 none, and the number of the domain. -/
def State.domainOf (s : State) (m lvl rank : Nat) : Nat × Nat :=
  match s.job m with
  | none => (m, 0)
  | some j =>
    match lvl with
    | 0 => (m, rank)
    | 1 => (m, rank / j.size)
    | 2 => (m, (s.gplace m (rank / j.size)).1)
    | 3 => (m, 0)
    | _ => (2 ^ 14, s.mcbF m 911 896)

/-- Has a task left the domain of a level (R154)? -/
def State.hasLeft (s : State) (m lvl rank : Nat) : Bool := s.left.contains ⟨m, lvl, rank⟩

/-- Is the executing task a member at a level (R154)? -/
def State.member (s : State) (lvl : Nat) : Bool :=
  let k := s.core
  k.domset.getLsbD lvl && !s.hasLeft k.mcid lvl k.rank && (s.job k.mcid).isSome

/-- The jobs that share an XID (R154). -/
def State.xidJobs (s : State) (xid : Nat) : List Job :=
  s.jobs.filter fun j => s.mcbF j.mcid 928 928 == 1 && s.mcbF j.mcid 911 896 == xid

/-- The members of a barrier that have not left its domain, each as 64·mcid + rank (R154). -/
def State.members (s : State) (b : Barrier) : List Nat :=
  let of (j : Job) (rs : List Nat) := (rs.filter fun r => !s.hasLeft j.mcid b.lvl r).map (64 * j.mcid + ·)
  if b.lvl = 4 then (s.xidJobs b.dom).flatMap fun j => of j (List.range j.tasks)
  else match s.job b.mcid with
    | none => []
    | some j => of j ((List.range j.tasks).filter fun r => (s.domainOf b.mcid b.lvl r).2 == b.dom)

/-- The member jobs of this package that have ended in a level-4 domain (R154). -/
def State.xidGone (s : State) (xid : Nat) : List Nat := (s.ended.filter fun e => e.xid == xid).map (·.mcid)

/-- How many jobs share an XID, and the package that holds their barrier (R154), where a member job is here or has ended here. -/
def State.xidOf (s : State) (xid : Nat) : Option (Nat × Nat) :=
  match s.xidJobs xid, s.ended.find? (·.xid = xid) with
  | j :: _, _ => some (s.mcbF j.mcid 927 920 + 1, s.mcbF j.mcid 919 912)
  | [], some e => some (e.n, e.home)
  | [], none => none

/-- The member jobs of other packages that have left a level-4 domain. -/
def State.outerLeft (s : State) (xid : Nat) : List Nat := (s.outer.filter (·.1 == xid)).map (·.2)

/-- The member jobs of a level-4 domain that have arrived in a phase or left the domain, or are here (R154): those here are counted by their
tasks. -/
def State.xidCount (s : State) (b : Barrier) : Nat :=
  (s.xidJobs b.dom).length + (s.xidGone b.dom).length + (addIds (s.outerLeft b.dom) b.out).length

/-- Has every member of a barrier arrived (R155)? A level-4 barrier also needs every member job. -/
def State.allArrived (s : State) (b : Barrier) : Bool :=
  (s.members b).all b.arr.contains &&
    (b.lvl != 4 || match s.xidOf b.dom with
      | none => false
      | some (n, _) => decide (n ≤ s.xidCount b))

/-- A phase is complete once every member has arrived and P = 0; when every member has also seen it, the next phase becomes the
current one (R155), at level 4 also where no member is here any more. -/
def State.settleBar (s : State) (b : Barrier) : Barrier :=
  let b := if !b.done && s.allArrived b && b.p == 0 then { b with done := true } else b
  let ms := s.members b
  if b.done && (ms != [] || b.lvl == 4) && ms.all b.seen.contains then
    { b with phase := b.phase + 1, p := b.pn, pn := 0, arr := b.arrn, arrn := [], done := false, seen := [], view := b.viewn, viewn := [],
             out := b.outn, outn := [] }
  else b

/-- What this package tells the others of the level-4 barriers that it holds: the phases that are complete now (R154, R155).
(DESIGN CHOICE, log entry 31) -/
def State.barNews (s : State) : List OutMsg :=
  (s.bars.filter fun b => b.lvl == 4 && !b.done && b.p == 0 && s.allArrived b && (s.xidOf b.dom).any fun x => s.fabV && x.2 == s.fabId).map
    fun b => .barDone b.dom b.phase

/-- Every barrier is settled: twice, since a next phase may be complete at once. (DEDUCED, log entry 84) -/
def State.settleBars (s : State) : State :=
  let s := { s with bars := s.bars.map s.settleBar, out := s.barNews ++ s.out }
  { s with bars := s.bars.map s.settleBar, out := s.barNews ++ s.out }

/-- What goes to the package that holds a level-4 barrier, where that is another one (R154). (DESIGN CHOICE, log entry 31) -/
def State.tellHome (s : State) (xid : Nat) (msg : Nat → OutMsg) : State :=
  match s.xidOf xid with
  | some (_, home) => if s.fabV ∧ home ≠ s.fabId then { s with out := msg home :: s.out } else s
  | none => s

/-- A barrier at reset of its domain: in phase 0 (R155). -/
def Barrier.new (mc lvl dom : Nat) : Barrier := ⟨mc, lvl, dom, 0, 0, 0, [], [], false, [], [], [], [], [], []⟩

/-- The barrier of a domain of a level, or a new one (R155). -/
def State.barIn (s : State) (mc lvl dom : Nat) : Barrier :=
  (s.bars.find? fun b => b.mcid = mc ∧ b.lvl = lvl ∧ b.dom = dom).getD (.new mc lvl dom)

/-- The barrier of a task at a level (R155). -/
def State.barOf (s : State) (m lvl rank : Nat) : Barrier := s.barIn (s.domainOf m lvl rank).1 lvl (s.domainOf m lvl rank).2

/-- A barrier replaced. -/
def State.setBar (s : State) (b : Barrier) : State :=
  { s with bars := b :: s.bars.filter fun q => !(q.mcid == b.mcid && q.lvl == b.lvl && q.dom == b.dom) }

/-- The phase a task is in: how many it has completed (R155). -/
def Barrier.phaseOf (b : Barrier) (id : Nat) : Nat := b.phase + (if b.seen.contains id then 1 else 0)

/-- Has a task arrived in its phase? -/
def Barrier.hasArrived (b : Barrier) (id : Nat) : Bool := if b.seen.contains id then b.arrn.contains id else b.arr.contains id

/-- BAR.ARR with an expected count: adds to P of the task's phase, and arrives where it has not yet (R155); it is a release of the writes
`view` (R136). -/
def State.arrive (s : State) (m lvl rank : Nat) (c : Dword) (view : List Nat) : State :=
  let id := 64 * m + rank
  let b := s.barOf m lvl rank
  let b :=
    if b.seen.contains id then
      { b with pn := b.pn + c, arrn := if b.arrn.contains id then b.arrn else b.arrn ++ [id], viewn := addIds b.viewn view }
    else { b with p := b.p + c, arr := if b.arr.contains id then b.arr else b.arr ++ [id], view := addIds b.view view }
  let s := if lvl = 4 then s.tellHome b.dom (.barArrive · b.dom m rank c) else s
  (s.setBar b).settleBars

/-- `n` payload bytes counted against a phase of a barrier (R155, R156); their writes happen before its completion (R136). -/
def State.countBytes (s : State) (mc lvl dom phase n : Nat) (view : List Nat) : State :=
  let b := s.barIn mc lvl dom
  let b :=
    if phase = b.phase ∧ !b.done then { b with p := b.p - BitVec.ofNat 64 n, view := addIds b.view view }
    else if phase ≤ b.phase then { b with under := (b.under ++ s.members b).eraseDups }
    else { b with pn := b.pn - BitVec.ofNat 64 n, viewn := addIds b.viewn view }
  (s.setBar b).settleBars

/-- Payload bytes of a task of this package have landed: counted here, and told to the package that holds a level-4 barrier (R155). -/
def State.landedBytes (s : State) (mc lvl dom phase n : Nat) (view : List Nat) : State :=
  let s := if lvl = 4 ∧ n ≠ 0 then s.tellHome dom (.barLanded · dom phase n) else s
  s.countBytes mc lvl dom phase n view

/-- A package is known to have a member job of an XID. -/
def State.hostKnown (s : State) (xid fab : Nat) : State :=
  if s.xidHosts.contains (xid, fab) then s else { s with xidHosts := s.xidHosts ++ [(xid, fab)] }

/-- A member job of another package has arrived at a level-4 barrier: in the current phase, or in the next one where it has arrived in the
current one before (R154, R155). -/
def State.outerArrive (s : State) (fab xid job : Nat) (c : Dword) (view : List Nat) : State :=
  let s := s.hostKnown xid fab
  let b := s.barIn (2 ^ 14) 4 xid
  let b :=
    if b.out.contains job then { b with pn := b.pn + c, outn := addIds b.outn [job], viewn := addIds b.viewn view }
    else { b with p := b.p + c, out := b.out ++ [job], view := addIds b.view view }
  (s.setBar b).settleBars

/-- A round of a level-4 domain is over once each of its member jobs has ended: the barrier of the XID starts anew with the next jobs. No rule
says when it does. (DESIGN CHOICE, log entry 97) -/
def State.endRound (s : State) (xid : Nat) : State :=
  match s.xidJobs xid, s.xidOf xid with
  | [], some (n, _) =>
    if (s.xidGone xid).length + (s.outerLeft xid).length < n then s
    else { s with bars := s.bars.filter (fun b => !(b.lvl == 4 && b.dom == xid)), ended := s.ended.filter (·.xid ≠ xid),
                  outer := s.outer.filter (·.1 != xid), xidHosts := s.xidHosts.filter (·.1 != xid) }
  | _, _ => s

/-- A member job of another package has left the domain of an XID (R154). -/
def State.outerLeave (s : State) (fab xid job : Nat) : State :=
  { s.hostKnown xid fab with outer := if s.outer.contains (xid, job) then s.outer else s.outer ++ [(xid, job)] }.settleBars

/-- Does a task's BAR.WAIT or BAR.TRY raise BARUNDER (R156)? -/
def State.barUnder (s : State) (m lvl rank : Nat) : Bool :=
  let b := s.barOf m lvl rank
  let id := 64 * m + rank
  b.under.contains id || (!b.seen.contains id && !b.done && s.allArrived b && b.p.slt 0)

/-- Is the task's phase complete, so that its BAR.WAIT completes (R155)? -/
def State.barDone (s : State) (m lvl rank : Nat) : Bool :=
  let b := s.barOf m lvl rank
  b.done && !b.seen.contains (64 * m + rank)

/-- A task completes its phase (R155). -/
def State.passBar (s : State) (m lvl rank : Nat) : State :=
  let b := s.barOf m lvl rank
  (s.setBar { b with seen := b.seen ++ [64 * m + rank] }).settleBars

/-- BARUNDER has been raised at a task. -/
def State.clearUnder (s : State) (m lvl rank : Nat) : State :=
  let b := s.barOf m lvl rank
  s.setBar { b with under := b.under.filter (· ≠ 64 * m + rank) }

/-- A task leaves the domains of some levels for the rest of its job (R154). -/
def State.leaveLevels (s : State) (m rank : Nat) (ls : List Nat) : State :=
  let new := (ls.map fun l => (⟨m, l, rank⟩ : Left)).filter fun e => !s.left.contains e
  { (if new.any (·.lvl == 4) then s.tellLeave m rank else s) with left := s.left ++ new }.settleBars

/-- A task leaves the domains of levels 1 to 4 for good (R154). -/
def State.leaveAll (s : State) (m rank : Nat) : State := s.leaveLevels m rank [1, 2, 3, 4]

end Sys2Proof.Machine
end

