-- ==== Sys2Proof/Machine/Tasks.lean ====
section
/-! DEFINITION. How a task starts, stops, is parked, restored, retired and terminated (R153, R158, R159, R358 to R375): the
shared operations of every exception, and of the trap entry and return of R269 and R270. -/

namespace Sys2Proof.Machine

/-! ### Names of a task -/

/-- Carry out an operation of the executing core at another core. -/
def State.at_ (s : State) (n : Nat) (f : State → State) : State :=
  let c := s.cur
  { f { s with cur := n } with cur := c }

/-- The number of a core in a record: DIE in the low two bits, CORE above (R366). -/
def recCore (n : Nat) : Nat := n / 64 + 4 * (n % 64)

/-- TASKID (R151). -/
def mkTaskid (rank grp core tgsize ntg mcid : Nat) : Dword :=
  BitVec.ofNat 64 (rank + 2 ^ 4 * grp + 2 ^ 6 * recCore core + 2 ^ 14 * tgsize + 2 ^ 17 * ntg + 2 ^ 32 * mcid)

/-- The cores bound to a group of an MC that is on core (R147). -/
def State.groupCores (s : State) (m g : Nat) : List Nat :=
  match s.job m with
  | none => []
  | some j =>
    let (die, core, gst) := s.gplace m g
    if gst = 1 then (List.range j.size).map (64 * die + core + ·) else []

/-- The core that a task is on, if it is. -/
def State.coreOf (s : State) (m rank : Nat) : Option Nat :=
  (List.find? (fun e => e.2.run != .free && e.2.mcid == m && e.2.rank == rank) s.cores).map (·.1)

/-- The saved task of a rank (R373). -/
def State.imageOf (s : State) (m rank : Nat) : Option Image := s.images.find? fun i => i.mcid = m ∧ i.rank = rank

/-! ### Write-backs of mapped granules (R43, R44) -/

/-- The stores of a write-back: the marked bytes of a granule as they stand. -/
def Core.marked (k : Core) (off : Nat) (e : Granule) : List (Nat × Byte) :=
  ((List.range 256).filter e.mask.getLsbD).map fun i => (i, k.sp.byte (off + i))

/-- The lines of a granule, 0 to 3, whose chunk of the scratchpad is poisoned. -/
def Core.badLines (k : Core) (off : Nat) : List Nat := (List.range 4).filter fun i => (k.spBad.find? (off / 64 + i)).isSome

/-- Write back a granule whose place is known: only its marked bytes (R44). They are stores of the task, after its older ones (R118). What comes
from the chunks of the lines `bad` poisons the lines that it is written to (R416). -/
def State.wbTo (s : State) (l : Loc) (asid : Nat) (bs : List (Nat × Byte)) (bad : List Nat) : State :=
  if bs = [] then s
  else
    let s := if (s.core.ntq ++ s.core.held).any (s.heldOf l asid false none bs).meets then s.endRegion.drainNt else s
    let (dirty, clean) := bs.partition fun b => bad.contains (b.1 / 64)
    let put (s : State) (bs : List (Nat × Byte)) : State := if bs = [] then s else s.performHeld (s.heldOf l asid false none bs)
    match l with
    | .dev pa _ => (bad.filter fun i => dirty.any (·.1 / 64 == i)).foldl (fun s i => s.poisonLine (pa / 64 + i)) (put (put s clean) dirty)
    | .host fn pasid addr xaddr =>
      (put s clean).sendHeld ⟨fn, pasid, addr / 4096, xaddr / 4096⟩ ((put s clean).heldOf l asid false none dirty) true

/-- Does a write-back of the task meet a watchpoint of its own job (R378)? -/
def State.wbWatched (s : State) (l : Loc) (bs : List (Nat × Byte)) : Bool :=
  match l with
  | .dev pa _ => bs.any fun b => (s.watchHits (pa + b.1) 1).any fun w => s.watchMc w == s.core.mcid
  | .host _ _ _ _ => false

/-- A granule of a map becomes CLEAN, or leaves the map. -/
def State.setGran (s : State) (mi g : Nat) (st : GranState) : State :=
  s.onCore fun k =>
    match k.maps[mi]? with
    | none => k
    | some m => { k with maps := setAt k.maps mi { m with gran := if st = .invalid then m.gran.erase g else m.gran.insert g ⟨st, 0⟩ } }

/-- What a write-back comes to: done, a fault (R45), or a wait for its translation. -/
inductive WbOut where
  | done
  | fault (fi : FaultInfo)
  | wait
  deriving DecidableEq, Repr

/-- Try to write back a DIRTY granule of the executing core (R43 to R45): an absent host page is asked for, and is a fault. -/
def State.writeBack (s : State) (mi g : Nat) (after : GranState) : WbOut × State :=
  match s.core.maps[mi]? with
  | none => (.done, s)
  | some m =>
    let va := (m.gva + 256 * g) % 2 ^ 52
    let bs := s.core.marked (m.off + 256 * g) (m.granule g)
    let (x, s1) := s.xlate s.asker s.die m.asid va .write
    match x with
    | .hit l =>
      if s.wbWatched l bs then (.fault ⟨0x30, 0, 0, vaInfo va true false⟩, s)
      else (.done, (s1.wbTo l m.asid bs (s.core.badLines (m.off + 256 * g))).setGran mi g after)
    | .out c lv => (.fault (walkFault c lv va .write), (s.outPosts s.asker s.die m.asid va c).foldl State.askUnits s)
    | .bad l => (.fault (uncorrectable l), s)
    | .ats fn pasid p => (.wait, s.askUnits (.ats ⟨s.die, fn, pasid, p, s.asker⟩))
    | .pri fn pasid p =>
      if s.priRoom s.die fn pasid p then (.fault (walkFault 0x9 0 va .write), s.askUnits (.pri ⟨s.die, fn, pasid, p, s.asker, .waiting⟩)) else (.wait, s)
    | .steep f => (.wait, s.askUnits (.ahead f))
    | .motion => (.wait, s)

/-- Every DIRTY granule of the executing core, in ascending offset order: its map and its number. -/
def Core.dirty (k : Core) : List (Nat × Nat) :=
  (k.maps.mapIdx fun i m => (m.gran.filter fun g => g.2.st == .dirty).map fun g => (i, g.1)).flatten

/-- Write back some DIRTY granules of the executing core: the first fault met (R45), and those that wait. -/
def State.writeBackAll (s : State) (after : GranState) (gs : List (Nat × Nat)) : Option FaultInfo × List (Nat × Nat) × State :=
  gs.foldl (init := (none, [], s)) fun (f, ws, s) g =>
    match s.writeBack g.1 g.2 after with
    | (.done, s) => (f, ws, s)
    | (.fault fi, s) => (f <|> some fi, ws, s)
    | (.wait, s) => (f, ws ++ [g], s)

/-! ### Drain-to-bound and what leaves with a task (R360) -/

/-- The chunks that an MST has written by a fetch cycle, over what older bundles have written there (R314, R118). -/
def Core.landChunks (k : Core) (upTo : Nat) : Core :=
  match k.mfetch with
  | none => k
  | some f =>
    let (now, rest) := f.writes.partition fun w => decide (w.cycle < upTo)
    let put (k : Core) (c : Nat) (v : BitVec 512) : Core :=
      { k with sp := k.sp.setChunk c v, spBad := k.spBad.erase c,
               pend := maskOlder ⟨.sp, c, 0, BitVec.ofNat 4096 (2 ^ 512 - 1), 0, 0⟩ k.pend }.markChunk c (BitVec.allOnes 64)
    let k := now.foldl (fun k w => put k (w.off / 64) w.data) k
    { k with mfetch := some { f with writes := rest } }

/-- Drain-to-bound: every write in flight lands, and every fetch and tile operation completes (R360). -/
def Core.drainAll (k : Core) : Core :=
  let k := match k.mfetch with
    | none => k
    | some f => { k.landChunks (f.start + f.len) with fetchCycle := max k.fetchCycle (f.start + f.len), mfetch := none }
  let k := k.drain
  { k with windows := [], tileBusy := 0, y := k.y.map fun e => { e with due := 0 } }

/-- The agent number that stands for nobody: what the host still owes a task that has left its bundle is waited for (R51), and then
discarded. -/
def nobody : Nat := 2 ^ 68

/-- Some requests for rows are no longer wanted; a pin that the owner takes for one is released when it answers (R75). -/
def State.forgetRows (s : State) (p : PeerReq → Bool) : State :=
  { s with peerReqs := s.peerReqs.map fun q => if p q then { q with agent := nobody } else q }

/-- Pins of every KV stream of the executing core are released (R75), and what a peer or the host still answers is no longer wanted. -/
def State.releasePins (s : State) : State :=
  let s := { s with hostReqs := s.hostReqs.map fun (q : HostReq) => if q.core = s.cur then { q with core := nobody } else q }.forgetRows fun q =>
    q.agent == s.cur && decide (q.key < 16)
  s.core.streams.foldl (fun s e => e.2.pins.foldl State.unpin s) s

/-- Pushed elements that are pending are written (R345, R346). -/
def State.flushPushed (s : State) : State :=
  s.core.streams.foldl (fun s e => e.2.pushed.flatten.foldl State.performPushed s) s

/-- The streams of a saved task: cursors, counts and bindings; what was read ahead is discarded (R321, R345, R73). -/
def Core.restStreams (k : Core) : Core :=
  { k with streams := k.streams.map fun e => (e.1, { e.2 with ahead := [], pins := [], pushed := [] }) }

/-- A core that no task is bound to: no rule clears its registers before the next launch or image. -/
def Core.idle (k : Core) : Core := { k with run := .free, fused := false, l1 := [], ibuf := [], fetched := none, padRels := [], issue := .none, ckpt := none }

/-- A core becomes free. -/
def State.freeCore (s : State) (n : Nat) : State := s.setCoreAt n (s.coreAt n).idle

/-! ### Usage (R392) -/

/-- The core-cycles that a group has held its cores since it was swapped in (R392). -/
def State.coreCycles (s : State) (m g : Nat) : Nat := ((s.groupCores m g).map fun n => s.time - (s.coreAt n).swapIn).sum

/-- A group leaves its cores: its counts go to the block at USEBASE and to the totals of its partition (R392). Bytes per tier depend on the
caches, which no rule fixes. (DEDUCED, log entry 17) -/
def State.addUse (s : State) (m g : Nat) : State :=
  let base := s.mcbF m 687 640
  let part := s.mcPart m
  let s1 := (List.range 10).foldl (init := s) fun s i =>
    let key := 64 * m + 16 * g + i
    let n := if i = 0 then s.coreCycles m g else if i < 5 then (Config.free 64 s.tick .counter key 0).toNat else FMap.get 0 s.use key
    if n = 0 then s
    else
      let s := if base = 0 then s else s.wr (base + 8 * i) (s.rd (base + 8 * i) 8 + n) 8
      { s with totals := s.totals.insert (16 * part + i) (FMap.get 0 s.totals (16 * part + i) + n) }
  { s1 with use := s1.use.filter fun e => !(decide (64 * m + 16 * g ≤ e.1) && decide (e.1 < 64 * m + 16 * g + 16)) }

/-- The end of a job whose last group is off its cores already: what is left to count of it is the job itself (R392). -/
def State.endUse (s : State) (m g : Nat) : State :=
  let base := s.mcbF m 687 640
  let key := 64 * m + 16 * g + 9
  let n := FMap.get 0 s.use key
  let total := 16 * s.mcPart m + 9
  let s := if base = 0 then s else s.wr (base + 72) (s.rd (base + 72) 8 + n) 8
  { s with totals := s.totals.insert total (FMap.get 0 s.totals total + n), use := s.use.erase key }

/-! ### The end of a job (R149, R158) -/

/-- The groups of a job that are on core with a task that has not ended. -/
def State.onCoreGroups (s : State) (m : Nat) : List Nat :=
  match s.job m with
  | none => []
  | some j => (List.range (j.ntg + 1)).filter fun g => (s.gplace m g).2.2 == 1 && !(j.ranks g).all j.gone

/-- The MC of a halting job becomes HALTED when no group of it runs (R276). (DEDUCED, log entry 84) -/
def State.settleHalt (s : State) (m : Nat) : State :=
  match s.job m with
  | none => s
  | some j => if j.halting ∧ s.onCoreGroups m = [] then (s.onJob m fun j => { j with halting := false }).setMcbF m 3 0 5 else s

/-- The job of an MC has ended: it counts as a member that has left its level-4 domain, and where it was the last one the XID's barrier starts
anew (R154, R155). -/
def State.endXid (s : State) (m : Nat) : State :=
  let xid := s.mcbF m 911 896
  if s.mcbF m 928 928 = 1 then
    ({ s with ended := s.ended ++ [⟨xid, m, s.mcbF m 927 920 + 1, s.mcbF m 919 912⟩] } : State).settleBars.endRound xid
  else s

/-- The job of an MC ends when its last task has retired or been terminated: its cores become free, JOBCNT rises and the MC goes
to IDLE, or to FAULTED where a task was terminated (R149, R158). -/
def State.endJob (s : State) (m : Nat) : State :=
  match s.job m with
  | none => s
  | some j =>
    if !(List.range j.tasks).all j.gone then s.settleHalt m
    else
      let s := s.count m j.ntg 9 1
      let s := (List.range (j.ntg + 1)).foldl (init := s) fun s g =>
        let s := if (s.gplace m g).2.2 = 1 then s.addUse m g else if g = j.ntg then s.endUse m g else s
        let s := (s.groupCores m g).foldl State.freeCore s
        s.setGst m g 3
      let st := if j.dead = 0 ∧ !j.bad then 1 else 3
      let v := setBits (setBits (s.mcb m) 3 0 st) 1023 960 (s.mcbF m 1023 960 + 1)
      (({ s.setMcb m v with
          jobs := s.jobs.filter (·.mcid ≠ m), images := s.images.filter (·.mcid ≠ m),
          resume := s.resume.filter (·.mcid ≠ m), dispq := s.dispq.filter (·.mcid ≠ m), back := s.back.filter (·.mcid ≠ m),
          cmds := s.cmds.map fun c => if c.mcid = m then { c with orphan := true } else c } : State).forgetAsks (fun w => decide (taskAgent m 0 ≤ w) && decide (w < taskAgent m 64))).endXid m

/-- A task retires: its core stays bound to the job and issues nothing (R158). -/
def State.retire (s : State) (n : Nat) : State :=
  let k := s.coreAt n
  let s := s.setCoreAt n { k.drainAll with run := .held, wait := none, preq := none, issue := .none, streams := [], maps := [], held := [], ntq := [] }
  let s := (s.leaveAll k.mcid k.rank).onJob k.mcid fun j => { j with retired := j.retired ||| BitVec.ofNat 64 (2 ^ k.rank) }
  s.endJob k.mcid

/-- A task is terminated, on core or off: nothing of it is saved; what it has held back is discarded, and what it has performed
stands (R163, R363). -/
def State.killTask (s : State) (m rank : Nat) : State :=
  let s := match s.coreOf m rank with
    | none => s
    | some n =>
      let s := s.at_ n State.releasePins
      let k := s.coreAt n
      s.setCoreAt n { k.drainAll with run := .held, wait := none, preq := none, issue := .none, streams := [], maps := [], held := [], ntq := [] }
  { (s.leaveAll m rank).onJob m fun j => { j with dead := j.dead ||| BitVec.ofNat 64 (2 ^ rank) } with
      images := s.images.filter fun i => !(decide (i.mcid = m) && decide (i.rank = rank)),
      cmds := s.cmds.filter fun c => !(decide (c.mcid = m) && decide (c.rank = rank) && c.held) }

/-- Every task of a job that has not retired is terminated (R163, R275, R384). -/
def State.killJob (s : State) (m : Nat) : State :=
  match s.job m with
  | none => s
  | some j =>
    let rs := (List.range j.tasks).filter fun r => !j.gone r
    (rs.foldl (fun s r => s.killTask m r) s).endJob m

/-! ### Records of a task (R366) -/

/-- The fault record of a task on a core. -/
def State.taskRecord (s : State) (n smask issue : Nat) (img : Bool) (pc : Nat) (fi : FaultInfo) : BitVec 512 :=
  let k := s.coreAt n
  mkRecord ⟨smask, k.pl.toNat, false, img, k.part, k.mcid, k.rank, recCore n, pc, issue, 0⟩ fi s.time

/-- What a wait cause waits for (R367): the block, the host page, the segment. (DEDUCED, log entry 61) -/
def State.readyOf (s : State) (n : Nat) (fi : FaultInfo) : Option Ready :=
  let va := bits fi.info.toNat 51 0
  match fi.cause with
  | 0x12 => some (.kv (bits fi.info.toNat 67 60) (bits fi.info.toNat 99 68))
  | 0x15 =>
    let h := s.csrN (0x400 + (s.coreAt n).asid)
    some (.host (bits h 35 32) (bits h 19 0) (hostPage va))
  | 0x16 => match s.walk (s.coreAt n).asid va (if bit fi.info.toNat 52 then .write else if bit fi.info.toNat 53 then .fetch else .read) with
    | .steep f => some (.steep f)
    | _ => some .always
  | _ => none

/-! ### Stopping a task -/

/-- Fusion ends for every member of the executing core's group, and their L1s are dropped (R100). -/
def State.endFusion (s : State) : State :=
  if s.core.fused then s.l1Group.foldl (fun s n => s.setCoreAt n { s.coreAt n with fused := false, l1 := [] }) s else s

/-- Stop the task on the executing core at a bundle boundary: drain-to-bound, held stores out (or discarded, for a rollback that
has restored its checkpoint), granules written back, and the image taken (R360, R362, R369, R373). `rc` is the record of the
fault that stopped it, `live` the live-mask entry where the image holds only what one names (R374). -/
def State.stopTask (s : State) (stop lmi : Nat) (rc : Option (BitVec 512)) (brk : Bool) (ready : Option Ready)
    (live : Option Nat := none) : State :=
  let n := s.cur
  let s := s.onCore Core.drainAll
  let s := (if stop = 2 then s.onCore fun k => { k with held := [] } else s.letOut).drainNt
  let s := (s.flushPushed.releasePins.endFusion).onCore Core.restStreams
  let (fault, wbs, s) := s.writeBackAll .invalid s.core.dirty
  let k := s.core
  -- an AtomicOp that the host has carried out is not repeated (R141); what it has delivered for a read is asked for anew (R51)
  let given := if stop = 2 then [] else k.issue.given.filter fun g => !isReadKey g.1
  let k := { k with wait := none, met := [], preq := none, issue := { Issue.none with given := given }, l1 := [], ibuf := [], fetched := none,
                    due := k.due <|> fault, late := [], run := .held }
  let full := live.isNone
  let kept := match live with
    | none => k.saved
    | some e => k.saved.liveOnly e
  let kept := { kept with maps := kept.maps.map fun m => { m with gran := m.gran.filter fun g => g.2.st == .dirty } }
  let im : Image :=
    ⟨k.mcid, k.rank, kept, stop, lmi, full, live.elim 0x40000000 (fun e => BitVec.ofNat 256 (bits e 511 256)),
      live.elim 0xFFF (fun e => BitVec.ofNat 12 (bits e 167 156)), false, rc, brk, ready, s.core.late, wbs⟩
  { s with images := s.images ++ [im] }.setCoreAt n { k with streams := [], maps := [], held := [], ntq := [] }

/-- Ask the tasks of a group to stop (R362, R369). A fault of the group stops them at once, whatever they have been asked before
(R152, R372); a halt makes every other stop one for HALT (R377). -/
def State.askStop (s : State) (m g : Nat) (why : StopReason) : State :=
  (s.groupCores m g).foldl (init := s) fun s n =>
    let k := s.coreAt n
    if k.run = .running ∧ (k.preq.isNone ∨ why = .fault ∨ (why = .halt ∧ k.preq ≠ some .fault)) then s.setCoreAt n { k with preq := some why } else s

/-- A precise fault at the executing core: the task stops at the faulting issue, and its group is to be parked (R362, R358). -/
def State.parkFault (s : State) (smask issue : Nat) (pc : Nat) (fi : FaultInfo) : State :=
  let k := s.core
  let armed := match s.job k.mcid with
    | some j => j.armed
    | none => false
  let rc := s.taskRecord s.cur smask issue true pc fi
  let ready := s.readyOf s.cur fi
  let brk := armed && (fi.cause == 0x30 || fi.cause == 0x31)
  (s.stopTask 1 0 (some rc) brk ready).askStop k.mcid k.grp .fault

/-- A terminating cause (R363): UNCORRECTABLE ends the task, LINK_DOWN the whole job. -/
def State.dieFault (s : State) (smask issue : Nat) (pc : Nat) (fi : FaultInfo) : State :=
  let k := s.core
  let q := s.queueOf k.mcid
  if fi.cause = 0x20 then
    let rc := s.taskRecord s.cur smask issue false pc fi
    ((s.recordPrecise q rc).killTask k.mcid k.rank).endJob k.mcid
  else
    let done := match s.job k.mcid with
      | some j => j.retired
      | none => 0
    let rc := s.taskRecord s.cur smask issue false pc ⟨fi.cause, fi.outcome, fi.level, done.setWidth 192⟩
    (s.recordPrecise q rc).killJob k.mcid

/-- A fault of an issue of the executing core is taken (R358 to R363). `s` is the state before the issue. -/
def State.takeFault (s : State) (smask issue : Nat) (pc : Nat) (fi : FaultInfo) : State :=
  if fi.cause = 0x20 ∨ fi.cause = 0x21 ∨ fi.cause = 0x22 then s.dieFault smask issue pc fi else s.parkFault smask issue pc fi

/-! ### Groups off and on their cores -/

/-- Has every task of a group stopped, with its write-backs done, retired or been terminated? -/
def State.groupStopped (s : State) (m g : Nat) : Bool :=
  match s.job m with
  | none => false
  | some j => (s.gplace m g).2.2 == 1 && ((j.ranks g).all fun r => j.gone r || (s.imageOf m r).any (·.wbs == [])) &&
      (j.ranks g).any fun r => (s.imageOf m r).isSome

/-- The write-backs that a stopped task still owes are tried again (R42, R45): what has been written is INVALID in its image, and a fault is
due at its first bundle. -/
def State.settleWbs (s : State) (m rank : Nat) : State :=
  match s.imageOf m rank, s.coreOf m rank with
  | some im, some n =>
    let held := s.coreAt n
    let c := s.cur
    let (fault, wbs, s1) := ({ s.setCoreAt n im.core with cur := n }).writeBackAll .invalid im.wbs
    let k := s1.coreAt n
    let im' : Image := { im with core := { k with due := k.due <|> fault }, wbs := wbs }
    { s1.setCoreAt n held with cur := c, images := s1.images.map fun i => if i = im then im' else i }
  | _, _ => s

/-- The images of a group. -/
def State.groupImages (s : State) (m g : Nat) : List Image :=
  match s.job m with
  | none => []
  | some j => s.images.filter fun i => i.mcid = m ∧ (j.ranks g).contains i.rank

/-- The group leaves its cores (R362, R371). -/
def State.leaveCores (s : State) (m g gst : Nat) : State :=
  let s := s.addUse m g
  let s := (s.groupCores m g).foldl State.freeCore s
  s.setGst m g gst

/-- A request for a group is filed once (R367). -/
def State.fileResume (s : State) (r : DispReq) : State :=
  if s.dispq.any fun q => q.mcid = r.mcid ∧ q.grp = r.grp then s else { s with dispq := s.dispq ++ [r] }

/-- A halt reaches every group of a job that is on core (R276, R377). -/
def State.haltJob (s : State) (m : Nat) : State :=
  let s := s.onJob m fun j => { j with halting := true, armed := false }
  ((s.onCoreGroups m).foldl (fun s g => s.askStop m g .halt) s).settleHalt m

/-- The images of a group are written to their save slots (R371, R373). -/
def State.spillGroup (s : State) (m g : Nat) : State :=
  let ims := (s.groupImages m g).filter fun (i : Image) => !i.spilled
  { ims.foldl State.spill s with images := s.images.map fun (i : Image) => if ims.contains i then { i with spilled := true } else i }

/-- Groups of the jobs: MC and group. -/
def State.allGroups (s : State) : List (Nat × Nat) := s.jobs.flatMap fun j => (List.range (j.ntg + 1)).map fun g => (j.mcid, g)

/-- A parked group whose records are all written: where every cause is a wait cause the device files the RESUME request now; until then the group
stays parked (R364, R367). -/
def State.settleParked (s : State) (m g : Nat) : State :=
  let hit := (s.groupImages m g).filter fun i => i.rec_.isSome
  let (die, _, gst) := s.gplace m g
  if gst ≠ 2 ∨ hit = [] ∨ hit.any (fun i => s.pendRecs.any fun e => some e.record == i.rec_) then s
  else
    let s := if hit.all fun i => i.ready.isSome then s.fileResume ⟨die, s.mcPart m, m, g, hit.filterMap (·.ready)⟩ else s
    { s with images := s.images.map fun (i : Image) => if i.mcid = m ∧ hit.any (·.rank == i.rank) then { i with rec_ := none } else i }

/-- A group in which a task has faulted is parked: the images written, GST 2, its cores free, and one record for each task that faulted
(R362, R367). -/
def State.parkGroup (s : State) (m g : Nat) : State :=
  let s := s.spillGroup m g
  let ims := s.groupImages m g
  let hit := ims.filter fun i => i.rec_.isSome
  let s := s.leaveCores m g 2
  let s := hit.foldl (init := s) fun s i => s.recordPrecise (s.queueOf m) (i.rec_.getD 0)
  let s := s.settleParked m g
  let s := if hit.any (·.brk) then s.haltJob m else s
  s.settleHalt m

/-- A group that has been pre-empted leaves its cores and joins the tail of its resume list; one that was halted waits for
CONTINUE (R193, R199, R200, R276). -/
def State.swapOut (s : State) (m g : Nat) : State :=
  let halting := match s.job m with
    | some j => j.halting
    | none => false
  let (die, _, _) := s.gplace m g
  let s := s.leaveCores m g 0
  if halting then s.settleHalt m else { s with resume := s.resume ++ [⟨m, g, die⟩] }

/-- The release that the completion word at a scratchpad offset is, where the word still stands (R129, R130). -/
def State.wordRelAt (s : State) (off w : Nat) : Option Rel := ((s.core.padRels.find? (off / 8)).filter (·.1 == w)).map (·.2)

/-- A write to the scratchpad of a sleeping `WAITA` has taken place: where the condition on its word holds now, the task wakes (R115). -/
def State.wakePad (s : State) : State :=
  match s.core.wait with
  | some (.waita z) =>
    let w := s.spRun z.place 8
    if z.pad && waitCond z.kind (BitVec.ofNat 64 w) z.x then
      s.onCore fun k => { k with wait := none, issue := { k.issue with woken := some ⟨z, BitVec.ofNat 64 w, s.writes, s.wordRelAt z.place w⟩ } }
    else s
  | _ => s

/-- A completion word is to be written at a scratchpad offset: the release that it is goes with it (R129). -/
def State.notePadRel (s : State) (off : Nat) (bs : List Byte) (rel : Option Rel) : State :=
  match rel with
  | none => s
  | some r => s.onCore fun k => { k with padRels := k.padRels.insert (off / 8) (ofBytes bs, r) }

/-- A background write into the executing core's scratchpad: it is ordered after the writes of committed bundles, of which what it covers
has no more effect (R301, R118); the bytes are marked in a mapped granule, and poison travels (R42, R303, R416).
(DEDUCED, log entries 16, 48) -/
def State.padPut (s : State) (off : Nat) (bs : List Byte) (bad : Option Nat) : State :=
  let n := bs.length
  State.wakePad <| s.onCore fun k =>
    (spChunks off n).foldl (init := { k with sp := k.sp.writeBytes off bs }) fun k ch =>
      let m := BitVec.ofNat 64 (digits 1 (fun i => if off ≤ 64 * ch + i ∧ 64 * ch + i < off + n then 1 else 0) 0 64)
      let bitsOf := (spread 8 (m.setWidth 128)).setWidth 512
      let k := { k with pend := maskOlder ⟨.sp, ch, 0, bitsOf.setWidth 4096, 0, 0⟩ k.pend }
      let k := (k.markChunk ch m).smudge s.tick ch 8 (k.sp.chunk ch) bitsOf
      { k with spBad := match bad with
          | some pa => k.spBad.insert ch pa
          | none => if m = BitVec.allOnes 64 then k.spBad.erase ch else k.spBad }

/-- A held engine write is applied to the scratchpad of a core, and its bytes count (R362, R155). -/
def State.landLate (n : Nat) (s : State) (w : Late) : State :=
  let s := s.at_ n fun s => (s.notePadRel w.off w.bytes w.rel).padPut w.off w.bytes w.bad
  match w.bar with
  | none => s
  | some (mc, lvl, dom, phase) => s.landedBytes mc lvl dom phase w.bytes.length w.view

/-- Place a restored group on the cores from `core` of a die (R367, R192): the images come back, held engine writes are applied, or are left to
the first bundle where a granule must be filled first, TASKID and GPLACE follow, PBOUND is loaded (R362, R368, R374). -/
def State.restoreGroup (s : State) (m g die core : Nat) : State :=
  match s.job m with
  | none => s
  | some j =>
    let s := (j.ranks g).foldl (init := s) fun s r =>
      let n := 64 * die + core + r % j.size
      match s.imageOf m r with
      | none => s.setCoreAt n { s.coreAt n with run := .held, mcid := m, grp := g, rank := r, part := j.part, asid := s.mcAsid m }
      | some im =>
        let k := if im.spilled then s.readImage im else im.core
        let now := im.late.all fun w => (spChunks w.off w.bytes.length).all fun ch => (k.mapOf (64 * ch)).isNone
        (if now then im.late else []).foldl (State.landLate n) <| s.setCoreAt n
          { k with late := if now then [] else im.late, run := .running, taskid := mkTaskid (r % j.size) g n j.tgsize j.ntg m,
                   steepwait := s.mcbF m 511 480, slice := 0,
                   pbound := BitVec.ofNat 32 (s.mcbF m 799 768), since := s.frame, swapIn := s.time }
    { s.setGplace m g die core 1 with
        images := s.images.filter fun i => !(decide (i.mcid = m) && (j.ranks g).contains i.rank) }

/-! ### TRAP and ERET (R269, R270) -/

/-- The ASID that translates at a level of the executing task (R269, R270). -/
def State.levelAsid (s : State) (l : Nat) : Nat :=
  match l with
  | 0 => s.mcAsid s.core.mcid
  | 1 => s.csrF (0x070 + s.core.part) 9 0
  | _ => s.csrF 0x080 9 0

/-- The TVEC of an entry into a level (R267). -/
def State.tvec (s : State) (l : Nat) : Nat := s.csrF (0x020 + (if l = 1 then s.core.part else 16)) 51 0

/-- The entry of R269, after the TRAP bundle has committed. Pending format writes are saved with their remaining counts (R240). -/
def State.enterTrap (s : State) (code : BitVec 16) : State :=
  let l := s.core.pl.toNat + 1
  let asid := s.levelAsid l
  let vec := s.tvec l
  s.onCore fun k =>
    let k := k.drainAll
    let epc : Dword := k.pc.setWidth 64
    let estat : Dword := BitVec.ofNat 64 (k.pl.toNat + 4)
    let ecause : Dword := BitVec.ofNat 64 (0x50 + 2 ^ 16 * code.toNat)
    let fr : TrapFrame := ⟨k.slots, k.y, k.fmts.map fun e => { e with at_ := e.at_ - k.issueNo }⟩
    let k := if l = 1 then { k with epc1 := epc, estat1 := estat, ecause1 := ecause, trap1 := fr }
      else { k with epc2 := epc, estat2 := estat, ecause2 := ecause, trap2 := fr }
    { k with pl := BitVec.ofNat 2 l, asid := asid, slots := List.replicate 5 .off, y := List.replicate 4 .zero, fmts := [],
             pc := BitVec.ofNat 52 vec }

/-- The return of R270, after the ERET bundle has committed. The format writes that the TRAP saved come back with their counts; those of
the handler that are still pending keep theirs (R240). -/
def State.leaveTrap (s : State) : State :=
  let k0 := s.core
  let l := k0.pl.toNat
  let estat := if l = 1 then k0.estat1 else k0.estat2
  let ppl := bits estat.toNat 1 0
  let asid := s.levelAsid ppl
  s.onCore fun k =>
    let fr := if l = 1 then k.trap1 else k.trap2
    let k := if l = 1 then { k with estat1 := k.estat1 &&& ~~~4 } else { k with estat2 := k.estat2 &&& ~~~4 }
    { k with pl := BitVec.ofNat 2 ppl, asid := asid, slots := fr.slots, y := fr.bypass,
             fmts := (fr.fmts.map fun e => { e with at_ := e.at_ + k.issueNo }) ++ k.fmts,
             pc := ((if l = 1 then k.epc1 else k.epc2).setWidth 52) }

end Sys2Proof.Machine
end

