-- ==== Sys2Proof/Machine/Survey.lean ====
section
/-! DEFINITION. What an operation of an issue names, whatever ends it: its destination registers (R235), its source fields (R224), the
scratchpad accesses and reservations that it makes (R86, R88, R300, R314) and the fault conditions that its operands meet. An operation
ends at the first condition that it meets; where an issue faults, the survey of such an operation adds the others, so that the whole of
R358 can be applied. -/

namespace Sys2Proof.Machine

/-! ### The operands that an operation names -/

/-- An x register as a destination; writes to x0 are exempt (R235). -/
def xDest (r : BitVec 6) : List (RegFile × Nat) := if r = 0 then [] else [(.x, r.toNat)]
/-- A predicate register as a destination; writes to p0 are exempt (R235). -/
def pDest (r : Nat) : List (RegFile × Nat) := if r = 0 then [] else [(.p, r)]
/-- A destination field of R225 as a register. -/
def vDest (d : BitVec 8) : List (RegFile × Nat) := if dstCls d = 0 then [(.v, dstIdx d)] else []

/-- The destination field of a V or M operation with a vector result (R225, R283, R305). -/
def vectorDst : Instr → Option (BitVec 8)
  | .vfadd _ o | .vfsub _ o | .vfmul _ o | .vfma _ o | .vfms _ o | .vfnma _ o | .vfmin _ o | .vfmax _ o | .vfabs _ o | .vfneg _ o
  | .vhaddBf16 _ o | .vhaddF16 _ o | .vhmulBf16 _ o | .vhmulF16 _ o | .vhfmaBf16 _ o | .vhfmaF16 _ o
  | .vadd _ o | .vsub _ o | .vmul _ o | .vmulh _ o | .vadds _ o | .vsubs _ o | .vmin _ o | .vmax _ o | .vminu _ o | .vmaxu _ o
  | .vand _ o | .vor _ o | .vxor _ o | .vshl _ o | .vshr _ o | .vsra _ o | .vabs _ o
  | .vdot4SS _ o | .vdot4SU _ o | .vdot4US _ o | .vdot4UU _ o | .vdot4sSS _ o | .vdot4sSU _ o | .vdot4sUS _ o | .vdot4sUU _ o
  | .vdot8SS _ o | .vdot8SU _ o | .vdot8US _ o | .vdot8UU _ o | .vdot8sSS _ o | .vdot8sSU _ o | .vdot8sUS _ o | .vdot8sUU _ o
  | .vexp2 _ o | .vlog2 _ o | .vrcp _ o | .vrsq _ o | .vtanh _ o | .vsigm _ o
  | .vcvtF32Int _ o | .vcvtF32Uint _ o | .vcvtIntF32 _ o | .vcvtIntF32Rtz _ o | .vcvtUintF32 _ o | .vcvtUintF32Rtz _ o
  | .vcvtBf16F32 _ o | .vcvtBf16F32Rtz _ o | .vcvtF16F32 _ o | .vcvtF16F32Rtz _ o | .vcvtF32Bf16 _ o | .vcvtF32F16 _ o
  | .vqnt _ o | .vdqnt _ o | .vscl _ o | .vsel _ o | .vmov _ o | .vbcast _ o | .vins _ o | .vperm _ o | .vxcl _ o | .vxclX _ o =>
    some o.dst
  | .vrand _ o => some o.dst
  | .vmovi _ o => some o.dst
  | .vld _ o => some (o.data.extractLsb' 1 8)
  | .vgath _ o => some (o.data.extractLsb' 1 8)
  | .mrmax _ o => some o.dst
  | _ => none

/-- The x, v and p registers that an operation names as destinations (R235, R283). -/
def opDests : Instr → List (RegFile × Nat)
  | .add _ o | .sub _ o | .mul _ o | .mulh _ o | .mulhu _ o | .div _ o | .divu _ o | .rem _ o | .remu _ o | .and _ o | .or _ o
  | .xor _ o | .shl _ o | .shr _ o | .sra _ o | .min _ o | .max _ o | .minu _ o | .maxu _ o | .clz _ o | .ctz _ o | .popc _ o
  | .mcld _ o | .mcst _ o | .kset _ o | .ringf _ o | .dispatchResume _ o | .dispatchTerminate _ o | .dispatchContinue _ o
  | .sigwaitHalt _ o | .sigwaitArm _ o | .tlbinvAsid _ o | .tlbinvPages _ o | .tlbinvPartition _ o | .useal _ o | .pcfgCreate _ o
  | .pcfgDestroy _ o | .pcfgQuotaGrant _ o | .pcfgQuotaRevoke _ o | .pcfgCal _ o | .pcfgBand _ o | .pcfgSlice _ o
  | .pcfgStateDrain _ o | .pcfgStateScrub _ o | .pcfgStateRelease _ o | .pcfgStateActive _ o | .pcfgGmapMap _ o | .pcfgGmapUnmap _ o =>
    xDest o.xd
  | .sel _ o => xDest o.xd
  | .addi _ o | .andi _ o | .ori _ o | .xori _ o | .shli _ o | .shri _ o | .srai _ o => xDest o.xd
  | .bfx _ o | .bfi _ o => xDest o.xd
  | .li _ o | .lih _ o | .addpc _ o => xDest o.xd
  | .cmp _ o | .pand _ o | .por _ o | .pxor _ o | .pnot _ o | .pset _ o => pDest o.d.toNat
  | .cmpi _ o => pDest o.d.toNat
  | .pget _ o => xDest o.d
  | .call _ _ => [(.x, 63)]
  | .callx _ _ => [(.x, 63)]
  | .fmtrd _ o => xDest o.xd
  | .csrr _ o | .csrw _ o | .csrs _ o | .csrc _ o | .attreqWrite _ o | .cxlcapWrite _ o | .gftbaseWrite _ o | .fabidWrite _ o
  | .hpasidWrite _ o | .eccstatWrite _ o | .mclogWrite _ o | .watchpointWrite _ o => xDest o.xd
  | .ldb _ o | .ldbu _ o | .ldh _ o | .ldhu _ o | .ldw _ o | .ldwu _ o | .ldd _ o => xDest o.xd
  | .amo _ o | .cas _ o => xDest o.xd
  | .waita _ o => xDest o.xd
  | .enq _ o => xDest o.xd ++ pDest o.pd.toNat
  | .barTry _ o => pDest o.pd.toNat
  | .vfcmp _ o | .vcmp _ o => pDest o.pd.toNat
  | .vextr _ o => xDest o.xd
  | i => (vectorDst i).elim [] vDest

/-- The fields of a slot word from which an operation reads vectors (R224, R225, R283, R305). -/
def sourceFields (k : Cls) (w : BitVec 64) : List (BitVec 9) :=
  let op := (w.extractLsb' 56 8).toNat
  let vr := [w.extractLsb' 29 9, w.extractLsb' 20 9, w.extractLsb' 11 9]
  match k with
  | .v =>
    if op = 0x0B ∨ op = 0x50 then [w.extractLsb' 29 9, w.extractLsb' 20 9]
    else if op = 0xC4 then [w.extractLsb' 29 9]
    else if op = 0xE1 then [w.extractLsb' 37 9]
    else if op = 0xE2 then [w.extractLsb' 28 9]
    else if op = 0xE3 then [w.extractLsb' 37 9, w.extractLsb' 28 9]
    else if op = 0xC2 ∨ op = 0x90 ∨ op = 0xE0 ∨ op = 0 then []
    else vr
  | .m => if op = 0x14 then [w.extractLsb' 25 9] else []
  | _ => []

/-- The vector registers that a slot word frees, by their logical numbers (R237). -/
def lastUses (k : Cls) (w : BitVec 64) : List Nat :=
  ((sourceFields k w).filter fun f => srcL f && srcCls f == 0).map srcIdx

/-- The source fields of an operation that its opcode uses. A field that it does not use is zero (R224), and zero names v0, so how
many it uses is said here. -/
def usedSources (i : Instr) : List (BitVec 9) :=
  match i with
  | .vfadd _ o | .vfsub _ o | .vfmul _ o | .vfmin _ o | .vfmax _ o | .vhaddBf16 _ o | .vhaddF16 _ o | .vhmulBf16 _ o | .vhmulF16 _ o
  | .vadd _ o | .vsub _ o | .vmul _ o | .vmulh _ o | .vadds _ o | .vsubs _ o | .vmin _ o | .vmax _ o | .vminu _ o | .vmaxu _ o
  | .vand _ o | .vor _ o | .vxor _ o | .vshl _ o | .vshr _ o | .vsra _ o | .vsel _ o | .vperm _ o | .vxcl _ o => [o.opa, o.opb]
  | .vfma _ o | .vfms _ o | .vfnma _ o | .vhfmaBf16 _ o | .vhfmaF16 _ o
  | .vdot4SS _ o | .vdot4SU _ o | .vdot4US _ o | .vdot4UU _ o | .vdot4sSS _ o | .vdot4sSU _ o | .vdot4sUS _ o | .vdot4sUU _ o
  | .vdot8SS _ o | .vdot8SU _ o | .vdot8US _ o | .vdot8UU _ o | .vdot8sSS _ o | .vdot8sSU _ o | .vdot8sUS _ o | .vdot8sUU _ o =>
    [o.opa, o.opb, o.opc]
  | .vqnt _ o | .vdqnt _ o | .vscl _ o => if o.opb = 0 then [o.opa] else [o.opa, o.opb]
  | .vins _ o => [o.opa, (o.dst.extractLsb' 0 6).setWidth 9]
  | .vfabs _ o | .vfneg _ o | .vabs _ o | .vexp2 _ o | .vlog2 _ o | .vrcp _ o | .vrsq _ o | .vtanh _ o | .vsigm _ o
  | .vcvtF32Int _ o | .vcvtF32Uint _ o | .vcvtIntF32 _ o | .vcvtIntF32Rtz _ o | .vcvtUintF32 _ o | .vcvtUintF32Rtz _ o
  | .vcvtBf16F32 _ o | .vcvtBf16F32Rtz _ o | .vcvtF16F32 _ o | .vcvtF16F32Rtz _ o | .vcvtF32Bf16 _ o | .vcvtF32F16 _ o
  | .vmov _ o | .vbcast _ o | .vxclX _ o => [o.opa]
  | .vfcmp _ o | .vcmp _ o => [o.opa, o.opb]
  | .vextr _ o => [o.opa]
  | .vst _ o => [o.data]
  | .vgath _ o => [o.idx]
  | .vscat _ o => [o.data, o.idx]
  | .mscale _ o => [o.src]
  | _ => []

/-! ### The survey -/

/-- What the survey of an operation finds. -/
structure Found where
  acc : List (Nat × Bool)
  faults : List FaultInfo
  deriving DecidableEq, Repr

/-- Nothing found. -/
def Found.none : Found := ⟨[], []⟩
/-- Two findings together. -/
def Found.and (a b : Found) : Found := ⟨a.acc ++ b.acc, a.faults ++ b.faults⟩

/-- The fault that a computation would end with, if it would. -/
def faultOf {α : Type} (m : M α) (s : State) : List FaultInfo :=
  match m s with
  | .error (.fault fi, _) => [fi]
  | _ => []

/-- A stream named as a source or as a destination: ILLEGAL_SLOT where it is not bound so, the chunks of its element in the scratchpad, or
what the translation of its element meets (R231, R344, R345). `n` elements of it have been named before in the operation. -/
def State.surveyStream (s : State) (i n : Nat) (push : Bool) : Found :=
  match s.strm i with
  | none => ⟨[], [illegalSlot]⟩
  | some t =>
    if t.push != push || (push && t.kind == .kv) || decide (t.kind != .kv ∧ t.left ≤ n) then ⟨[], [illegalSlot]⟩
    else match t.kind with
      | .scratch =>
        let o := t.place spSize (t.index + n)
        if faultOf (needElement o) s = [] then ⟨(spChunks o 512).map (·, push), []⟩ else ⟨[], [bankConflict]⟩
      | .global =>
        if t.ahead.length > n then ⟨[], []⟩
        else ⟨[], faultOf (do
          let _ ← (pieces 4096 3 (t.place (2 ^ 52) (t.index + n)) 512).mapM fun (a, _) =>
            xlateAs t.asid (a % 2 ^ 52) (if push then .write else .read)) s⟩
      | .kv => ⟨[], []⟩

/-- A source field: DEADREG, or what its stream shows (R231, R237). -/
def State.surveySource (s : State) (before : List (BitVec 9)) (f : BitVec 9) : Found :=
  match srcCls f with
  | 0 => ⟨[], if s.isFreed (srcIdx f) then [deadreg] else []⟩
  | 1 => s.surveyStream (srcIdx f) (before.filter fun g => srcCls g == 1 && srcIdx g == srcIdx f).length false
  | _ => .none

/-- The sources of an operation in operand order (R231). -/
def State.surveySources (s : State) : List (BitVec 9) → List (BitVec 9) → Found
  | _, [] => .none
  | before, f :: fs => (s.surveySource before f).and (s.surveySources (before ++ [f]) fs)

/-- A run of the scratchpad at a cursor aligned to `a` (R297, R316). -/
def State.surveyRun (s : State) (a n : Nat) (write : Bool) : Found :=
  let c := s.cursor 0
  if c % a = 0 then ⟨(spChunks c n).map (·, write), []⟩ else ⟨[], [bankConflict]⟩

/-- A `VLD` or `VST` (R297). -/
def State.surveyVm (s : State) (o : VM) (write : Bool) : Found :=
  let t := s.vmCursor o
  match faultOf (vmRun o) t with
  | [] => t.surveyRun 1 (spRunA o.mode.toNat (nfmt (t.getF o.fsel.toNat))).1 write
  | fs => ⟨[], fs⟩

/-- A descriptor, with the stream that the operation binds, unbinds or flushes (R316, R320, R346). -/
def State.surveyCk (s : State) (o : CK) (bound : Option Bool) : Found :=
  let d := (s.ckCursor o).surveyRun 64 64 false
  match bound with
  | none => d
  | some b => if (s.strm o.sidx.toNat).isSome = b then d else ⟨d.acc, illegalSlot :: d.faults⟩

/-- What an enabled operation of the executing slot names and meets, at the state before the operations of its issue. -/
def State.survey (s : State) (m : Pred) (i : Instr) : Found :=
  let src := s.surveySources [] (usedSources i)
  let dst := match vectorDst i with
    | some d => if dstCls d = 1 then s.surveyStream (dstIdx d) 0 true else .none
    | none => .none
  let own := match i with
    | .vld _ o => s.surveyVm o false
    | .vst _ o => s.surveyVm o true
    | .vgath _ o | .vscat _ o =>
      ⟨[], faultOf (do let _ ← gatherWords (← source o.idx) m) (s.vgCursor o)⟩
    | .kvbind _ o | .sbind _ o | .sbindg _ o => s.surveyCk o (some false)
    | .sflush _ o => s.surveyCk o (some true)
    | .kvnew _ o | .kvapp _ o | .kvtrunc _ o | .kvfork _ o | .kvfree _ o | .kvrackRack _ o | .kvrackPooladd _ o | .kvrackPooltake _ o
    | .kvqry _ o | .cpy _ o | .cpy2d _ o | .mcstMulticast _ o | .spmap _ o | .spmapUnmap _ o | .spsync _ o | .spinv _ o | .migrMove _ o
    | .migrFetch _ o | .migrFlush _ o | .migrPooladd _ o | .migrPooltake _ o | .cred _ o | .cbcast _ o => s.surveyCk o none
    | _ => .none
  (src.and dst).and own

/-- The window of a gather or scatter whose issue faults in its own slot (R300). -/
def State.surveyWindow (s : State) : Instr → List Window
  | .vgath _ o | .vscat _ o => [⟨s.core.issue.slot, spGroup ((s.vgCursor o).cursor 0), s.core.fetchCycle⟩]
  | _ => []

/-- The banks that a fetch operation would reserve from its issue on (R88, R314). -/
def State.surveyReserve (s : State) : Instr → List Reserve
  | .mma _ o =>
    let t := s.mxCursor o
    [reserveOf (t.cursor 0) ((s.matFmt o.kind.toNat o.fa.toNat).steps (kOf o.kb)),
      reserveOf (t.cursor 1) ((s.matFmt o.kind.toNat o.fb.toNat).steps (kOf o.kb))]
  | .mmas _ o =>
    let t := s.msCursor o
    [reserveOf (t.cursor 0) ((s.matFmt 0 o.fa.toNat).steps (kOf o.kb)),
      reserveOf (t.cursor 1) (kOf o.kb / 32 * sparseSteps (nfmt (s.getF o.fb.toNat)) (32 * (o.lvf.toNat + 1)))]
  | .mmat _ o | .mmav _ o =>
    let kind := match s.strm o.sk.toNat with
      | some t => if t.ekind = 0 then 1 else if t.ekind = 1 then 2 else 0
      | none => 0
    [reserveOf ((s.mkCursor o).cursor 0) ((s.matFmt kind o.fa.toNat).steps (kOf o.kb))]
  | .mred _ o | .mscan _ o => [reserveOf ((s.mxCursor o).cursor 0) ((s.matFmt o.kind.toNat o.fa.toNat).steps (kOf o.kb))]
  | .mld _ o | .mst _ o =>
    let t := s.mrCursor o
    let m : MatFmt := match o.ty.toNat with
      | 0 => .wide fp32
      | 1 => .wide bf16
      | 2 => .wide fp16
      | _ => .narrow (nfmt (s.getF o.fs.toNat))
    [⟨spGroup (t.cursor 0), spBank (t.cursor 0), 1, (o.nr.toNat + 1) * m.rowStride / 64⟩]
  | _ => []

/-- Take up what the survey of the executing slot's operation finds, at the state `pre` before the operations of the issue: its
destinations; and, unless its encoding or its streams are faulty, its accesses, its window and its reservation (R235, R358). -/
def State.complete (s pre : State) (slot : Nat) (explicit : Bool) (i : Instr) (m : Pred) : State :=
  let p := pre.onIssue fun r => { r with slot := slot, explicit := explicit }
  let f := p.survey m i
  let mine := (s.core.issue.faults.filter (·.slot == slot)).map (·.fi) ++ f.faults
  let ok := mine.all fun g => g.cause != 0x02
  s.onCore fun k =>
    let fetch := if ok ∧ p.surveyReserve i ≠ [] ∧ k.mfetch.all (fun g => decide (g.start + g.len ≤ k.fetchCycle)) then
      some ⟨k.fetchCycle, ((p.surveyReserve i).map (·.steps)).foldl max 0, p.surveyReserve i, [], [], none⟩ else k.mfetch
    { k with
      windows := k.windows ++ (if ok then p.surveyWindow i else []),
      mfetch := fetch,
      issue := { k.issue with
        faults := k.issue.faults ++ f.faults.map (⟨slot, ·⟩),
        dests := (opDests i).map (fun d => (slot, d)) ++ k.issue.dests.filter (fun d => d.1 != slot),
        acc := (if ok then f.acc.map fun a => ⟨slot, a.1, a.2⟩ else []) ++ k.issue.acc.filter (fun a => a.slot != slot) } }

end Sys2Proof.Machine
end

