-- ==== Sys2Proof/Machine/Issue.lean ====
section
/-! DEFINITION. One issue of one core (R220 to R242, R358 to R360): fetching the bundle, the sticky slots, the order of the slots,
the checks at the end of the issue, its commit, its stall and its fault. The executor of an operation is an argument. -/

namespace Sys2Proof.Machine

/-! ### Fetching a bundle (R96, R220, R222) -/

/-- Bytes of a page as they stood when the instruction buffer took it, under the key of that fetch (R27, R96). -/
def CodePage.bytes (c : CodePage) (s : State) (off n : Nat) : List Byte :=
  { s with mem := c.mem, lineTag := c.tags }.rdBytes c.key (c.pa + off) n

/-- The bytes of one page at a VA, as code: after the first fetch from a page, the bytes of then or those of now (R96).
(DEDUCED, log entry 13) -/
def fetchPage (va n : Nat) : M (List Byte) := do
  let l ← xlateTask va .fetch
  match l with
  | .host _ _ _ _ => M.stop (.fault (walkFault 0x3 0 va .fetch))
  | .dev pa t => do
    needClean pa n
    let s ← get
    let k := s.core
    let new := s.rdBytes t pa n
    let key := k.asid * 2 ^ 36 + va / 65536
    match k.ibuf.find? key with
    | none => do
      let base := pa / 65536 * 65536
      let tags := s.lineTag.filter fun e => e.1 / 1024 == base / 65536
      set (s.onCore fun k => { k with ibuf := k.ibuf.insert key ⟨base, t, s.mem.slice base (base + 65536), tags⟩ })
      pure new
    | some m =>
      let old := m.bytes s (va % 65536) n
      pure (if ofBytes old = ofBytes new then new else if Config.free 1 s.tick .ibuf k.pc.toNat s.cur = 1 then new else old)

/-- Code bytes from a VA upward, as one number; they may lie on two pages (R220). -/
def fetchCode (va n : Nat) : M Nat := do
  let parts ← (pieces 65536 3 va n).mapM fun (a, m) => fetchPage (a % 2 ^ 52) m
  pure (ofBytes parts.flatten)

/-- A bundle whose first word is known: `code` fetches as many of its bytes as its header asks for (R220 to R222). -/
def bundleOf (w : Nat) (code : Nat → M Nat) : M (Header × Nat) :=
  match decodeHeader (BitVec.ofNat 32 w) with
  | .error _ => M.stop (.fault illegalBundle)
  | .ok h => do
    let b ← code (bundleLen h.pm)
    pure (h, b)

/-- The bundle at the PC: its header and its bytes (R220 to R222). A PC that is not 4-byte-aligned is no bundle start (R159). A bundle that
repeats is fetched once: every repetition is of the bytes that its first issue has found (R96, R228). -/
def fetchBundle : M (Header × Nat) := do
  let k := (← get).core
  match if k.rpt = 0 then none else k.fetched with
  | some b => bundleOf (b % 2 ^ 32) fun _ => pure b
  | none =>
    let pc := k.pc.toNat
    M.need (pc % 4 == 0) (.fault illegalBundle)
    let (h, b) ← bundleOf (← fetchCode pc 4) (fetchCode pc)
    M.change (·.onCore fun k => { k with fetched := some b })
    pure (h, b)

/-! ### Sticky slots (R229) and last uses (R237) -/

/-- A slot word of a bundle, with what it decodes to. -/
abbrev SlotWord := Nat × BitVec 64 × Except DecodeError Instr

/-- An operation that a slot issues: the slot, its operation, and whether its word is in the bundle and this is its first issue
(R229, R230). -/
structure SlotOp where
  slot : Nat
  op : Instr
  explicit : Bool
  deriving DecidableEq, Repr

/-- What a slot issues at this issue: the operation of its word, or the armed one (R229). -/
def Core.slotOp? (k : Core) (ws : List SlotWord) (n : Nat) : Option SlotOp :=
  match ws.find? fun w => w.1 = n with
  | some (_, _, .ok i) => some ⟨n, i, decide (k.rpt = 0)⟩
  | some (_, _, .error _) => none
  | none =>
    match k.slots[n - 1]? with
    | some sl =>
      if sl.armed && n != 0 then
        match decodeSlot (slotCls n) sl.word with
        | .ok i => some ⟨n, i, false⟩
        | .error _ => none
      else none
    | none => none

/-- The effective predicate of an operation that a slot issues (R226). -/
def State.slotPred (s : State) (o : SlotOp) : Pred :=
  (s.onIssue fun r => { r with slot := o.slot }).effPred (wordCtl (encode o.op))

/-- Is an operation one that the other slots of its bundle are ordered after (R331)? -/
def fencesBundle : Instr → Bool
  | .fence _ _ => true
  | .drainnt _ _ => true
  | _ => false

/-- What the six slots issue, in the order in which the model takes them: V0, V1, M, C0, C1 (R231), then S; a FENCE or DRAINNT of the S slot comes
first (R331). -/
def Core.slotOps (k : Core) (ws : List SlotWord) : List SlotOp :=
  let s := (k.slotOp? ws 0).toList
  let rest := [1, 2, 3, 4, 5].filterMap (k.slotOp? ws)
  if s.any fun o => fencesBundle o.op then s ++ rest else rest ++ s

/-- The words of a bundle arm their slots at its first issue (R229). -/
def Core.arm (k : Core) (ws : List SlotWord) : Core :=
  if k.rpt ≠ 0 then k
  else { k with slots := ws.foldl (fun ss w => if w.1 = 0 then ss else setAt ss (w.1 - 1) ⟨true, w.2.1, []⟩) k.slots }

/-- Operations of the S slot that no repeated bundle may hold: the control class, `EXIT`, `EXIT.S`, `TRAP`, `ERET` (R228), and the
privileged operations (R252). -/
def onceOnly (w : BitVec 64) : Bool :=
  let op := (w.extractLsb' 56 8).toNat
  decide (0x60 ≤ op ∧ op ≤ 0x7F) || decide (0xD0 ≤ op ∧ op ≤ 0xD8) || [0xB0, 0xB1, 0xC6, 0xC7].contains op

/-- The faults that the words of a bundle raise at decode (R241, R242, R228). (DEDUCED, log entry 74) -/
def decodeFaults (h : Header) (ws : List SlotWord) : List SlotFault :=
  ws.filterMap fun w =>
    match w.2.2 with
    | .error _ => some ⟨w.1, illegalSlot⟩
    | .ok _ => if w.1 = 0 ∧ h.rpt ≠ 0 ∧ onceOnly w.2.1 then some ⟨0, illegalSlot⟩ else none

/-! ### Checks at the end of an issue -/

/-- Two accesses that a bank cannot serve in one cycle (R87). -/
def BankAcc.clash (a b : BankAcc) : Bool :=
  a.chunk / 16384 == b.chunk / 16384 && a.chunk % 16 == b.chunk % 16 && !(a.chunk == b.chunk && !a.write && !b.write)

/-- The slots of the accesses that meet in a bank (R87). -/
def bankClashes : List BankAcc → List Nat
  | [] => []
  | a :: l => (if l.any a.clash then a.slot :: (l.filter a.clash).map (·.slot) else []) ++ bankClashes l

/-- The banks of a group that a fetch reserves in a fetch cycle (R88, R90, R314). -/
def MFetch.banksAt (f : MFetch) (group cycle : Nat) : List Nat :=
  f.reserve.flatMap fun r =>
    if r.group = group ∧ f.start ≤ cycle ∧ cycle < f.start + r.steps then
      (List.range r.width).map fun w => (r.bank + (cycle - f.start) + w) % 16
    else []

/-- The slots whose accesses, windows or reservations meet others of this issue or of an earlier one (R92, R300). -/
def Core.bankFaults (k : Core) : List Nat :=
  let now := k.fetchCycle
  let acc := k.issue.acc
  let fresh := k.windows.filter fun w => w.start = now
  let older := k.windows.filter fun w => w.start < now
  let fetchNew := match k.mfetch with
    | some f => decide (f.start = now)
    | none => false
  let banks (g c : Nat) := match k.mfetch with
    | some f => f.banksAt g c
    | none => []
  let cycles := (List.range 8).map (now + ·)
  bankClashes acc ++
  (acc.filter fun a => (banks (a.chunk / 16384) now).contains (a.chunk % 16)).map (·.slot) ++
  (acc.filter fun a => older.any fun w => w.group = a.chunk / 16384 ∧ w.covers now).map (·.slot) ++
  (acc.flatMap fun a => (fresh.filter fun w => w.group = a.chunk / 16384).flatMap fun w => [a.slot, w.slot]) ++
  (fresh.filter fun w => (older.any fun o => o.group = w.group ∧ o.covers now) ||
      fresh.any fun o => o.group = w.group ∧ o.slot ≠ w.slot).map (·.slot) ++
  (fresh.flatMap fun w => if cycles.any fun c => banks w.group c != [] then (if fetchNew then [w.slot, 3] else [w.slot]) else []) ++
  (if fetchNew && older.any (fun w => cycles.any fun c => w.covers c && banks w.group c != []) then [3] else [])

/-- The slots that name one destination register twice (R235). -/
def destClashes (ds : List (Nat × RegFile × Nat)) : List Nat :=
  (ds.filter fun a => ds.any fun b => a.1 ≠ b.1 ∧ a.2 = b.2).map (·.1)

/-- The faults that only the whole issue shows. -/
def Core.endFaults (k : Core) : List SlotFault :=
  (destClashes k.issue.dests).map (⟨·, illegalSlot⟩) ++ k.bankFaults.map (⟨·, bankConflict⟩)

/-- The slot fault mask: every faulting slot (R358). -/
def faultMask (fs : List SlotFault) : Nat := digits 1 (fun i => if fs.any (·.slot == i) then 1 else 0) 0 6

/-- Of two conditions of one slot, the one that is reported: the first in the order of R358, of two translation causes that with the
lower address, else the one met first. -/
def FaultInfo.prior (a b : FaultInfo) : FaultInfo :=
  let va (f : FaultInfo) := bits f.info.toNat 51 0
  if causeRank b.cause < causeRank a.cause then b
  else if causeRank a.cause = 6 ∧ causeRank b.cause = 6 ∧ va b < va a then b else a

/-- The fault that a set of conditions raises: of the slot first in PM order, the first in the order of R358. (DEDUCED, log entry 61) -/
def chooseFault (fs : List SlotFault) : Option FaultInfo :=
  match (List.range 6).find? fun n => fs.any (·.slot == n) with
  | none => none
  | some n =>
    match (fs.filter (·.slot == n)).map (·.fi) with
    | [] => none
    | f :: rest => some (rest.foldl FaultInfo.prior f)

/-! ### What an issue leaves behind in the units it asked -/

/-- An automatic rack is posted on the owning die's root queue, unless the block is RACKING (R70). A queue that holds its 256 commands (R67)
takes none: the rule gives a walker no stall there, and a later walk posts again. (DESIGN CHOICE, log entry 92) -/
def State.autoRack (s : State) (gbn : Nat) : State :=
  if s.moves.any (fun m => m.gbn = gbn) ∨ 256 ≤ (s.racks.filter fun r => r.die = gbn % 4 ∧ r.part = 16).length then s
  else { s with racks := s.racks ++ [⟨gbn % 4, 16, some gbn, none⟩] }

/-- The DIRTY granules of live maps in a range of the executing core's scratchpad, in ascending offset order: map and number. -/
def Core.dirtyIn (k : Core) (off len : Nat) : List (Nat × Nat) :=
  (List.range (len / 256)).filterMap fun i =>
    let a := off + 256 * i
    match (k.mapOf a).bind fun mi => (k.maps[mi]?).map fun m => (mi, m) with
    | some (mi, m) => if (m.granule ((a - m.off) / 256)).st = .dirty then some (mi, (a - m.off) / 256) else none
    | none => none

/-- Write back the DIRTY granules of a range as they stand; they become CLEAN (R352). -/
def State.syncRange (s : State) (off len : Nat) : State :=
  let was := s.core.sp
  let s := s.onCore fun k => { k with sp := s.snapshot }
  ((s.core.dirtyIn off len).foldl (fun s (mi, g) => (s.writeBack mi g .clean).2) s).onCore fun k => { k with sp := was }

/-- What `SIGWAIT` does to a job: it halts it, or arms it (R276). -/
def State.signalJob (s : State) (m : Nat) (halt : Bool) : State := if halt then s.haltJob m else s.onJob m fun j => { j with armed := true }

/-- A new map: its granules are INVALID, and the former bytes of its range are no longer seen. Its fills and write-backs are translated in the
ASID of the task at the `SPMAP`, in a trap handler too: R43 does not say whether the translation ASID of R269 replaces it.
(DESIGN CHOICE, log entry 96) -/
def State.newMap (s : State) (off len gva : Nat) : State :=
  s.onCore fun k =>
    { k with maps := k.maps ++ [⟨off, len, gva, k.asid, []⟩],
             pend := k.pend.filter fun e => !(decide (e.file = .sp) && decide (off ≤ 64 * e.key) && decide (64 * e.key < off + len)) }

/-- The granules of a range become INVALID, and a write of it that has not landed is discarded with its mark (R352). -/
def State.invMaps (s : State) (off len : Nat) : State :=
  s.onCore fun k =>
    { k with pend := k.pend.filter fun e =>
               !(decide (e.file = .sp) && decide (off ≤ 64 * e.key) && decide (64 * e.key < off + len) && (k.mapOf (64 * e.key)).isSome),
             maps := k.maps.map fun m =>
               { m with gran := m.gran.filter fun g => !(decide (off ≤ m.off + 256 * g.1) && decide (m.off + 256 * g.1 < off + len)) } }

/-- What a region-map command of an issue does to the live maps (R352). -/
def Post.onMaps (ms : List RegMap) : Post → List RegMap
  | .mapNew off len gva => ms ++ [⟨off, len, gva, 0, []⟩]
  | .mapDrop off len => ms.filter fun m => !(m.off == off && m.len == len)
  | _ => ms

/-- What an issue that commits, stalls or faults leaves in the units it asked. -/
def State.applyPost (s : State) (p : Post) : State :=
  match p with
  | .ats r => s.askUnits (.ats r)
  | .pri r => s.askUnits (.pri r)
  | .priUsed fn pasid page who => s.askUnits (.priUsed fn pasid page who)
  | .badUsed die fn pasid page who => s.askUnits (.badUsed die fn pasid page who)
  | .ahead frame => s.askUnits (.ahead frame)
  | .rack gbn => s.autoRack gbn
  | .rackIn gbn cmd => s.rackIn gbn cmd
  | .arrive m lvl rank => s.arrive m lvl rank 0 s.before
  | .under m lvl rank => s.clearUnder m lvl rank
  | .region => s.endRegion
  | .hostOut => s.letOut.drainNt
  | .host core fn pasid addr xaddr len kind a b key =>
    let id := s.nextId
    let msg : OutMsg := if kind = 3 then .hostRead id fn xaddr len else .hostAtomic id fn xaddr len kind a b
    let s := { s with nextId := id + 1, out := msg :: s.out, hostReqs := s.hostReqs ++ [⟨id, core, fn, pasid, addr / 4096, len, key⟩] }
    if core < 256 then s.setCoreAt core { s.coreAt core with wait := some (.host id) } else s
  | .peer agent fab key data =>
    if s.peerReqs.any fun q => q.agent = agent ∧ q.key = key then s
    else { s with nextId := s.nextId + 1, peerReqs := s.peerReqs ++ [⟨s.nextId, fab, agent, key, data⟩],
                  out := .peer s.nextId fab data :: s.out }
  | .reask agent key => { s with given := s.given.filter fun g => !(g.agent == agent && g.key == key) }
  | .sync off len => s.syncRange off len
  | .mapNew off len gva => s.newMap off len gva
  | .mapDrop off len => s.onCore fun k => { k with maps := k.maps.filter fun m => !(m.off == off && m.len == len) }
  | .mapInv off len => s.invMaps off len
  | .signal m halt => s.signalJob m halt
  | .cycles n => s.onCore fun k => { k with fetchCycle := k.fetchCycle + n, tileBusy := 0, wait := none }

/-- Is a post one that only a bundle that stalls makes? -/
def Post.ofStall : Post → Bool
  | .host _ _ _ _ _ _ _ _ _ _ => true
  | .hostOut => true
  | .region => true
  | .cycles _ => true
  | .signal _ _ => true
  | .peer _ _ key _ => key == 64
  | _ => false

/-- Is a post an automatic rack (R70)? -/
def Post.isRack : Post → Bool
  | .rack _ => true
  | _ => false

/-- Is a post one that only a bundle that commits makes? -/
def Post.ofCommit : Post → Bool
  | .mapNew _ _ _ => true
  | .mapDrop _ _ => true
  | .mapInv _ _ => true
  | _ => false

/-- Is a post one that only a bundle that faults makes? -/
def Post.ofFault : Post → Bool
  | .sync _ _ => true
  | _ => false

/-- What a wait asks of the units: one that goes on has posted its automatic rack already (R70, R72). -/
def Wait.postsAnew (w : Wait) (old : Option Wait) (ps : List Post) : List Post := if old = some w then ps.filter fun p => !p.isRack else ps

/-! ### The end of an issue -/

/-- The bundle stalls whole (R231, R234): nothing of the issue stands but what its units were asked. `fs` are the fault conditions that the issue
has met: a stall comes before issue (R72, R231), so they are reported only where the wait ends in a fault (R358). -/
def State.stallIssue (pre s : State) (slot : Nat) (w : Wait) (fs : List SlotFault) : State :=
  let ps := w.postsAnew pre.core.wait (s.core.issue.posts.filter fun p => !p.ofFault && !p.ofCommit)
  ps.foldl State.applyPost (pre.onCore fun k => { k with wait := some w, wslot := slot, met := fs })

/-- The issue faults (R358, R359). -/
def State.faultIssue (pre s : State) (fs : List SlotFault) (fi : FaultInfo) : State :=
  let pre := (s.core.issue.posts.filter fun p => !p.ofStall && !p.ofCommit).foldl State.applyPost pre
  pre.takeFault (faultMask fs) pre.core.rpt pre.core.pc.toNat fi

/-- The successor task on the executing core (R159): `args` are x1 to x7 as they stood at the `EXIT.S` issue (R336), `page` is the
64 KiB page of its bundle, from which the instruction buffer may be kept (R96). -/
def State.succeed (s : State) (entry : Dword) (args : List Dword) (page : Nat) : State :=
  s.onCore fun k =>
    let k := k.drainAll
    { k with
        pc := entry.setWidth 52, x := listMap 1 args, v := [], p := [],
        y := List.replicate 4 .zero, f := [], fmts := [], freed := 0, slots := List.replicate 5 .off, lc := 0, sgate := 0, rwin := 0,
        streams := [], maps := [], restart := false, ckpt := none,
        ibuf := if page = bits entry.toNat 51 0 / 65536 then k.ibuf else [] }

/-- What a bundle does after its last issue has committed (R263, R269, R270, R158, R159). -/
def State.afterIssue (s : State) (a : After) : State :=
  match a with
  | .go => s
  | .halt => s.takeFault 1 0 s.core.pc.toNat breakFault
  | .exit => s.retire s.cur
  | .exitS e args page => s.succeed e args page
  | .trap code => s.enterTrap code
  | .eret => s.leaveTrap

/-- The registers of an issue that commits: format writes in effect, the windows that have passed dropped, the next issue or the
next bundle, last uses freed, and slots with a last use disarmed (R229, R237, R240). `frees` and `wrote` are physical vector
registers. -/
def Core.advance (k : Core) (last : Bool) (ws : List SlotWord) (frees wrote : BitVec 64) : Core :=
  let i := k.issue
  let k := { (k.settleFmts (k.issueNo + 1)) with
    issueNo := k.issueNo + 1, fetchCycle := k.fetchCycle + 1, windows := k.windows.filter fun w => w.covers (k.fetchCycle + 1),
    lfree := k.lfree ||| frees, lwrote := k.lwrote ||| wrote, wait := none, met := [], issue := .none }
  if last then
    { k with
        rpt := 0, pc := i.target.getD i.nextPc, freed := k.freed ||| (k.lfree &&& ~~~k.lwrote), lfree := 0, lwrote := 0,
        slots := ws.foldl (fun ss w => if w.1 ≠ 0 ∧ lastUses (slotCls w.1) w.2.1 ≠ [] then setAt ss (w.1 - 1) .off else ss) k.slots }
  else { k with rpt := k.rpt + 1 }

/-- A set of registers as a mask. -/
def regMask (rs : List Nat) : BitVec 64 := rs.foldl (fun m r => m ||| BitVec.ofNat 64 (2 ^ r)) 0

/-- The issue commits (R228, R358). -/
def State.commitIssue (pre s : State) (h : Header) (ws : List SlotWord) : State :=
  let k := s.core
  let phys (r : Nat) := pre.core.physV r
  let frees := regMask ((ws.flatMap fun w => lastUses (slotCls w.1) w.2.1).map phys)
  let wrote := regMask ((k.issue.dests.filter fun d => d.2.1 = .v).map fun d => phys d.2.2)
  let s := k.issue.posts.foldl State.applyPost s
  let s := if k.issue.endRegion then s.endRegion else s
  let s := s.onCore fun k => k.advance (decide (k.rpt = h.rpt.toNat)) ws frees wrote
  s.settleBars.afterIssue k.issue.after

/-- What the operations of an issue that faults or stalls name and meet beyond what they have shown: an operation ends at the first condition
that it meets, or where it waits (R235, R358). `start` is the state before the operations. -/
def State.completeAll (s start : State) (ops : List SlotOp) : State :=
  ops.foldl (init := s) fun s o =>
    if s.core.issue.faults.any (·.slot == o.slot) || s.core.issue.stall.any (·.1 == o.slot) then s.complete start o.slot o.explicit o.op (start.slotPred o) else s

/-- The fault conditions of an issue whose operations have run: none where it may commit. `bad` are those of its encoding. -/
def State.issueFaults (s start : State) (ops : List SlotOp) (bad : List SlotFault) : List SlotFault :=
  let fs := bad ++ s.core.issue.faults ++ s.core.endFaults
  if s.core.issue.faults = [] ∧ s.core.issue.stall = none then fs
  else
    let s := s.completeAll start ops
    bad ++ s.core.issue.faults ++ s.core.endFaults

/-- The end of an issue: `bad` are the faults of its encoding, `start` is the state before its operations; `stop` is the stop that a
safe point before it calls for, which gives way to a fault of the issue (R372). -/
def State.endIssue (pre s start : State) (h : Header) (ws : List SlotWord) (ops : List SlotOp) (bad : List SlotFault)
    (stop : Option State) : State :=
  match s.core.issue.stall, bad with
  | some (slot, w), [] => stop.getD (pre.stallIssue s slot w (s.issueFaults start ops []))
  | _, _ =>
    let fs := s.issueFaults start ops bad
    match chooseFault fs with
    | some fi => pre.faultIssue s fs fi
    | none => stop.getD (pre.commitIssue s h ws)

/-! ### One issue -/

/-- The executor of an operation. -/
abbrev Exec := Instr → State → Host.Outcome State Fault Refusal

/-- The slots of an issue one after the other. -/
def runSlots (run : Exec) : List SlotOp → State → Host.Outcome State Fault Refusal
  | [], s => .next s
  | o :: os, s =>
    match run o.op (s.onIssue fun i => { i with slot := o.slot, explicit := o.explicit }) with
    | .next s' => runSlots run os s'
    | .fault f => .fault f
    | .refused r => .refused r

/-- Before the first issue of a bundle with RGN or SAFE the held stores leave; RGN then records a checkpoint (R127, R370). -/
def State.enterBundle (s : State) (h : Header) : State :=
  if s.core.rpt ≠ 0 ∨ !(h.safe || h.rgn) then s
  else
    let s := s.letOut
    if h.rgn then
      s.onCore fun k => { k with restart := true, ckpt := some ⟨k.pc, k.lc, k.sgate, k.rwin, k.slots, k.streams, k.fmts.map fun e => { e with at_ := e.at_ - k.issueNo }⟩ }
    else s

/-- The state before the operations of an issue: what is due has landed, and the slots are armed (R226, R229). -/
def State.startIssue (pre : State) (h : Header) (ws : List SlotWord) : State :=
  let next := pre.core.pc + BitVec.ofNat 52 (bundleLen h.pm)
  pre.onCore fun k =>
    { ((k.landChunks k.fetchCycle).land k.issueNo).arm ws with
        issue := { Issue.none with nextPc := next, rng := k.rng, y := k.y, given := k.issue.given, woken := k.issue.woken } }

/-- The conditions `own` that a unit's event finds in a fetched bundle, with every other that its issue meets (R358). -/
def State.metWith (s : State) (h : Header) (bundle : Nat) (own : List SlotFault) : List SlotFault :=
  let ws := decodeSlots h.pm bundle
  let start := s.startIssue h ws
  let met := (start.core.slotOps ws).foldl (init := start.onIssue fun i => { i with faults := own }) fun u o =>
    if start.slotPred o = 0 then u else u.complete start o.slot o.explicit o.op (start.slotPred o)
  decodeFaults h ws ++ met.core.issue.faults ++ met.core.endFaults

/-- The fault that a unit's event raises in the bundle at which the executing task stands, a watched store or poisoned data: its conditions `own`
are ranked with the others of the issue (R358). -/
def State.eventFault (s : State) (own : List SlotFault) (fi : FaultInfo) : State :=
  let fs := match fetchBundle s with
    | .error _ => own
    | .ok ((h, b), s1) => s1.metWith h b own
  s.takeFault (faultMask fs) s.core.rpt s.core.pc.toNat ((chooseFault fs).getD fi)

/-- The issue of a fetched bundle; `stop` is the stop that a safe point before it calls for (R372). -/
def State.issueWith (s : State) (run : Exec) (h : Header) (bundle : Nat) (stop : Option State) : Host.Outcome State Fault Refusal :=
  let pre := s.enterBundle h
  let ws := decodeSlots h.pm bundle
  let bad := decodeFaults h ws
  let start := pre.startIssue h ws
  let ops := start.core.slotOps ws
  match runSlots run ops start with
  | .next s' => .next (pre.endIssue s' start h ws ops bad stop)
  | .fault f => .fault f
  | .refused r => .refused r

/-- The rollback of R370: everything in flight lands, held stores and release commands are discarded, the checkpoint comes back,
and the task stops. -/
def State.rollBack (s : State) : State :=
  match s.core.ckpt with
  | none => s
  | some c =>
    let s := s.flushPushed.releasePins.onCore fun k =>
      { k.drainAll with
          held := [], pc := c.pc, lc := c.lc, sgate := c.sgate, rwin := c.rwin, slots := c.slots,
          fmts := c.fmts.map fun e => { e with at_ := e.at_ + k.issueNo },
          streams := { k with streams := c.streams }.restStreams.streams, rpt := 0, lfree := 0, lwrote := 0, fetched := none }
    let s := { s with cmds := s.cmds.filter fun c => !(decide (c.core = s.cur) && c.held) }
    s.stopTask 2 0 none false none

/-- Has the bundle at which the executing core stands an operation in progress outside the device, at the host or at a peer, that must not be
repeated? A read is asked for anew. -/
def State.outside (s : State) : Bool :=
  s.hostReqs.any (fun q => q.core == s.cur && !isReadKey q.key) || s.peerReqs.any (fun q => q.agent == s.cur && q.key == 64) ||
    s.core.issue.given.any fun g => !isReadKey g.1

/-- Does the task on the executing core stand at a safe point: before the first issue of a bundle with SAFE (R221)? -/
def State.atSafe (s : State) (h : Header) : Bool := h.safe && s.core.rpt == 0 && !s.outside

/-- The stop of a task at a safe point with the live-mask entry LMI: the entry is read as a load of the task, which may have to wait; where there
is none, where the read does not give it, or where it is not well-formed, the image is full and no fault is raised (R374). -/
def State.stopSafe (s : State) (lmi : Nat) : State :=
  let base := s.mcbF s.core.mcid 563 512
  let full (s : State) := s.stopTask 0 lmi none false none
  if base = 0 then full s
  else match loadBytes ((base + 64 * lmi) % 2 ^ 52) 64 s with
    | .ok (bs, s1) => s1.stopTask 0 lmi none false none (if liveOk (ofBytes bs) then some (ofBytes bs) else none)
    | .error (.stall w, ps) => ps.foldl State.applyPost (s.onCore fun k => { k with wait := some w, wslot := 6, met := [] })
    | .error (_, ps) => full ((ps.filter fun p => !p.ofStall).foldl State.applyPost s)

/-- The wait of the executing core ends in its fault: of the issue that waits, with the other conditions that it has met; of the fetch of the
bundle, with no slot (R358). -/
def State.takeWait (s : State) (fi : FaultInfo) : State :=
  let k := s.core
  let fs := ⟨k.wslot, fi⟩ :: k.met
  if k.wslot < 6 then s.takeFault (faultMask fs) k.rpt k.pc.toNat ((chooseFault fs).getD fi) else s.takeFault 0 k.rpt k.pc.toNat fi

/-- Where a task that is asked to stop stops now (R362, R369, R377), if it does: at a safe point; at the bundle that it waits at; for a fault of
its group at any bundle boundary. A stop at a wait has the code WAIT, whatever but a halt has asked for it (R362, R369). `h` is the bundle's
header. -/
def State.stopPoint (s : State) (h : Header) : Option State :=
  let k := s.core
  match k.preq with
  | none => none
  | some why =>
    let code := if why = .halt then 4 else 3
    if why ≠ .fault ∧ s.atSafe h then some (if why = .halt then s.stopTask 4 h.lmi.toNat none false none else s.stopSafe h.lmi.toNat)
    else match k.wait with
    | some (.kv _ _ _ fi) => some (s.takeWait fi)
    | some (.steep _ fi) => some (s.takeWait fi)
    | some (.waita _) => some (s.stopTask code 0 none false none)
    | some .bar => some (s.stopTask code 0 none false none)
    | some (.sigwait _) => some (s.stopTask code 0 none false none)
    | some .motion => some (s.stopTask code 0 none false none)
    | _ =>
      if why = .fault ∧ k.rpt = 0 ∧ !s.outside ∧ k.issue.woken.isNone then some (s.stopTask 1 0 none false none) else none

/-- The header of the bundle whose live-mask entry a stop of the executing core waits for, if one does (R374): the bundle itself is there. -/
def State.stopHeader (s : State) : Option Header :=
  if s.core.wslot < 6 ∨ s.core.late ≠ [] ∨ s.core.preq.isNone ∨ s.core.preq = some .fault then none
  else match fetchBundle s with
    | .ok ((h, _), s1) => if s1.atSafe h then some h else none
    | .error _ => none

/-- Engine writes that were held while the task was stopped are made to its scratchpad, and their bytes count (R362, R155). -/
def landLates : M Unit := do
  let ws := (← get).core.late
  let _ ← ws.mapM fun w => do
    let _ ← (spChunks w.off w.bytes.length).mapM fun ch => needGranule (64 * ch)
    M.change fun s => State.landLate s.cur s w
  M.change (·.onCore fun k => { k with late := [] })

/-- One issue of the executing core. Engine writes held while the task was stopped come first (R362); a fault kept for the first bundle after
resumption is raised next (R45, R50). -/
def State.issue (s : State) (run : Exec) : Host.Outcome State Fault Refusal :=
  match if s.core.late = [] then .ok ((), s) else landLates s with
  | .error (.hole pa, _) => .fault (.noFrame pa)
  | .error (.fault fi, ps) => .next (((ps.filter fun p => !p.ofStall).foldl State.applyPost s).takeFault 0 s.core.rpt s.core.pc.toNat fi)
  | .error (.stall w, ps) => .next (ps.foldl State.applyPost (s.onCore fun k => { k with wait := some w, wslot := 6, met := [] }))
  | .ok (_, s) =>
  let k := s.core
  match k.due with
  | some fi => .next ((s.onCore fun k => { k with due := none }).takeFault 0 k.rpt k.pc.toNat fi)
  | none =>
    match fetchBundle s with
    | .error (.hole pa, _) => .fault (.noFrame pa)
    | .error (.fault fi, ps) => .next (((ps.filter fun p => !p.ofStall).foldl State.applyPost s).takeFault 0 k.rpt k.pc.toNat fi)
    | .error (.stall w, ps) =>
      match s.stopPoint ⟨0, 0, false, false, 0⟩ with
      | some t => .next t
      | none => .next (ps.foldl State.applyPost (s.onCore fun k => { k with wait := some w, wslot := 6, met := [] }))
    | .ok ((h, b), s1) =>
      match s1.stopPoint h with
      | some t => if s1.core.preq ≠ some .fault ∧ s1.atSafe h then s1.issueWith run h b (some t) else .next t
      | none => s1.issueWith run h b none

end Sys2Proof.Machine
end

