-- ==== Sys2Proof/Machine/Steep.lean ====
section
/-! DEFINITION. Agents that are no tasks: their memory accesses. Grist segments: GMAP (R32 to R34), the Steep engine (R35 to R41),
NVMe (R37, R107). -/

namespace Sys2Proof.Machine

/-! ### Accesses of an engine -/

/-- Carry out an agent's work: where it ends early nothing of it stands but what the units were asked. (DESIGN CHOICE, log entry 82) -/
def runAgent (m : M Unit) (s : State) : Host.Outcome State Fault Refusal :=
  match m s with
  | .ok (_, s') => .next s'
  | .error (.hole pa, _) => .fault (.noFrame pa)
  | .error (_, ps) => .next (ps.foldl State.applyPost s)

/-- Try a computation: a fault condition that it meets is answered, and nothing of it stands but what the units were asked. -/
def M.attempt {α : Type} (m : M α) : M (Except FaultInfo α) := fun s =>
  match m s with
  | .ok (a, s') => .ok (.ok a, s')
  | .error (.fault fi, ps) => .ok (.error fi, ps.foldl State.applyPost s)
  | .error e => .error e

/-- The agent's deliveries have been used. -/
def State.dropGiven (s : State) (agent : Nat) : State := { s with given := s.given.filter (·.agent ≠ agent) }

/-- An engine reads a run of bytes in an ASID, in page order. -/
def engRead (agent die asid va n : Nat) : M (List Byte) := do
  let bs ← (pieces 4096 (n / 4096 + 2) va n).mapM fun (a, m) => do
    let x ← srcOf agent asid a m (xlateEng agent die asid (a % 2 ^ 52) .read)
    x.read agent asid a m (fun pa t => do
      needClean pa m
      let s ← get
      pure (s.rdBytes t pa m)) id
  pure bs.flatten

/-- A write by an engine to a place: `kind`, `who` and `wmc` name the writer (R366); `rels` are the releases that it is; `ordered` tells that it
is a completion word (R141). -/
def State.engStore (s : State) (kind who wmc : Nat) (l : Loc) (bs : List Byte) (rels : List Rel := []) (ordered : Bool := false) : State :=
  match l with
  | .dev pa t => s.payWrite kind who wmc rels t pa bs
  | .host fn _ _ xaddr => s.postHost fn xaddr bs false (ordered || anySys rels)

/-- An engine of the package, as writer kind 5 (R366), writes a run of bytes in an ASID: every page is translated first. `rels` are the releases
that the write is. -/
def engWrite (agent die asid va : Nat) (bs : List Byte) (rels : List Rel := []) : M Unit := do
  let ls ← (pieces 4096 (bs.length / 4096 + 2) va bs.length).mapM fun (a, m) => do
    pure (← xlateEng agent die asid (a % 2 ^ 52) .write, m)
  let _ ← ls.foldlM (init := bs) fun bs (l, m) => do
    M.change (·.engStore 5 0 0 l (bs.take m) rels (rels != []))
    pure (bs.drop m)
  pure ()

/-- A translation for an engine for which every outcome but 0x0 is a failure, an absent host page among them: no page request is sent, and a later
access asks anew (R396, R419). A host page that the DTC misses is asked for and waited for. -/
def xlateOnce (who die asid va : Nat) (acc : Access) : M (Option Loc) := do
  let s ← get
  match s.xlate who die asid va acc with
  | (.hit l, s') =>
    set s'
    pure (some l)
  | (.ats fn pasid p, _) => M.stop (.stall (.ats fn pasid p)) [.ats ⟨die, fn, pasid, p, who⟩]
  | (.motion, _) => M.stop (.stall .motion)
  | (.out c _, _) =>
    M.change fun s => (s.outPosts who die asid va c).foldl State.applyPost s
    pure none
  | (.pri fn pasid p, _) =>
    M.change (·.priDone fn pasid p who)
    pure none
  | _ => pure none

/-- The places of a run that such an engine writes, each with its length; none where a translation fails. -/
def xlateRun (who die asid va n : Nat) : M (Option (List (Loc × Nat))) := do
  let ls ← (pieces 4096 (n / 4096 + 2) va n).mapM fun (a, m) => do
    pure ((← xlateOnce who die asid (a % 2 ^ 52) .write).map (·, m))
  pure (if ls.any (·.isNone) then none else some (ls.filterMap id))

/-- A run of bytes written by an engine to its places. -/
def writePlaces (rels : List Rel) : List (Loc × Nat) → List Byte → M Unit
  | [], _ => pure ()
  | (l, n) :: ls, bs => do
    if bs = [] then pure ()
    else
      M.change (·.engStore 5 0 0 l (bs.take n) rels (rels != []))
      writePlaces rels ls (bs.drop n)

/-- A place further on. -/
def Loc.plus (l : Loc) (o : Nat) : Loc :=
  match l with
  | .dev pa t => .dev (pa + o) t
  | .host fn pasid a x => .host fn pasid (a + o) (x + o)

/-- The places of a run from an offset on. -/
def dropPlaces : Nat → List (Loc × Nat) → List (Loc × Nat)
  | _, [] => []
  | o, (l, n) :: ls => if n ≤ o then dropPlaces (o - n) ls else (l.plus o, n - o) :: ls

/-! ### Removing translations (R25, R52, R277) -/

/-- Remove cached translations. -/
def State.dropTlb (s : State) (p : TlbEntry → Bool) : State := { s with tlb := s.tlb.filter fun e => !p e }

/-- Invalidate the instruction buffers of the tasks of some ASIDs, for some pages (R96). -/
def State.dropIbufs (s : State) (p : Nat → Nat → Bool) : State :=
  { s with cores := s.cores.map fun e => (e.1, { e.2 with ibuf := e.2.ibuf.filter fun b => !p e.2.asid b.1 }) }

/-- Which translations go: those of an ASID for 64 KiB pages from one on, of a function and PASID for 4 KiB host pages from one on. -/
structure Gone where
  asid : Nat → Bool
  pages : Nat → Nat → Bool
  host : Nat → Nat → Nat → Nat → Bool

/-- Does an entry of a DTC translate a page of a function and PASID? -/
def DtcEntry.has (e : DtcEntry) (fn pasid page : Nat) : Bool :=
  e.fn == fn && e.pasid == pasid && decide (e.page ≤ page) && decide (page < e.page + e.pages)

/-- May an access to a host page have used a translation that goes: one of the range, or an entry of more pages that goes with it (R51)? -/
def State.hostGone (s : State) (host : Nat → Nat → Nat → Nat → Bool) (fn pasid page : Nat) : Bool :=
  host fn pasid page 1 || s.dtc.any fun e => host e.fn e.pasid e.page e.pages && e.has fn pasid page

/-- The entries of the DTCs go, and with them what a translation of their pages has found: the accesses translate again (R51). -/
def State.dropHost (s : State) (host : Nat → Nat → Nat → Nat → Bool) : State :=
  { s with dtc := s.dtc.filter fun e => !host e.fn e.pasid e.page e.pages,
           atsBad := s.atsBad.filter fun r => !host r.fn r.pasid r.page 1,
           pri := (s.pri.filter fun r => !(r.st == .absent && host r.fn r.pasid r.page 1)).map fun r =>
             if r.st = .again ∧ host r.fn r.pasid r.page 1 then { r with st := .succeeded } else r }

/-- Every store of a core that has been translated is performed: those held, and those pending (R25). (DEDUCED, log entry 52) -/
def State.settleStores (s : State) (n : Nat) : State :=
  s.at_ n fun s => (s.endRegion.drainNt.flushPushed).onCore fun k =>
    { k with streams := k.streams.map fun e => (e.1, { e.2 with pushed := [] }) }

/-- The translated stores of a core that have not been performed. -/
def Core.unsent (k : Core) : List Held := k.held ++ k.ntq ++ k.streams.flatMap fun e => e.2.pushed.flatten

/-- The stores of every core that has one of some kind waiting are performed. -/
def State.settleWhere (s : State) (p : Held → Bool) : State :=
  ((s.cores.filter fun e => e.2.unsent.any p).map (·.1)).foldl State.settleStores s

/-- May a store have used a translation that goes? -/
def State.usedGone (s : State) (x : Gone) (h : Held) : Bool := x.asid h.asid || h.host.any fun p => s.hostGone x.host p.fn p.pasid p.page

/-- Cached translations and non-leaf entries, those of the device translation caches, and the instruction buffers go; the stores that may have
used one are performed first, whatever the ASID that their task is in by now (R25, R51, R52, R96). (DEDUCED, log entry 52) -/
def State.dropGone (s : State) (x : Gone) : State :=
  let s := s.settleWhere (s.usedGone x)
  let leaf (e : TlbEntry) : Bool := x.asid e.asid && (if e.level = 3 then x.pages e.page 1 else x.pages (e.page / 4096 * 4096) 4096)
  let node (e : WalkEntry) : Bool := x.asid e.asid && (if e.level = 1 then x.pages (2 ^ 24 * e.index) (2 ^ 24) else x.pages (4096 * e.index) 4096)
  let s := (s.dropTlb leaf).dropIbufs fun _ key => x.asid (key / 2 ^ 36) && x.pages (key % 2 ^ 36) 1
  { s with walks := s.walks.filter fun e => !node e }.dropHost x.host

/-- Do two runs meet? -/
def runsMeet (a n b m : Nat) : Bool := decide (a < b + m) && decide (b < a + n)

/-! ### GMAP (R32 to R34) -/

/-- The level-3 table of a VA, or none: no root, an absent entry on the path, a 256 MiB leaf, an entry that names no table. -/
def State.leafTable (s : State) (asid va : Nat) : Option Nat :=
  match s.asidRoot asid with
  | none => none
  | some root =>
    let part := s.asidPart asid
    let e1 := s.rd (root + 8 * bits va 51 40) 8
    let t2 := bits e1 47 15 * 2 ^ 15
    if bit e1 0 = false ∨ bit e1 7 ∨ !s.frameValid part t2 then none
    else
      let e2 := s.rd (t2 + 8 * bits va 39 28) 8
      let t3 := bits e2 47 15 * 2 ^ 15
      if bit e2 0 = false ∨ bit e2 7 ∨ !s.frameValid part t3 then none else some t3

/-- Checks 1 and 2 of R32: the table, or the status. (DEDUCED, log entry 46) -/
def State.gmapTable (s : State) (asid va : Nat) : Except Nat Nat :=
  if va % 2 ^ 21 ≠ 0 ∨ inHost va then .error 0x01
  else match s.leafTable asid va with
    | none => .error 0x05
    | some t => .ok t

/-- The places of the 32 leaves of a segment at a VA. -/
def segLeaves (table va : Nat) : List Nat := (List.range 32).map fun i => table + 8 * (bits va 27 16 + i)

/-- The hash index: the frame of a hash (R29). -/
def State.hashFrame (s : State) (h : BitVec 256) : Option Nat := (s.grist.find? fun e => e.1 = h).map (·.2)

/-- Has one of the 32 leaves V = 1 (R32)? -/
def State.leafBusy (s : State) (table va : Nat) : Bool := (segLeaves table va).any fun a => bit (s.rd a 8) 0

/-- Map a frame's segment: 32 leaves, REFCNT and PGRANT (R32 step 5). -/
def State.mapSegment (s : State) (part table va frame : Nat) : State :=
  let s := ((segLeaves table va).mapIdx fun i a => (i, a)).foldl (fun s (i, a) => s.wr a (frame + 65536 * i + 9) 8) s
  let e := s.rd (s.gristPa frame) 64
  let e := setBits e 295 264 (bits e 295 264 + 32)
  s.wr (s.gristPa frame) (setBits e (296 + part) (296 + part) 1) 64

/-- GMAP map (R32): the status. (DEDUCED, log entry 46) -/
def State.gmapMap (s : State) (asid va : Nat) (hash : BitVec 256) : Nat × State :=
  match s.gmapTable asid va with
  | .error c => (c, s)
  | .ok t =>
    match s.hashFrame hash with
    | none => (0x04, s)
    | some f =>
      if s.gristF f 257 256 = 3 then (0x04, s)
      else if s.leafBusy t va then (0x02, s)
      else (0x00, s.mapSegment (s.asidPart asid) t va f)

/-- `n` leaves of a frame are gone; a frame without leaves returns to FREE (R32, R33). -/
def State.unrefFrame (s : State) (frame n : Nat) : State :=
  let e := s.rd (s.gristPa frame) 64
  let c := bits e 295 264 - n
  if c ≠ 0 then s.wr (s.gristPa frame) (setBits e 295 264 c) 64
  else
    let e := setBits (setBits (setBits (setBits e 295 264 0) 257 256 0) 312 296 0) 330 320 0
    { s.wr (s.gristPa frame) e 64 with
        grist := s.grist.filter (·.2 ≠ frame), gristKeys := s.gristKeys.filter (·.2.1 ≠ frame) }

/-- GMAP unmap (R32): the status. The translations of the leaves go as `TLBINV` removes them. -/
def State.gmapUnmap (s : State) (asid va : Nat) (hash : BitVec 256) : Nat × State :=
  match s.gmapTable asid va with
  | .error c => (c, s)
  | .ok t =>
    let ls := (segLeaves t va).map fun a => s.rd a 8
    let f := gristFrame (ls.head?.getD 0)
    let named := s.isGrist f && (ls.mapIdx fun i e => bit e 0 && bit e 3 && bits e 47 16 * 65536 == f + 65536 * i).all id
    if !named || s.gristHash f != hash then (0x04, s)
    else
      let s := (segLeaves t va).foldl (fun s a => s.wr a 0 8) s
      let gone : Gone := ⟨(· == asid), fun p m => runsMeet p m (va / 65536) 32, fun _ _ _ _ => false⟩
      (0x00, (s.dropGone gone).unrefFrame f 32)

/-! ### The Steep engine (R35 to R41) -/

/-- A list starts when a non-zero base is stored into an MCB (R36). -/
def State.startSteep (s : State) (m : Nat) : State :=
  let base := s.mcbF m 755 704
  if base = 0 then s else { s with steeps := s.steeps ++ [⟨m, s.mcAsid m, base, 0, 0, 0, 0, [], [], []⟩] }

/-- The frames of the root grist pool (R29, R280 KIND 9). -/
def State.gristPool (s : State) : List Nat :=
  if s.csrF 0x065 0 0 = 0 then []
  else (s.grants.filter fun g => g.part = 16 ∧ g.kind = 9).flatMap fun g => (List.range g.count).map fun i => g.base + 2 ^ 21 * i

/-- A free frame; which one the spec leaves open. -/
def State.freeFrame (s : State) (h : BitVec 256) : Option Nat :=
  let fs := s.gristPool.filter fun f => s.gristF f 257 256 = 0
  fs[(Config.free 32 s.tick .word h.toNat 3).toNat % fs.length]?

/-- A frame is entered for a hash, STEEPING (R36 step 3). -/
def State.enterHash (s : State) (frame : Nat) (h : BitVec 256) : State :=
  { s.wr (s.gristPa frame) (h.toNat + 2 ^ 256) 64 with grist := s.grist ++ [(h, frame)] }

/-- The list of an MC that is in progress replaced; none where it has ended. -/
def State.setSteep (s : State) (old : Steep) (new : Option Steep) : State :=
  match s.steeps.findIdx? (· = old) with
  | none => s
  | some i => { s with steeps := s.steeps.take i ++ new.toList ++ s.steeps.drop (i + 1) }

/-- The agent number of the steep lists of an MC. -/
def steepAgent (m : Nat) : Nat := 2 ^ 65 + m

/-- Write to a list as the engine, with release ordering at `.PKG` (R39, R40); a translation that fails leaves the write out. Answers what
the engine has written of the list now. -/
def steepStore (t : Steep) (va : Nat) (bs : List Byte) : M (List Nat) := do
  let s ← get
  let _ ← M.attempt (engWrite (steepAgent t.mcid) (t.mcid / 4096) t.asid va bs [⟨.engine, 3, s.alive t.view⟩])
  pure (addIds (s.alive t.view) ((← get).madeSince s))

/-- An entry has ended: STATUS, then the counts; after the last entry DONE = COUNT (R39, R40). (DESIGN CHOICE, log entry 34) -/
def endEntry (old t : Steep) (ent status : Nat) : M Unit := do
  let v ← steepStore t ((t.base + 64 + 64 * ent + 56) % 2 ^ 52) (toBytes 8 status)
  let t := { t with done := t.done + 1, fails := t.fails + (if bit status 63 then 1 else 0), view := v }
  let v ← steepStore t ((t.base + 2) % 2 ^ 52) (toBytes 2 t.done ++ toBytes 2 t.fails)
  M.change fun s => (s.setSteep old (if t.done < t.count then some { t with view := v } else none)).dropGiven (steepAgent t.mcid)

/-- The fetches that are in flight read their sources: one from a peer by a read request of its global VA (R37), sent once. -/
def State.sendFetches (s : State) (m : Nat) : State :=
  match s.steeps.find? fun t => t.mcid = m with
  | none => s
  | some t => (t.fetching.take 16).foldl (init := s) fun s f =>
    let e := f.desc.toNat
    if bits e 257 256 = 1 then s.applyPost (.peer (steepAgent m) (bits e 303 296) f.ent (toBytes 8 (bits e 383 320) ++ toBytes 8 (2 ^ 21))) else s

/-- Is an entry malformed (R39)? -/
def entryBad (e : Nat) : Bool :=
  bits e 263 258 != 0 || bits e 319 304 != 0 || bits e 447 436 != 0 || decide (2 ≤ bits e 257 256) ||
    bits e 404 384 != 0 || inHost (bits e 435 384)

/-- One entry of a list (R36): its checks, the lookup, and the fetch. (DESIGN CHOICE, log entry 34) -/
def steepStep (t : Steep) (ent e : Nat) : M Unit := do
  let s ← get
  let va := bits e 435 384
  let h := BitVec.ofNat 256 (bits e 255 0)
  let part := s.asidPart t.asid
  let t' := { t with next := t.next + 1 }
  if entryBad e then endEntry t t' ent 0x8000000000000005
  else match s.leafTable t.asid va with
    | none => endEntry t t' ent 0x8000000000000003
    | some tb =>
      if s.leafBusy tb va then endEntry t t' ent 0x8000000000000006
      else match s.hashFrame h with
        | some f =>
          set (s.mapSegment part tb va f)
          if s.gristF f 257 256 = 2 then endEntry t t' ent 0x2
          else M.change (·.setSteep t (some { t' with shared := t'.shared ++ [⟨ent, f, 0⟩] }))
        | none =>
          match s.freeFrame h with
          | none => endEntry t t' ent 0x8000000000000004
          | some f =>
            let s := (s.enterHash f h).mapSegment part tb va f
            set ((s.setSteep t (some { t' with fetching := t'.fetching ++ [⟨ent, f, BitVec.ofNat 512 e⟩] })).sendFetches t.mcid)

/-- The list of an MC goes no further than the entries that it has processed: it ends when their fetches have (R37). -/
def Steep.cut (t : Steep) : Option Steep := if t.done < t.next then some { t with count := t.next } else none

/-- `STEEP_ENTRY` (R36): the engine's next work on the list of an MC: a STATUS that another fetch has settled; the header; the next
entry. A list whose header cannot be read, or has COUNT = 0 (R35 gives 1 to 65,535), ends without a DONE; one whose entry cannot be read ends
with the entries before it. A second list stored for an MC waits until the first has ended. (DESIGN CHOICE, log entry 34) -/
def execSteepEntry (m : Nat) : State → Host.Outcome State Fault Refusal :=
  runAgent do
    let s ← get
    match s.steeps.find? fun t => t.mcid = m with
    | none => pure ()
    | some t =>
      match t.shared.find? fun e => e.result ≠ 0 with
      | some e => endEntry t { t with shared := t.shared.filter (· ≠ e) } e.ent e.result
      | none =>
        if t.count = 0 then
          match ← M.attempt (engRead (steepAgent m) (m / 4096) t.asid t.base 64) with
          | .error _ => M.change (·.setSteep t none)
          | .ok h =>
            let n := bits (ofBytes h) 15 0
            M.change fun s => (s.setSteep t (if n = 0 then none else some { t with count := n })).dropGiven (steepAgent m)
        else if t.next < t.count then
          match ← M.attempt (engRead (steepAgent m) (m / 4096) t.asid ((t.base + 64 + 64 * t.next) % 2 ^ 52) 64) with
          | .error _ => M.change (·.setSteep t t.cut)
          | .ok e => steepStep t t.next (ofBytes e)
        else pure ()

/-- The 2 MiB that a fetch has read, or none where the source read fails (R37, R107). -/
def State.fetched (s : State) (t : Steep) (e : Nat) (readFails : Bool) (peer : List Byte) : Option (List Byte) :=
  let ns := bits e 295 264
  if readFails then none
  else if bits e 257 256 = 0 then
    (if s.holds (s.asidPart t.asid) 7 ns then some (s.nvme.readBytes (nvmeAt ns (bits e 383 320)) (2 ^ 21)) else none)
  else if s.fabV && !s.linksDown.contains (.peer (bits e 303 296)) && peer.length == 2 ^ 21 then some peer else none

/-- A segment has arrived, or has failed: STATE, the hash index, ARRIVE; entries of other lists learn of it (R37, R38). -/
def State.arriveSegment (s : State) (frame : Nat) (st arrive own other : Nat) : State :=
  let e := s.rd (s.gristPa frame) 64
  let s := s.wr (s.gristPa frame) (setBits (setBits e 257 256 st) 447 384 arrive) 64
  { s with
      grist := if st = 3 then s.grist.filter (·.2 ≠ frame) else s.grist,
      steeps := s.steeps.map fun t =>
        { t with shared := t.shared.map fun x => if x.frame = frame then { x with result := if own = 1 then other else own } else x } }

/-- `STEEP_FETCH_COMPLETE` (R37): a fetch in flight ends; the data is checked, and installed under its segment's key. A frame that an unmap has
returned to FREE meanwhile is written all the same, and checked against the HASH that its entry then has: the rule does not say what becomes
of such a fetch. (DESIGN CHOICE, log entry 88) -/
def execSteepFetchComplete (m ent : Nat) (readFails : Bool) (peer : List (BitVec 8)) : State → Host.Outcome State Fault Refusal :=
  runAgent do
    let s ← get
    match s.steeps.find? fun t => t.mcid = m ∧ (t.fetching.take 16).any (·.ent == ent) with
    | none => pure ()
    | some t =>
      match (t.fetching.take 16).find? (·.ent == ent) with
      | none => pure ()
      | some f =>
        let h := s.gristHash f.frame
        let done (s : State) (st arrive own : Nat) : M Unit := do
          set (s.arriveSegment f.frame st arrive own 0x2)
          let s ← get
          match s.steeps.find? fun t => t.mcid = m ∧ (t.fetching.take 16).any (·.ent == ent) with
          | none => pure ()
          | some t => do
            endEntry t { t with fetching := t.fetching.filter (· ≠ f) } ent own
            M.change fun s => { s with peerReqs := s.peerReqs.filter fun q => !(q.agent == steepAgent m && q.key == ent) }.sendFetches m
        match s.fetched t f.desc.toNat readFails peer with
        | none => done s 3 0x8000000000000001 0x8000000000000002
        | some d =>
          let s := (s.agentWrite 5 0 0 (.seg h 0) f.frame d).count m 0 5 (if bits f.desc.toNat 257 256 = 0 then 2 ^ 21 else 0)
          if sha256 d = h then done s 2 1 1 else done s 3 0x8000000000000001 0x8000000000000001

end Sys2Proof.Machine
end

