-- ==== Sys2Proof/Machine/Engine.lean ====
section
/-! DEFINITION. Engine commands: their issue (R316, R338), their completion words and reports (R317, R340, R420), their accesses to
memory, scratchpads and peers (R341), barrier counting (R155). -/

namespace Sys2Proof.Machine

/-! ### Completion fields (R317, R67) -/

/-- The completion fields of a descriptor. -/
structure Compl where
  acq : Bool
  rel : Bool
  scope : Nat
  cwsp : Bool
  cwa : Nat
  cval : Dword
  bad : Bool
  deriving DecidableEq, Repr

/-- The completion fields of a descriptor of an opcode: those of R317, or of a racking command (R67). -/
def complOf (op d : Nat) : Compl :=
  if op = 0x45 then
    ⟨bit d 12, bit d 13, bits d 16 14, false, bits d 179 128, BitVec.ofNat 64 (bits d 255 192),
      decide (5 ≤ bits d 16 14) || bits d 191 180 != 0 || bits d 130 128 != 0⟩
  else
    ⟨bit d 384, bit d 385, bits d 388 386, bit d 389, bits d 443 392, BitVec.ofNat 64 (bits d 511 448),
      decide (5 ≤ bits d 388 386) || bits d 391 390 != 0 || bits d 447 444 != 0 || bits d 394 392 != 0 ||
        (bit d 389 && bits d 443 413 != 0)⟩

/-- What a command ends with: its status in its family's table, the walk's outcome and level, the word of a failure. -/
structure CmdRes where
  status : Nat
  outcome : Nat
  level : Nat
  word : Nat
  deriving DecidableEq, Repr

/-- A command that succeeds. -/
def CmdRes.good : CmdRes := ⟨0, 0, 0, 0⟩
/-- The word of a failure (R68, R340). -/
def failWord (done status outcome : Nat) : Nat := done + 2 ^ 32 * status + 2 ^ 40 * outcome + 2 ^ 63
/-- A command that fails, with `done` in its word. -/
def CmdRes.fail (status done : Nat) : CmdRes := ⟨status, 0, 0, failWord done status 0⟩
/-- What a family gives for a lost link, by its code for WALK: LINK (R340, R76), and IO for `MIGR` (R113). (DEDUCED, log entry 67) -/
def linkCode (walk : Nat) : Nat := if walk = 0x02 then 0x05 else if walk = 0x0B then 0x0A else 0x07

/-- A command that a walk outcome ends, under the code that its family gives WALK; a lost link has its own. (DEDUCED, log entry 49) -/
def CmdRes.walk (status done : Nat) (fi : FaultInfo) : CmdRes :=
  if fi.cause = 0x21 then .fail (linkCode status) done else ⟨status, fi.outcome, fi.level, failWord done status fi.outcome⟩

/-- MALFORMED of a family (R76, R113, R340). -/
def malformedOf (op : Nat) : Nat := if 0x40 ≤ op ∧ op ≤ 0x5F then 0x06 else if op = 0x60 then 0x08 else 0x01

/-! ### Issue -/

/-- The agent number of a command (`Given`). -/
def Cmd.agent (c : Cmd) : Nat := 256 + c.id
/-- The die of a command: that of its issuing core. -/
def Cmd.die (c : Cmd) : Nat := c.core / 64
/-- Is a command of the KV family, `KVRACK` apart (R316)? -/
def Cmd.isKv (c : Cmd) : Bool := decide (0x40 ≤ c.op) && decide (c.op ≤ 0x5F) && c.op != 0x45
/-- Is a command of chapter 13 (R338)? -/
def Cmd.isCopy (c : Cmd) : Bool := !(decide (0x40 ≤ c.op) && decide (c.op ≤ 0x5F))

/-- The commands of the executing task that are outstanding. -/
def State.mine (s : State) (p : Cmd → Bool) : Nat :=
  (s.cmds.filter fun c => c.mcid = s.core.mcid ∧ c.rank = s.core.rank ∧ !c.orphan ∧ p c).length

/-- Commands that no rollback repeats (R342). -/
def neverRepeated (op d : Nat) : Bool :=
  [0x61, 0x62, 0x60, 0x10, 0x11, 0x12].contains op || (decide (0x40 ≤ op ∧ op ≤ 0x47) && op != 0x47) ||
    ([0x08, 0x09, 0x0A].contains op && (bit d 163 || bits d 167 164 != 0))

/-- A new command of the executing task with its descriptor at `off`. -/
def State.newCmd (s : State) (op d off : Nat) : Cmd :=
  let k := s.core
  let lvl := bits d 162 160
  ⟨s.nextId, s.cur, k.mcid, k.rank, k.asid, k.pl.toNat, k.part, op, BitVec.ofNat 512 d, off, s.snapshot, k.spBad,
    (s.barOf k.mcid lvl k.rank).phaseOf (64 * k.mcid + k.rank), 0, 0, 0, s.frame + bits d 191 176, k.kvwait.toNat, false, none,
    k.grp, k.steepwait, if s.member lvl then some (s.domainOf k.mcid lvl k.rank) else none, false, false, [],
    s.issueView (complOf op d).acq, s.before, s.issueRels (complOf op d).acq, k.view.cxl, k.held.length⟩

/-- The flags of a command at its issue (R127, R128, R342): ACQ makes the held stores leave and acts as a fence of kind acquire;
a command with REL may be held in the region store buffer; one that no rollback repeats ends the region. -/
def issueFlags (op d : Nat) : M Bool := do
  let f := complOf op d
  if f.acq then M.change fun s => s.endRegion.acquireFence f.scope
  if neverRepeated op d then M.change (·.onIssue fun i => { i with endRegion := true })
  let k := (← get).core
  pure (f.rel && k.restart && (k.held != [] || (Config.free 1 (← get).tick .hold op k.rank) == 1))

/-- Hand a command to its engine. (DEDUCED, log entry 14) -/
def sendCmd (op d off : Nat) : M Cmd := do
  let held ← issueFlags op d
  let s ← get
  let c := { s.newCmd op d off with held := held }
  set { s with nextId := s.nextId + 1, cmds := s.cmds ++ [c] }
  pure c

/-- The issue of a command that its engine carries out later: the descriptor, room among the commands outstanding (R316, R338), the
command. -/
def engineOp (op : Nat) (c : Ctl) (o : CK) (s : State) : Host.Outcome State Fault Refusal :=
  slotOp c (do
    let d ← readDesc
    let s ← get
    M.need (if 0x40 ≤ op ∧ op ≤ 0x5F then s.mine Cmd.isKv < 16 else s.mine Cmd.isCopy < 32) (.stall .other)
    let _ ← sendCmd op d (s.cursor 0)
    pure ()) (s.ckCursor o)

/-! ### Accesses to memory -/

/-- A translation for a command (R341): a steeping segment makes it wait as long as STEEPWAIT of its task allows (R148). (DEDUCED, log entry 49) -/
def Cmd.xlate (c : Cmd) (asid va : Nat) (acc : Access) : M Loc := do
  let s ← get
  match s.xlate c.agent c.die asid va acc with
  | (.steep f, _) =>
    if c.expired ∨ c.steepwait = 0 then M.stop (.fault (walkFault 0x7 3 va acc)) [.ahead f]
    else M.stop (.stall (.steep f (walkFault 0x7 3 va acc))) [.ahead f]
  | _ => do
    let l ← xlateEng c.agent c.die asid va acc
    needReach c.die l
    pure l

/-- What the accesses of a command do not go behind: as its engine has it now (R128). -/
def State.viewOf (s : State) (c : Cmd) : List Nat := (s.cmds.find? (·.id = c.id)).elim c.view (·.view)

/-- A command has read or made some writes. -/
def State.cmdSaw (s : State) (c : Cmd) (ids : List Nat) : State :=
  if ids = [] then s else { s with cmds := s.cmds.map fun d => if d.id = c.id then { d with view := addIds d.view ids } else d }

/-- A command as an agent (R120). -/
def Cmd.who (c : Cmd) : Agent := .cmd c.core c.mcid c.grp c.id

/-- The line of a run that is poisoned, if one is, travels with what was read (R416). -/
def Cmd.readDev (c : Cmd) (pa : Nat) (t : LineTag) (n : Nat) : M (List Byte × Option Nat) := do
  M.change fun s => if tierOf pa = 3 ∧ c.cxl then
    let (ids, s) := s.refreshLine (pa / 64)
    s.cmdSaw c ids else s
  let s ← get
  let r := s.readRun (s.viewOf c) (2 ^ 8 + c.id) t pa n
  M.change (·.cmdSaw c r.got.ids)
  pure (r.bytes, s.poisoned pa n)

/-- A command reads at most 64 bytes in an ASID; answers the bytes and a poisoned line among them. -/
def Cmd.read (c : Cmd) (asid va n : Nat) : M (List Byte × Option Nat) := do
  let ps ← (pieces 4096 2 va n).mapM fun (a, m) => do
    let x ← srcOf c.agent asid a m (c.xlate asid (a % 2 ^ 52) .read)
    x.read c.agent asid a m (fun pa t => c.readDev pa t m) fun bs => (bs, none)
  pure ((ps.map (·.1)).flatten, ps.findSome? (·.2))

/-- Poisoned data poisons each line it is written to (R416). -/
def State.poisonLines (s : State) (pa n : Nat) : State :=
  (List.range ((pa % 64 + n + 63) / 64)).foldl (fun s i => s.poisonLine (pa / 64 + i)) s

/-- The writer kind of a command (R366): the copy engine, or another. -/
def Cmd.writer (c : Cmd) : Nat := if 0x08 ≤ c.op ∧ c.op ≤ 0x0A then 1 else 5

/-- A command's write to a place: payload, or with `rels` and `ordered` its completion word (R129, R141). It comes after the release fences of
its task that R128 puts before it (R123). -/
def State.cmdStore (s : State) (c : Cmd) (l : Loc) (bs : List Byte) (bad : Option Nat) (rels : List Rel := []) (ordered : Bool := false) : State :=
  match l with
  | .dev pa _ =>
    let s1 := s.engStore c.writer c.core c.mcid l bs (rels ++ c.rels)
    let s1 := s1.cmdSaw c (s1.madeSince s)
    if bad.isSome then s1.poisonLines pa bs.length else s1
  | .host fn _ _ xaddr => s.postHost fn xaddr bs bad.isSome (ordered || anySys c.rels)

/-- A command writes at most 64 bytes in an ASID. -/
def Cmd.write (c : Cmd) (asid va : Nat) (bs : List Byte) (bad : Option Nat) : M Unit := do
  let ls ← (pieces 4096 2 va bs.length).mapM fun (a, m) => do pure (← c.xlate asid (a % 2 ^ 52) .write, m)
  let _ ← ls.foldlM (init := bs) fun bs (l, m) => do
    M.change (·.cmdStore c l (bs.take m) bad)
    pure (bs.drop m)
  pure ()

/-! ### Accesses to scratchpads -/

/-- Carry out a computation at another core. -/
def M.atCore {α : Type} (n : Nat) (m : M α) : M α := do
  let c := (← get).cur
  M.change fun s => { s with cur := n }
  let a ← m
  M.change fun s => { s with cur := c }
  pure a

/-- `n` bytes of the executing core's scratchpad as a background access reads them: of a write in flight each 8-byte word is old or new
(R117). -/
def State.padNow (s : State) (off n : Nat) : List Byte := toBytes n (runBy (s.core.padChunk s.tick) off n)

/-- Background traffic takes no bank that a gather or scatter window holds (R300). -/
def needBanks (off n : Nat) : M Unit := do
  M.need (!(← get).core.windowHolds off n) (.stall .other)

/-- The granules of a run are there (R341, R42). -/
def Cmd.fill (c : Cmd) (off n : Nat) : M Unit := do
  let _ ← (spChunks off n).mapM fun ch => needGranuleBy c.agent (fun a va => c.xlate a va .read) (64 * ch)
  pure ()

/-- Poisoned data in a run of a scratchpad. -/
def Core.padBad (k : Core) (off n : Nat) : Option Nat := (spChunks off n).findSome? fun ch => k.spBad.find? ch

/-- The core at which a task's scratchpad can be read, or none where it is not on a core; a task that is stopped makes the command wait, and so do
writes that it is still to find (R341, R362). -/
def Cmd.padCore (mcid rank : Nat) : M (Option Nat) := do
  let s ← get
  let core := s.coreOf mcid rank
  M.need ((s.imageOf mcid rank).isNone && core.all fun n => (s.coreAt n).late == []) (.stall .other)
  pure core

/-- A command reads a run of its own scratchpad: in each 8-byte word what committed bundles had written at its issue (R128), or a later
write (R341); a mapped granule as it stands. While the task is off its core the read waits (R341); one whose task has ended finds what its issue
found. (DEDUCED, log entries 16, 48) -/
def Cmd.readOwn (c : Cmd) (off n : Nat) : M (List Byte × Option Nat) := do
  let was (i : Nat) := c.snap.byte ((off + i) % spSize)
  let bad := (spChunks off n).findSome? fun ch => c.snapBad.find? ch
  match ← if c.orphan then pure none else Cmd.padCore c.mcid c.rank with
  | none => pure ((List.range n).map was, bad)
  | some core => M.atCore core do
    needBanks off n
    c.fill off n
    let s ← get
    let now := toBytes n (runBy (fun ch => (s.core.settledPad.chunk ch).toNat) off n)
    let bs := (List.range n).map fun i =>
      let a := (off + i) % spSize
      let later := (Config.free 1 s.tick .word (a / 8) c.id) == 1 || (s.core.mapOf a).isSome
      if later then (now[i]?).getD 0 else was i
    pure (bs, s.core.padBad off n <|> bad)

/-- A command reads a run of a task's scratchpad, named by its rank. -/
def Cmd.readPad (c : Cmd) (rank off n : Nat) : M (List Byte × Option Nat) := do
  if rank = c.rank then c.readOwn off n
  else match ← Cmd.padCore c.mcid rank with
  | none => pure (List.replicate n 0, none)
  | some core => M.atCore core do
    needBanks off n
    c.fill off n
    let s ← get
    pure (s.padNow off n, s.core.padBad off n)

/-- The barrier, with the phase, that the payload bytes of a command count against: where BCNT asks for it and its issuer was a member at
the issue (R155). -/
def Cmd.barKey (c : Cmd) : Option (Nat × Nat × Nat × Nat) :=
  if bit c.desc.toNat 163 ∧ (!c.orphan ∨ c.bar.any (·.1 == 2 ^ 14)) then c.bar.map fun b => (b.1, bits c.desc.toNat 162 160, b.2, c.phase) else none

/-- NVMe bytes that a command has moved count for its group (R392). -/
def State.countNvme (s : State) (c : Cmd) (n : Nat) : State := if c.orphan then s else s.count c.mcid c.grp 5 n

/-- `n` payload bytes of a command have landed (R155); their writes happen before the completion of the phase (R136). -/
def State.countLanded (s : State) (c : Cmd) (n : Nat) : State :=
  match c.barKey with
  | none => s
  | some (mc, lvl, dom, phase) => s.landedBytes mc lvl dom phase n (s.viewOf c)

/-- A write into the scratchpad of a stopped task is held until its restore, and made before its first bundle (R362). (DEDUCED, log entry 48) -/
def State.holdLate (s : State) (mcid rank : Nat) (w : Late) : State :=
  { s with images := s.images.map fun (i : Image) => if i.mcid = mcid ∧ i.rank = rank then { i with late := i.late ++ [w] } else i }

/-- A command writes into a task's scratchpad; where the task is gone, nothing holds the bytes. `count` tells that they are payload, which
counts as it lands; `rel` is the release of a completion word. -/
def Cmd.writePad (c : Cmd) (rank off : Nat) (bs : List Byte) (bad : Option Nat) (count : Bool) (rel : Option Rel := none) : M Unit := do
  let s ← get
  let landed (s : State) : State := if count then s.countLanded c bs.length else s
  let w : Late := ⟨off, bs, bad, if count then c.barKey else none, s.viewOf c, rel⟩
  if c.orphan then M.change landed
  else match s.imageOf c.mcid rank with
    | some _ => M.change (·.holdLate c.mcid rank w)
    | none =>
      match s.coreOf c.mcid rank with
      | none => M.change landed
      | some core => do
        if (s.coreAt core).late ≠ [] then M.change fun s => s.setCoreAt core { s.coreAt core with late := (s.coreAt core).late ++ [w] }
        else
        M.atCore core do
          needBanks off bs.length
          c.fill off bs.length
          M.change fun s => (s.notePadRel off bs rel).padPut off bs bad
        M.change landed

/-! ### Peers (R139, R339) -/

/-- The address that stands for poisoned data of a peer. (DEDUCED, log entry 40) -/
def peerLine : Nat := 0

/-- A request of a command to a peer, by key: the peer's answer and whether it is poisoned, or the code with which it refuses; the link must
carry program traffic. -/
def Cmd.askPeer (c : Cmd) (fab key : Nat) (data : List Byte) : M (Except Nat (List Byte × Option Nat)) := do
  let s ← get
  match s.given.find? fun g => g.agent = c.agent ∧ g.key = key with
  | some g => pure (match g.data with
    | 1 :: bs => .ok (bs, none)
    | 3 :: bs => .ok (bs, some peerLine)
    | _ :: code :: _ => .error code.toNat
    | _ => .error 0)
  | none => M.stop (.stall .other) [.peer c.agent fab key data]

/-! ### The end of a command -/

/-- The record of R420. -/
def State.cmdRecord (s : State) (c : Cmd) (r : CmdRes) (word outcome level : Nat) : State :=
  let info := BitVec.ofNat 192 (word + 2 ^ 64 * c.off + 2 ^ 88 * c.op)
  s.recordAsync (s.queueOf c.mcid)
    (mkRecord ⟨0, c.pl, true, false, c.part, c.mcid, c.rank, recCore c.core, 0, 0, r.status⟩ ⟨0x08, outcome, level, info⟩ s.time)

/-- The word of a command that ends in a way (R317, R113): CVAL on success, but for `MIGR`. -/
def CmdRes.value (r : CmdRes) (c : Cmd) (f : Compl) : Nat := if r.status = 0 ∧ c.op ≠ 0x60 then f.cval.toNat else r.word

/-- The release that the completion-word write of a command is (R129): at `.SYS` for its own payload, or with REL at its scope for what its
task did before its issue too. -/
def State.wordRel (s : State) (c : Cmd) (f : Compl) : Rel := ⟨c.who, if f.rel then f.scope else 4, s.viewOf c ++ (if f.rel then c.before else [])⟩

/-- A completion word in a scratchpad, with the release that it is. -/
def Cmd.wordToPad (c : Cmd) (off v : Nat) (r : Rel) : M Unit := c.writePad c.rank off (toBytes 8 v) none false (some r)

/-- A command ends: it is no longer outstanding; its completion word is written, or reported (R114, R317, R420). For a racking command with
CWVA 0 R68 does not say that there is no word; the model writes none. (DESIGN CHOICE, log entry 89) -/
def Cmd.finish (c : Cmd) (r : CmdRes) : M Unit := do
  let f := complOf c.op c.desc.toNat
  let rel := (← get).wordRel c f
  M.change fun s => { s with cmds := s.cmds.filter (·.id ≠ c.id), racks := s.racks.filter (·.cmd ≠ some c.id) }.dropGiven c.agent
  let v := r.value c f
  if f.bad then M.change (·.cmdRecord c r v 0 0)
  else if f.cwa = 0 ∧ !f.cwsp then
    (if r.status ≠ 0 then M.change (·.cmdRecord c r v 0 0) else pure ())
  else if f.cwsp then (if c.orphan then pure () else c.wordToPad f.cwa v rel)
  else match ← M.attempt (c.xlate c.asid f.cwa .write) with
    | .ok l => M.change (·.cmdStore c l (toBytes 8 v) none [rel] true)
    | .error fi => M.change (·.cmdRecord c r v fi.outcome fi.level)
  M.change (·.forgetAsks (· == c.agent))

/-- A command replaced; what its engine has read and written since stands. -/
def State.setCmd (s : State) (c : Cmd) : State := { s with cmds := s.cmds.map fun d => if d.id = c.id then { c with view := d.view } else d }

/-- Carry out the work of an outstanding command; a wait is noted. `last` tells that the limit of its wait has run out. -/
def workCmd (work : Cmd → M Unit) (id : Nat) (last : Bool) (s : State) : Host.Outcome State Fault Refusal :=
  match s.cmds.find? (·.id = id) with
  | none => .next s
  | some c0 =>
    if c0.held then .next s
    else
      match work { c0 with expired := last, kvwait := if last then 0 else c0.kvwait } s with
      | .ok (_, s') => .next s'
      | .error (.hole pa, _) => .fault (.noFrame pa)
      | .error (.stall w, ps) => .next (((w.postsAnew c0.wait ps).foldl State.applyPost s).setCmd { c0 with wait := some w })
      | .error (_, ps) => .next (ps.foldl State.applyPost s)

/-- Carry out an outstanding command as far as its engine does at this turn: to its end, to a wait, or to where it will go on. -/
def runCmd (body : Cmd → M (Option CmdRes)) : Nat → Bool → State → Host.Outcome State Fault Refusal :=
  workCmd fun c => do
    match ← if (complOf c.op c.desc.toNat).bad then pure (some (CmdRes.fail (malformedOf c.op) 0)) else body c with
    | some r => c.finish r
    | none => pure ()

/-- The line that has poisoned some part of `m` bytes from an offset on. -/
def Spots.at (ps : Spots) (off m : Nat) : Option Nat := (ps.find? fun p => decide (p.1 < off + m) && decide (off < p.1 + p.2.1)).map (·.2.2)

/-- Where the unit of a run that holds its byte `b` ends: units lie between multiples of `g` of the run's address `a`. -/
def cutAt (a n g b : Nat) : Nat := min n (b + g - (a + b) % g)

/-- Do the units of a run from byte `p` up to `q` one after another until one fails: `cut p` is where the unit at `p` ends. -/
def runUnits (cut : Nat → Nat) (f : Nat → Nat → M (Option CmdRes)) (q : Nat) : Nat → Nat → M (Option CmdRes)
  | 0, _ => pure none
  | fuel + 1, p => do
    if q ≤ p then pure none
    else
      let e := min q (cut p)
      match ← f p (e - p) with
      | some r => pure (some r)
      | none => runUnits cut f q fuel e

/-- Do units one after another until one fails; answers how many are done, and the failure. -/
def unitsGo (f : Nat → M (Option CmdRes)) (i : Nat) : Nat → M (Option CmdRes)
  | 0 => pure none
  | n + 1 => do
    match ← f i with
    | some r => pure (some r)
    | none => unitsGo f (i + 1) n

end Sys2Proof.Machine
end

