-- ==== Sys2Proof/Machine/Intake.lean ====
section
/-! DEFINITION. Work intake but for CRP: pushes (R169, R171), the notify window (R178), the ring fetcher (R177, R179, R419). -/

namespace Sys2Proof.Machine

/-- The MCID that a packet names (R164). -/
def packetMc (pk : BitVec 512) : Nat := bits pk.toNat 157 144

/-- A packet with its source written by the device (R164). -/
def withSrc (pk : BitVec 512) (src : Nat) : BitVec 512 := BitVec.ofNat 512 (setBits pk.toNat 161 160 src)

/-- `PUSH` (R169): a push reaches its shard from a source of a partition, which reaches the MCs of that partition (R171). -/
def execPush (src part : Nat) (pkt : BitVec 512) (s : State) : Host.Outcome State Fault Refusal :=
  let m := packetMc pkt
  .next (s.push m (s.mcPart m == part) (withSrc pkt src)).2

/-! ### Host queue rings -/

/-- What a step of the ring fetcher comes to (R179). -/
inductive RingOut where
  | empty
  | badMark
  | pushed (status : Nat)
  /-- A ring read, or else a STATUS write, whose translation failed (R419): only a failed read ends the fetching. -/
  | failed (read : Bool) (fi : FaultInfo)
  deriving DecidableEq, Repr

/-- The agent number of an MC's ring (`Given`). -/
def ringAgent (m : Nat) : Nat := 2 ^ 64 + m

/-- The entry at RINGHEAD is consumed (R179 step 5): what the host has delivered of it has been used. -/
def State.bumpRing (s : State) (m : Nat) : State :=
  let head := s.mcbF m 351 320
  let va := s.mcbF m 307 256 + 128 * (head % s.mcbF m 415 384)
  let used (g : Given) : Bool := g.agent == ringAgent m && decide ((g.key + 2 ^ 48 - va % 2 ^ 48) % 2 ^ 48 < 128)
  { s.setMcbF m 351 320 (head + 1) with given := s.given.filter fun g => !used g }

/-- The MCs that a host function reaches through its notify window: those of its partition (R178). -/
def State.fnReaches (s : State) (fn m : Nat) : Bool := if fn = 0 then s.mcPart m == 16 else s.holds (s.mcPart m) 10 fn

/-- The host writes that a push from the ring of an MC releases: those of the functions that reach it, as far as they are in order (R137, R142). -/
def State.ringView (s : State) (m : Nat) : List Nat :=
  s.alive (((List.range 17).filter fun fn => s.fnReaches fn m).flatMap fun fn => FMap.get [] s.posted fn)

/-- One step of R179 for an MC: the mark, the packet, the push, STATUS, RINGHEAD. (DEDUCED, log entry 44) -/
def ringStep (m : Nat) : M RingOut := do
  let s ← get
  let size := s.mcbF m 415 384
  let head := s.mcbF m 351 320
  let die := m / 4096
  if size = 0 ∨ head = s.mcbF m 383 352 then pure .empty
  else
    let va := (s.mcbF m 307 256 + 128 * (head % size)) % 2 ^ 52
    let asid := s.mcAsid m
    match ← M.attempt (engRead (ringAgent m) die asid ((va + 64) % 2 ^ 52) 8) with
    | .error fi => pure (.failed true fi)
    | .ok mark =>
      if ofBytes mark ≠ 2 ^ 63 + head then
        M.change (·.dropGiven (ringAgent m))
        pure .badMark
      else match ← M.attempt (engRead (ringAgent m) die asid va 64) with
        | .error fi => pure (.failed true fi)
        | .ok bs =>
          let pk := withSrc (BitVec.ofNat 512 (setBits (ofBytes bs) 157 144 m)) 2
          let (st, s) := (← get).push m true pk (s.ringView m)
          set s
          if st = 2 ∨ st = 3 then
            M.change (·.dropGiven (ringAgent m))
            pure (.pushed st)
          else
            let bad ← if st ≤ 1 then pure none
              else match ← M.attempt (engWrite (ringAgent m) die asid ((va + 72) % 2 ^ 52) (toBytes 8 (2 ^ 63 + st))) with
                | .ok _ => pure none
                | .error fi => pure (some fi)
            M.change (·.bumpRing m)
            match bad with
            | none => pure (.pushed st)
            | some fi => pure (.failed false fi)

/-- The RINGFAIL record of R419. -/
def State.ringRecord (s : State) (m : Nat) (fi : FaultInfo) : State :=
  s.recordAsync (s.queueOf m) (mkRecord ⟨0, 0, true, false, s.mcPart m, m, 0, recCore (64 * (m / 4096)), 0, 0, 0⟩ { fi with cause := 0x09 } s.time)

/-- Does the fetcher leave a ring alone until the next frame: its entry has met FULL or QUOTA in this one (R179 step 3)? -/
def State.ringHeld (s : State) (m : Nat) : Bool := s.ringHold.find? m == some s.frame

/-- `RING_FETCH` (R179, R419): the fetcher of a die takes one step for an MC whose ring-pending bit is set. (DEDUCED, log entry 44) Where RINGHEAD =
RINGTAIL the bit is cleared, which R179 says of a bad mark only. (DESIGN CHOICE, log entry 100) -/
def execRingFetch (die m : Nat) (s : State) : Host.Outcome State Fault Refusal :=
  if m / 4096 = die ∧ FMap.get false s.ringPend m ∧ !s.ringHeld m then
    runAgent (do
      match ← ringStep m with
      | .empty => M.change fun s => { s with ringPend := s.ringPend.erase m }
      | .badMark => M.change fun s => { s with ringPend := s.ringPend.erase m }
      | .pushed st => M.change fun s => if st = 2 ∨ st = 3 then { s with ringHold := s.ringHold.insert m s.frame } else s
      | .failed read fi => M.change fun s =>
          { (s.ringRecord m fi).dropGiven (ringAgent m) with ringPend := if read then s.ringPend.erase m else s.ringPend }) s
  else .next s

/-- `NOTIFY_WRITE` (R178): a host write to a notify word; one through a function that does not reach the MC is discarded.
(DEDUCED, log entry 43) -/
def execNotifyWrite (fn m : Nat) (v : BitVec 64) (s : State) : Host.Outcome State Fault Refusal :=
  .next (if m < 16384 ∧ s.mcState m ≠ 0 ∧ s.fnReaches fn m then
    { s.setMcbF m 383 352 (bits v.toNat 31 0) with ringPend := s.ringPend.insert m true } else s)

end Sys2Proof.Machine
end

