-- ==== Sys2Proof/Machine/Memory.lean ====
section
/-! DEFINITION. The memory and synchronisation operations of the S slot (R325 to R337). -/

namespace Sys2Proof.Machine

/-- An operation of case 2 of R127: the held stores leave first, and the region is no longer restartable, also while it waits. -/
def ordering {α : Type} (m : M α) : M α := M.leaving [.region] do
  M.change State.endRegion
  m

/-- The address of format SM (R327). -/
def State.smAddr (s : State) (o : SM) : Nat := ((s.getX o.xa.toNat).toNat + wrap 64 (sext o.off.toNat 29)) % 2 ^ 52

/-- ATS_FAIL with outcome 0x8 at a VA (R333, R334). -/
def atsFail (va : Nat) (write : Bool) : FaultInfo := ⟨0x14, 0x8, 0, vaInfo va write false⟩

/-! ### Loads -/

/-- The value of a load: sign- or zero-extended (R326). -/
def extend (n : Nat) (signed : Bool) (v : Nat) : Dword := if signed then BitVec.ofInt 64 (sext v (8 * n)) else BitVec.ofNat 64 v

/-- A load of `n` bytes (R326 to R329). -/
def loadOp (n : Nat) (signed : Bool) (c : Ctl) (o : SM) : State → Host.Outcome State Fault Refusal :=
  slotOp c do
    let va := (← get).smAddr o
    M.need (va % n == 0 || (o.ord == 0 && !meetsHost va n)) (.fault (misalign va false))
    if o.ord = 0 then
      let bs ← loadBytes va n
      M.change (·.putX o.xd.toNat (extend n signed (ofBytes bs)) 1)
    else
      let (bs, g) ← ordering (loadEvent va n)
      M.change fun s => (s.acquire o.scope.toNat g).putX o.xd.toNat (extend n signed (ofBytes bs)) 1

/-- `LDB` (R326). -/
def execLdb : Ctl → SM → State → Host.Outcome State Fault Refusal := loadOp 1 true
/-- `LDBU` (R326). -/
def execLdbu : Ctl → SM → State → Host.Outcome State Fault Refusal := loadOp 1 false
/-- `LDH` (R326). -/
def execLdh : Ctl → SM → State → Host.Outcome State Fault Refusal := loadOp 2 true
/-- `LDHU` (R326). -/
def execLdhu : Ctl → SM → State → Host.Outcome State Fault Refusal := loadOp 2 false
/-- `LDW` (R326). -/
def execLdw : Ctl → SM → State → Host.Outcome State Fault Refusal := loadOp 4 true
/-- `LDWU` (R326). -/
def execLdwu : Ctl → SM → State → Host.Outcome State Fault Refusal := loadOp 4 false
/-- `LDD` (R326). -/
def execLdd : Ctl → SM → State → Host.Outcome State Fault Refusal := loadOp 8 false

/-! ### Stores -/

/-- A store of the low `n` bytes of xd (R326 to R329); with REL the held stores leave before it, and it is a release at its scope; a
non-temporal store is none (R132). -/
def storeOp (n : Nat) (nt : Bool) (c : Ctl) (o : SM) : State → Host.Outcome State Fault Refusal :=
  slotOp c do
    let s ← get
    let va := s.smAddr o
    M.need (va % n == 0 || (o.ord == 0 && !meetsHost va n && !nt)) (.fault (misalign va true))
    let bs := toBytes n (s.getX o.xd.toNat).toNat
    if o.ord = 0 then storeBytes va bs nt none else ordering (storeBytes va bs nt (if nt then none else some o.scope.toNat))

/-- `STB` (R326). -/
def execStb : Ctl → SM → State → Host.Outcome State Fault Refusal := storeOp 1 false
/-- `STH` (R326). -/
def execSth : Ctl → SM → State → Host.Outcome State Fault Refusal := storeOp 2 false
/-- `STW` (R326). -/
def execStw : Ctl → SM → State → Host.Outcome State Fault Refusal := storeOp 4 false
/-- `STD` (R326). -/
def execStd : Ctl → SM → State → Host.Outcome State Fault Refusal := storeOp 8 false
/-- `STNT` (R330). -/
def execStnt : Ctl → SM → State → Host.Outcome State Fault Refusal := storeOp 8 true

/-! ### Fences -/

/-- `FENCE` (R331): KIND 1 acquire, 2 release, 3 full, at its scope. -/
def execFence (c : Ctl) (o : SY) : State → Host.Outcome State Fault Refusal :=
  slotOp c (ordering do
    M.change fun s => if o.kind = 1 then s.acquireFence o.lvl.toNat else if o.kind = 2 then s.releaseFence o.lvl.toNat else s.fullFence o.lvl.toNat)

/-- `DRAINNT` (R331, R133). -/
def execDrainnt (c : Ctl) (o : SY) : State → Host.Outcome State Fault Refusal :=
  slotOp c (ordering (M.change (·.drainFence o.lvl.toNat)))

/-! ### Atomics (R332, R333) -/

/-- The new value of an atomic operation at width `w` (R332). -/
def amoNew (aop w old b : Nat) : Nat :=
  match aop with
  | 0 => (old + b) % 2 ^ w
  | 1 => old &&& b
  | 2 => old ||| b
  | 3 => old ^^^ b
  | 4 => if sext b w < sext old w then b else old
  | 5 => if sext old w < sext b w then b else old
  | 6 => min old b
  | 7 => max old b
  | 8 => b
  | _ => (faddRne (BitVec.ofNat 32 old) (BitVec.ofNat 32 b)).toNat

/-- Bytes of an atomic. -/
def atomicBytes (o : SA) : Nat := if o.sz = 0 then 4 else 8

/-- The address of format SA, aligned (R327, R328). -/
def atomicAddr (o : SA) : M Nat := do
  let va := ((← get).getX o.xa.toNat).toNat % 2 ^ 52
  M.need (va % (atomicBytes o) == 0) (.fault (misalign va true))
  pure va

/-- The write of an atomic at its home (R97, R104, R378), with the releases that an acquire which reads it can meet: its own, and those of
the write that it follows (R123). -/
def State.atomicWrite (s : State) (t : LineTag) (pa v n : Nat) (rels : List Rel) : State :=
  let s1 := (((s.recorded t rels [cellsAt pa (toBytes n v)] (s.putBytes t pa (toBytes n v))).crosses s.die pa).l1Drop pa)
  let s1 := s1.wrote false (s1.madeSince s)
  s1.watchEvents none 0 s.cur s.core.mcid pa n

/-- An operand of an atomic at its width. -/
def State.atomicArg (s : State) (o : SA) (r : BitVec 6) : Nat := (s.getX r.toNat).toNat % 2 ^ (8 * (atomicBytes o))

/-- Is an atomic an acquire, and a release (R121)? -/
def acquires (o : SA) : Bool := o.ord == 1 || o.ord == 3
/-- See `acquires`. -/
def releases (o : SA) : Bool := o.ord == 2 || o.ord == 3

/-- The pooled device carries out device-side atomics where it offers them: on what every requester has written (R144). -/
def State.pooledAtomic (s : State) (pa : Nat) : State :=
  if tierOf pa = 3 ∧ Config.cxlAtomics then
    let (ids, s) := s.refreshLine (pa / 64)
    s.learn ids
  else s

/-- Read, modify and write at the home: answers the old value and what the read has returned, which the task takes note of where it is
observed (R119). `f` gives the new value, if there is to be a write. -/
def atomicDev (o : SA) (t : LineTag) (pa : Nat) (f : Nat → Option Nat) (observed : Bool := true) : M (Nat × Got) := do
  M.change State.drainNt
  needClean pa (atomicBytes o)
  M.change (·.pooledAtomic pa)
  let (bs, g) ← readHome t pa (atomicBytes o) observed
  let old := ofBytes bs
  match f old with
  | some v => M.change fun s => s.atomicWrite t pa v (atomicBytes o) (s.writeRels (if releases o then some o.scope.toNat else none) ++ g.rels)
  | none => M.change (·.l1Drop pa)
  pure (old, g)

/-- The acquire of an atomic marked `.ACQ` or `.AR` (R121). -/
def atomicAcquire (o : SA) (g : Got) (s : State) : State := if acquires o then s.acquire o.scope.toNat g else s

/-- May the S slot act outside the device now? Where another slot of the issue stalls it waits; where one faults, or would write `xd`
too, the issue is to fault (R358): then it may not. -/
def soleEffect (xd : Nat) : M Bool := do
  let k := (← get).core
  if k.issue.faults != [] || k.endFaults != [] || k.issue.dests.any (fun d => d.2 == (.x, xd)) then pure false
  else
    M.need k.issue.stall.isNone (.stall .other)
    pure true

/-- An atomic that returns its old value: at its home, or as the AtomicOp `kind` with its operands in the host window (R332, R333). -/
def atomicAt (o : SA) (va kind : Nat) (a b : Dword) (f : Nat → Option Nat) : M (Nat × Got) := do
  let s ← get
  match ← hostHas s.cur s.core.asid va (atomicBytes o) kind with
  | some bs => pure (ofBytes bs, ⟨[], []⟩)
  | none =>
    match ← xlateTask va .write with
    | .dev pa t => atomicDev o t pa f
    | .host fn pasid addr xaddr => do
      if ← soleEffect o.xd.toNat then hostAsk s.cur s.core.asid va fn pasid addr xaddr (atomicBytes o) kind a b
      else pure (0, ⟨[], []⟩)

/-- `AMO` (R332, R333). -/
def execAmo (c : Ctl) (o : SA) : State → Host.Outcome State Fault Refusal :=
  slotOp c (ordering do
    let va ← atomicAddr o
    let s ← get
    let b := s.atomicArg o o.xb
    let aop := o.aop.toNat
    M.need (!inHost va || aop == 0 || aop == 8) (.fault (atsFail va true))
    let (old, g) ← atomicAt o va (if aop = 0 then 0 else 1) (BitVec.ofNat 64 b) 0 fun old => some (amoNew aop (8 * (atomicBytes o)) old b)
    M.change fun s => (atomicAcquire o g s).putX o.xd.toNat (BitVec.ofNat 64 old) 1)

/-- `CAS` (R332, R333). -/
def execCas (c : Ctl) (o : SA) : State → Host.Outcome State Fault Refusal :=
  slotOp c (ordering do
    let va ← atomicAddr o
    let s ← get
    let b := s.atomicArg o o.xb
    let e := s.atomicArg o o.xc
    let (old, g) ← atomicAt o va 2 (BitVec.ofNat 64 e) (BitVec.ofNat 64 b) fun old => if old = e then some b else none
    M.change fun s => (atomicAcquire o g s).putX o.xd.toNat (BitVec.ofNat 64 old) 1)

/-- `RED` (R332, R333): nothing is returned. -/
def execRed (c : Ctl) (o : SA) : State → Host.Outcome State Fault Refusal :=
  slotOp c (ordering do
    let va ← atomicAddr o
    M.need (!inHost va) (.fault (atsFail va true))
    let b := (← get).atomicArg o o.xb
    match ← xlateTask va .write with
    | .dev pa t =>
      let _ ← atomicDev o t pa (fun old => some (amoNew o.aop.toNat (8 * (atomicBytes o)) old b)) false
      pure ()
    | .host _ _ _ _ => M.stop (.fault (atsFail va true)))

/-! ### WAITA (R334) -/

/-- The word that a `WAITA` watches, as it stands at its bank or its home, or as the write that has woken the task left it (R115), with what the
read has returned, and the watch. A completion word in the task's scratchpad is always synchronised with (R130): the release that wrote it is
answered apart. -/
def waitWord (o : SY) : M (Dword × Got × Option Rel × Sleep) := do
  let s ← get
  let sleep (pad : Bool) (place : Nat) (t : LineTag) : Sleep := ⟨pad, place, t, o.kind.toNat, s.getX o.xb.toNat⟩
  match s.core.issue.woken with
  | some k =>
    let z := k.watch
    let g := if z.pad then ⟨[], []⟩ else gotOf ((s.writesTo z.tag z.place 8).filter fun w => decide (w.id < k.upto)) z.place 8
    M.change (·.saw g)
    pure (k.value, g, k.rel, z)
  | none =>
  let a := (s.getX o.xa.toNat).toNat
  if o.sp = 1 then
    let off := a % 2 ^ 21
    M.need (off % 8 == 0) (.fault (misalign off false))
    needGranule off
    needSound (off / 64)
    let s ← get
    let w := s.spRun off 8
    pure (BitVec.ofNat 64 w, ⟨[], []⟩, s.wordRelAt off w, sleep true off .plain)
  else
    let va := a % 2 ^ 52
    M.need (va % 8 == 0) (.fault (misalign va false))
    M.need (!inHost va) (.fault (atsFail va false))
    match ← xlateTask va .read with
    | .dev pa t =>
      needClean pa 8
      let (bs, g) ← readHome t pa 8
      pure (BitVec.ofNat 64 (ofBytes bs), g, none, sleep false pa t)
    | .host _ _ _ _ => M.stop (.fault (atsFail va false))

/-- `WAITA` (R334, R115): the satisfying value goes to XD; the read is an acquire. -/
def execWaita (c : Ctl) (o : SY) : State → Host.Outcome State Fault Refusal :=
  slotOp c (ordering do
    let x := (← get).getX o.xb.toNat
    let (w, g, r, z) ← waitWord o
    M.need (waitCond o.kind.toNat w x) (.stall (.waita z))
    M.change fun s => ((s.acquire o.lvl.toNat g).learn (r.elim [] (·.view))).putX o.xd.toNat w 1)

/-- `WAITA_WAKE` (R115): a task that sleeps at a `WAITA` checks its word again. -/
def execWaitaWake (n : Nat) (s : State) : Host.Outcome State Fault Refusal :=
  let k := s.coreAt n
  .next (match k.wait with
    | some (.waita _) => s.setCoreAt n { k with wait := none }
    | _ => s)

/-! ### ENQ (R335, R160, R161) -/

/-- The packet in eight consecutive x registers. -/
def State.enqPacket (s : State) (xa : Nat) : BitVec 512 :=
  BitVec.ofNat 512 (digits 64 (fun i => (s.getX (xa + i)).toNat) 0 8)

/-- The status of a push at a peer, once it has answered; 0x10 where the link is lost. -/
def enqPeer (xd fab : Nat) (pk : BitVec 512) : M Nat := do
  let s ← get
  if !(← soleEffect xd) then pure 0x10
  else if !s.fabV || s.linksDown.contains (.peer fab) then pure 0x10
  else match s.given.find? fun g => g.agent = s.cur ∧ g.key = 64 with
    | some g =>
      M.change (·.dropGiven s.cur)
      pure (match g.data with
        | 1 :: st :: _ => st.toNat
        | _ => 0x10)
    | none => M.stop (.stall .other) [.peer s.cur fab 64 (toBytes 64 (withSrc pk 3).toNat)]

/-- `ENQ` (R335): an accepted push is a release at `.PKG` (R137). -/
def execEnq (c : Ctl) (o : SY) : State → Host.Outcome State Fault Refusal :=
  slotOp c (ordering do
    let s ← get
    let xb := (s.getX o.xb.toNat).toNat
    M.need (decide (xb < 512)) (.fault illegalSlot)
    let pk := s.enqPacket o.xa.toNat
    let st ← if xb / 256 = 1 then enqPeer o.xd.toNat (xb % 256) pk
      else do
        let m := packetMc pk
        let (st, s') := s.push m (s.mcPart m == s.core.part) (withSrc pk 0) s.before
        set s'
        pure st
    M.change fun s => (s.putX o.xd.toNat (BitVec.ofNat 64 st) 1).putP o.pd.toNat (if st ≤ 1 then BitVec.allOnes 128 else 0) 1)

/-! ### EXIT and EXIT.S (R336, R158, R159) -/

/-- A write-back that fails at `EXIT`: recorded; the job ends FAULTED (R45). -/
def State.exitFault (s : State) (fi : FaultInfo) : State :=
  let k := s.core
  (s.recordPrecise (s.queueOf k.mcid) (s.taskRecord s.cur 1 k.rpt false k.pc.toNat fi)).onJob k.mcid fun j => { j with bad := true }

/-- Write back one granule of the executing core for good; a translation that has to wait makes the task wait. -/
def finalWriteBack (mi g : Nat) : M Unit := do
  let s ← get
  match s.core.maps[mi]? with
  | none => pure ()
  | some m =>
    let va := (m.gva + 256 * g) % 2 ^ 52
    let bs := { s.core with sp := s.snapshot }.marked (m.off + 256 * g) (m.granule g)
    match ← M.attempt (xlateAs m.asid va .write) with
    | .error fi => M.change (·.exitFault fi)
    | .ok l => M.change fun s => if s.wbWatched l bs then s.exitFault ⟨0x30, 0, 0, vaInfo va true false⟩ else s.wbTo l m.asid bs (s.core.badLines (m.off + 256 * g))

/-- What `EXIT` and `EXIT.S` do before the task retires or is succeeded (R158): `DRAINNT`, write-back and unmap of every region map,
every stream unbound. -/
def leaveUnits : M Unit := do
  M.change (·.drainFence 3)
  let _ ← (← get).core.dirty.mapM fun (mi, g) => finalWriteBack mi g
  M.change fun s => s.flushPushed.releasePins.onCore fun k => { k with maps := [], streams := [] }

/-- `EXIT` (R336, R158). -/
def execExit (c : Ctl) (_ : SY) : State → Host.Outcome State Fault Refusal :=
  slotOp c (ordering do
    leaveUnits
    M.change (·.onIssue fun i => { i with after := .exit }))

/-- `EXIT.S` (R336, R159). -/
def execExitS (c : Ctl) (o : SY) : State → Host.Outcome State Fault Refusal :=
  slotOp c (ordering do
    let s ← get
    let e := s.getX o.xa.toNat
    let args := (List.range 7).map fun i => s.getX (i + 1)
    leaveUnits
    M.change (·.onIssue fun i => { i with after := .exitS e args (s.core.pc.toNat / 65536) }))

/-! ### Barriers (R337) -/

/-- `BAR.ARR` (R337, R155). -/
def execBarArr (c : Ctl) (o : SY) : State → Host.Outcome State Fault Refusal :=
  slotOp c (ordering do
    let x := (← get).getX o.xa.toNat
    let lvl := o.lvl.toNat
    M.change fun s => if s.member lvl then s.arrive s.core.mcid lvl s.core.rank x s.before else s)

/-- The arrival that `BAR.WAIT` and `BAR.TRY` imply, with the check of R156. Answers whether the phase is complete. -/
def arriveImplied (lvl : Nat) : M Bool := do
  let s ← get
  let k := s.core
  let first := !(s.barOf k.mcid lvl k.rank).hasArrived (64 * k.mcid + k.rank)
  if first then set (s.arrive k.mcid lvl k.rank 0 s.before)
  let s ← get
  let ps := if first then [Post.arrive k.mcid lvl k.rank] else []
  if s.barUnder k.mcid lvl k.rank then M.stop (.fault barUnder) (ps ++ [.under k.mcid lvl k.rank])
  else pure (s.barDone k.mcid lvl k.rank)

/-- A task completes its phase, as an acquire at the scope of the level (R136, R155). -/
def State.completeBar (s : State) (lvl : Nat) : State :=
  let b := s.barOf s.core.mcid lvl s.core.rank
  (((s.dropL1 lvl).learn b.view).freshCxl lvl).passBar s.core.mcid lvl s.core.rank

/-- `BAR.WAIT` (R337, R155). -/
def execBarWait (c : Ctl) (o : SY) : State → Host.Outcome State Fault Refusal :=
  slotOp c (ordering do
    let lvl := o.lvl.toNat
    let s ← get
    let k := s.core
    if s.member lvl then
      let first := !(s.barOf k.mcid lvl k.rank).hasArrived (64 * k.mcid + k.rank)
      if ← arriveImplied lvl then M.change (·.completeBar lvl)
      else M.stop (.stall .bar) (if first then [.arrive k.mcid lvl k.rank] else [])
    else pure ())

/-- `BAR.TRY` (R337, R155). -/
def execBarTry (c : Ctl) (o : SY) : State → Host.Outcome State Fault Refusal :=
  slotOp c (ordering do
    let lvl := o.lvl.toNat
    let s ← get
    let done ← if s.member lvl then arriveImplied lvl else pure true
    M.change fun s =>
      let s := if done && s.member lvl then s.completeBar lvl else s
      s.putP o.pd.toNat (if done then BitVec.allOnes 128 else 0) 1)

/-- `BARRIER_PHASE_COMPLETE` (R155): a barrier's phase is complete once every member has arrived and P = 0. -/
def execBarrierPhaseComplete (m lvl dom : Nat) (s : State) : Host.Outcome State Fault Refusal :=
  .next { s with bars := s.bars.map fun b => if b.mcid = m ∧ b.lvl = lvl ∧ b.dom = dom then s.settleBar b else b }

end Sys2Proof.Machine
end

