-- ==== Sys2Proof/Machine/Moves.lean ====
section
/-! DEFINITION. Copies (R339, R347 to R350) and scratchpad region maps (R352). -/

namespace Sys2Proof.Machine

/-! ### Endpoints (R339) -/

/-- A data endpoint. -/
structure Endpoint where
  kind : Nat
  addr : Nat
  rank : Nat
  peer : Nat
  bad : Bool
  deriving DecidableEq, Repr

/-- An endpoint of `n` bytes as its 64 bits give it. -/
def endpoint (e n : Nat) : Endpoint :=
  let kind := bits e 63 61
  let addr := bits e 51 0
  ⟨kind, addr, bits e 57 52, bits e 59 52,
    bit e 60 || decide (5 ≤ kind) || (kind != 2 && kind != 3 && bits e 59 52 != 0) || (kind == 2 && bits e 59 58 != 0) ||
      ((kind == 1 || kind == 2) && (decide (spSize ≤ addr) || decide (spSize < addr + n))) || (kind == 4 && addr != 0)⟩

/-- Why a command cannot use an endpoint, apart from translations: TARGET; LINK, also while FABID has V = 0; PEER (R339, R340, R414).
(DEDUCED, log entry 59) -/
def Cmd.endpointStatus (c : Cmd) (s : State) (e : Endpoint) : Option Nat :=
  if e.kind = 2 then
    match s.job c.mcid with
    | none => some 0x03
    | some j => if c.orphan ∨ j.tasks ≤ e.rank ∨ j.gone e.rank then some 0x03 else none
  else if e.kind = 3 then
    (if !s.peerUp e.peer then some 0x05 else if !s.holds c.part 8 e.peer then some 0x04 else none)
  else none

/-- An endpoint moved by an offset. -/
def Endpoint.plus (e : Endpoint) (off : Int) : Endpoint :=
  let m : Int := if e.kind = 1 ∨ e.kind = 2 then 2 ^ 21 else 2 ^ 52
  { e with addr := (((e.addr : Int) + off) % m).toNat }

/-- A request to a peer: a read (0), a write (1) or a reduction (2 and its operator), the VA, the length, the issuer's partition, and what
is to be written, with its poison bit (R416). -/
def peerBytes (op va len part : Nat) (data : List Byte) (ep : Bool) : List Byte :=
  toBytes 1 op ++ toBytes 8 va ++ toBytes 4 len ++ toBytes 1 part ++ toBytes 1 ep.toNat ++ data

/-- Read `n` bytes, at most 64, at an offset of a source that is no peer. -/
def Cmd.source (c : Cmd) (e : Endpoint) (off n : Nat) : M (List Byte × Option Nat) :=
  match e.kind with
  | 0 => c.read c.asid ((e.addr + off) % 2 ^ 52) n
  | 1 => c.readOwn (e.addr + off) n
  | _ => c.readPad e.rank (e.addr + off) n

/-- Write `n` bytes, at most 64, at an offset of a destination in the package; they count as they land (R155). -/
def Cmd.dest (c : Cmd) (e : Endpoint) (off : Nat) (bs : List Byte) (bad : Option Nat) : M Unit :=
  match e.kind with
  | 0 => do
    c.write c.asid ((e.addr + off) % 2 ^ 52) bs bad
    M.change (·.countLanded c bs.length)
  | 1 => c.writePad c.rank (e.addr + off) bs bad true
  | _ => c.writePad e.rank (e.addr + off) bs bad true

/-- Every byte of a peer source, or the status. -/
def Cmd.peerRead (c : Cmd) (e : Endpoint) (n key : Nat) : M (Except Nat (List Byte × Option Nat)) := do
  match c.endpointStatus (← get) e with
  | some st => pure (.error st)
  | none =>
    match ← c.askPeer e.peer key (peerBytes 0 e.addr n c.part [] false) with
    | .ok r => pure (if r.1.length = n then .ok r else .error 0x04)
    | .error _ => pure (.error 0x04)

/-! ### Reductions (R349) -/

/-- Bytes of an element of a reduction. -/
def ropBytes (rop : Nat) : Nat := if rop = 6 ∨ rop = 7 then 8 else 4

/-- The new value of a reduced element. -/
def ropNew (rop old x : Nat) : Nat :=
  match rop with
  | 1 => (old + x) % 2 ^ 32
  | 2 => (faddRne (BitVec.ofNat 32 old) (BitVec.ofNat 32 x)).toNat
  | 3 => (fmaxBits (BitVec.ofNat 32 old) (BitVec.ofNat 32 x)).toNat
  | 4 => if sext x 32 < sext old 32 then x else old
  | 5 => if sext old 32 < sext x 32 then x else old
  | 6 => old ||| x
  | _ => (old + x) % 2 ^ 64

/-- Bytes whose value is open where a predicate holds (R9). (DEDUCED, log entry 16) -/
def openBytes (tick who at_ : Nat) (p : Nat → Bool) (bs : List Byte) : List Byte :=
  bs.mapIdx fun i b => if p i then Config.free 8 tick .word (at_ + i) who else b

/-- Reduce one element into global memory at its home; `open_` tells which of its bytes are undefined. -/
def Cmd.reduce (c : Cmd) (rop va : Nat) (x : List Byte) (bad : Option Nat) (open_ : Nat → Bool) : M Unit := do
  match ← c.xlate c.asid va .write with
  | .dev pa t =>
    let s ← get
    let n := ropBytes rop
    let poison := bad.orElse fun _ => s.poisoned pa n
    -- the reduction is an atomic at its home: an acquire that reads it can meet the releases before it (R123)
    let new := openBytes s.tick c.id va open_ (toBytes n (ropNew rop (s.rdLE t pa n) (ofBytes x)))
    set (s.cmdStore c (.dev pa t) new poison (s.gotHome t pa n).rels)
  | .host _ _ _ _ => pure ()

/-- Write or reduce a unit of at most 64 bytes; `open_` tells by their offsets which bytes of the destination are undefined. -/
def Cmd.putUnit (c : Cmd) (rop : Nat) (e : Endpoint) (off : Nat) (bs : List Byte) (bad : Option Nat) (open_ : Nat → Bool) : M Unit := do
  if rop = 0 then c.dest e off (openBytes (← get).tick c.id (e.addr + off) (fun j => open_ (off + j)) bs) bad
  else
    let n := ropBytes rop
    let _ ← (List.range (bs.length / n)).mapM fun i =>
      c.reduce rop ((e.addr + off + n * i) % 2 ^ 52) ((bs.drop (n * i)).take n) bad fun j => open_ (off + n * i + j)
    M.change (·.countLanded c bs.length)

/-! ### Copies -/

/-- The units of a run of `n` bytes at an address: offsets and lengths, cut at multiples of 64, so that no aligned 8-byte word lies in two of
them (R117). -/
def units (a n : Nat) : List (Nat × Nat) := (pieces 64 (n / 64 + 2) a n).map fun p => (p.1 - a, p.2)

/-- Does a source lie where a destination byte is written (R347)? `off` is the byte's offset. -/
def overlaps (c : Cmd) (from_ into_ : Endpoint) (n off : Nat) : Bool :=
  let pad (e : Endpoint) := if e.kind = 1 then c.rank else e.rank
  let same := (from_.kind == 0 && into_.kind == 0) ||
    ((from_.kind == 1 || from_.kind == 2) && (into_.kind == 1 || into_.kind == 2) && pad from_ == pad into_)
  same && decide (from_.addr ≤ into_.addr + off) && decide (into_.addr + off < from_.addr + n)

/-- One unit of a plain copy between two endpoints in the package: `m` bytes from an offset. `open_` tells which bytes of the destination are
undefined; `done` are the units of payload before it. -/
def Cmd.copyUnit (c : Cmd) (from_ into_ : Endpoint) (off m done : Nat) (open_ : Nat → Bool) : M (Option CmdRes) := do
  match ← M.attempt (c.source from_ off m) with
  | .error fi => pure (some (.walk 0x02 done fi))
  | .ok (bs, bad) =>
    match ← M.attempt (c.putUnit 0 into_ off bs bad open_) with
    | .error fi => pure (some (.walk 0x02 done fi))
    | .ok _ => pure none

/-- The engine carries a command of `n` bytes on up to byte `q`, and answers its end or comes back to it later. -/
def Cmd.pacedBy (c : Cmd) (n : Nat) (cut : Nat → Nat) (f : Nat → Nat → M (Option CmdRes)) (q : Nat) : M (Option CmdRes) := do
  match ← runUnits cut f q (q - c.progress) c.progress with
  | some r => pure (some r)
  | none =>
    if n ≤ q then pure (some .good)
    else
      M.change (·.setCmd { c with progress := q, expired := false, wait := none })
      pure none

/-- The engine carries the bytes of a command on from where it stands, as many 8-byte words as a free value says, and comes back to it (R347,
R117, R301): other agents see it half done. Where source words and destination words do not lie alike (`whole`) it goes to its end, which no word
is read half at. Answers its end. (DEDUCED, log entry 48) -/
def Cmd.paced (c : Cmd) (n : Nat) (cut : Nat → Nat → Nat) (whole : Bool) (f : Nat → Nat → M (Option CmdRes)) : M (Option CmdRes) := do
  let s ← get
  let r := c.progress + (Config.free 32 s.tick .order c.id c.progress).toNat % (n - c.progress)
  c.pacedBy n (cut 64) f (if whole then n else cut 8 r)

/-- The status of either endpoint of a copy in the package, where it has one. -/
def Cmd.endsStatus (c : Cmd) (s : State) (from_ into_ : Endpoint) : Option Nat := c.endpointStatus s from_ <|> c.endpointStatus s into_

/-- Every byte of a source that is no peer, in order, and what is poisoned of it. -/
def Cmd.gather (c : Cmd) (e : Endpoint) (n : Nat) : M (Except FaultInfo (List Byte × Spots)) :=
  M.attempt do
    let ps ← (units e.addr n).mapM fun (off, m) => do
      let (bs, bad) ← c.source e off m
      pure (bs, bad.map fun l => (off, m, l))
    pure ((ps.map (·.1)).flatten, ps.filterMap (·.2))

/-- The bytes of a source of any kind that can be read, or the failure. -/
def Cmd.fetchAll (c : Cmd) (e : Endpoint) (n key : Nat) : M (Except CmdRes (List Byte × Spots)) := do
  if e.kind = 3 then
    match ← c.peerRead e n key with
    | .ok (bs, bad) => pure (.ok (bs, (bad.map fun l => (0, n, l)).toList))
    | .error st => pure (.error (.fail st 0))
  else
    match c.endpointStatus (← get) e with
    | some st => pure (.error (.fail st 0))
    | none =>
      match ← c.gather e n with
      | .ok bs => pure (.ok bs)
      | .error fi => pure (.error (.walk 0x02 0 fi))

/-- The request that writes bytes to a peer. -/
def Cmd.peerStore (c : Cmd) (rop : Nat) (e : Endpoint) (bs : List Byte) (bad : Spots) : List Byte :=
  peerBytes (if rop = 0 then 1 else 2 + rop) e.addr bs.length c.part bs (bad != [])

/-- Bytes written to a peer: none, or the status of its refusal. -/
def Cmd.peerWrite (c : Cmd) (rop : Nat) (e : Endpoint) (bs : List Byte) (bad : Spots) (key : Nat) : M (Option Nat) := do
  match c.endpointStatus (← get) e with
  | some st => pure (some st)
  | none =>
    match ← c.askPeer e.peer key (c.peerStore rop e bs bad) with
    | .error _ => pure (some 0x04)
    | .ok _ =>
      M.change (·.countLanded c bs.length)
      pure none

/-- Write or reduce the unit of some bytes at an offset. -/
def Cmd.putPart (c : Cmd) (rop : Nat) (e : Endpoint) (bs : List Byte) (bad : Spots) (open_ : Nat → Bool) (off m : Nat) : M (Option CmdRes) := do
  match ← M.attempt (c.putUnit rop e off ((bs.drop off).take m) (bad.at off m) open_) with
  | .error fi => pure (some (CmdRes.walk 0x02 (off / 64) fi))
  | .ok _ => pure none

/-- Write the units of some bytes to an endpoint in the package. -/
def Cmd.putAll (c : Cmd) (rop : Nat) (e : Endpoint) (bs : List Byte) (bad : Spots) (open_ : Nat → Bool := fun _ => false) : M (Option CmdRes) :=
  runUnits (cutAt e.addr bs.length 64) (c.putPart rop e bs bad open_) bs.length bs.length 0

/-- One run of which an endpoint is a peer. -/
def Cmd.move (c : Cmd) (rop : Nat) (from_ into_ : Endpoint) (n key : Nat) (open_ : Nat → Bool := fun _ => false) : M (Option CmdRes) := do
  match ← c.fetchAll from_ n key with
  | .error r => pure (some r)
  | .ok (bs, bad) =>
    if into_.kind = 3 then
      match ← c.peerWrite rop into_ (openBytes (← get).tick c.id into_.addr open_ bs) bad (key + 1) with
      | some st => pure (some (.fail st 0))
      | none => pure none
    else
      match c.endpointStatus (← get) into_ with
      | some st => pure (some (.fail st 0))
      | none => c.putAll rop into_ bs bad open_

/-- Check a destination in the package before any is written: each page is translated as a write, and the granules of a mapped scratchpad
are there (R135). -/
def Cmd.checkDest (c : Cmd) (e : Endpoint) (n : Nat) : M (Option CmdRes) := do
  let s ← get
  match c.endpointStatus s e with
  | some st => pure (some (.fail st 0))
  | none =>
    let rank := if e.kind = 1 then c.rank else e.rank
    let m : M Unit :=
      if e.kind = 0 then do
        let _ ← (pieces 4096 (n / 4096 + 2) e.addr n).mapM fun (a, _) => c.xlate c.asid (a % 2 ^ 52) .write
        pure ()
      else match s.imageOf c.mcid rank, s.coreOf c.mcid rank with
        | none, some core => M.atCore core (c.fill e.addr n)
        | _, _ => pure ()
    match ← M.attempt m with
    | .ok _ => pure none
    | .error fi => pure (some (.walk 0x02 0 fi))

/-- May a reduction go to a destination (R349)? -/
def ropOk (rop : Nat) (into_ : Endpoint) (n : Nat) : Bool :=
  rop == 0 || (decide (rop ≤ 7) && (into_.kind == 0 || into_.kind == 3) &&
    !(into_.kind == 0 && (inHost into_.addr || inHost ((into_.addr + n - 1) % 2 ^ 52))) &&
    into_.addr % ropBytes rop == 0 && n % ropBytes rop == 0)

/-- A reducing copy into the package: all or nothing (R135). Bytes in which source and destination overlap are undefined (R347). -/
def Cmd.reduceAll (c : Cmd) (rop : Nat) (from_ into_ : Endpoint) (n : Nat) : M (Option CmdRes) := do
  match ← c.fetchAll from_ n 0 with
  | .error r => pure (some r)
  | .ok (bs, bad) =>
    match ← c.checkDest into_ n with
    | some r => pure (some r)
    | none => c.putAll rop into_ bs bad (overlaps c from_ into_ n)

/-- The work of `CPY` but for a reply (R347, R349): its end, or none where there is more to do. -/
def cpyBody (c : Cmd) : M (Option CmdRes) := do
  let d := c.desc.toNat
  let n := bits d 159 128
  let into_ := endpoint (bits d 63 0) n
  let from_ := endpoint (bits d 127 64) n
  let rop := bits d 167 164
  let ending (r : Option CmdRes) : M (Option CmdRes) := pure (some (r.getD .good))
  if n = 0 ∨ into_.bad ∨ from_.bad ∨ from_.kind = 4 ∨ into_.kind = 4 ∨ 5 ≤ bits d 162 160 ∨ bits d 383 168 ≠ 0 ∨ !ropOk rop into_ n then
    pure (some (.fail 0x01 0))
  else if into_.kind = 3 then do ending (← c.move rop from_ into_ n 0)
  else if rop ≠ 0 then do ending (← c.reduceAll rop from_ into_ n)
  else match c.endsStatus (← get) from_ into_ with
    | some st => pure (some (.fail st (c.progress / 64)))
    | none =>
      if from_.kind = 3 then
        match ← c.fetchAll from_ n 0 with
        | .error r => pure (some r)
        | .ok (bs, bad) => c.paced n (cutAt into_.addr n) false (c.putPart 0 into_ bs bad fun _ => false)
      else c.paced n (cutAt into_.addr n) (from_.addr % 8 != into_.addr % 8) fun off m =>
        c.copyUnit from_ into_ off m (off / 64) (overlaps c from_ into_ n)

/-- Does row `r` of a `CPY2D` share the byte at offset `off` of its destination with another row (R348)? Rows that do not wrap in the address space
meet in neighbours only. -/
def rowShared (tstr : Int) (n rows r off : Nat) : Bool :=
  let within (x : Int) : Bool := decide (0 ≤ x) && decide (x < (n : Int))
  if rows * tstr.natAbs + n ≤ 2 ^ 52 then
    (decide (0 < r) && within ((off : Int) + tstr)) || (decide (r + 1 < rows) && within ((off : Int) - tstr))
  else (List.range rows).any fun q => q != r && within (((off : Int) + ((r : Int) - (q : Int)) * tstr) % 2 ^ 52)

/-- The work of `CPY2D` (R348). -/
def cpy2dBody (c : Cmd) : M (Option CmdRes) := do
  let d := c.desc.toNat
  let n := bits d 159 128
  let rows := bits d 191 168
  let fstr := sext (bits d 255 192) 64
  let tstr := sext (bits d 319 256) 64
  let into_ := endpoint (bits d 63 0) n
  let from_ := endpoint (bits d 127 64) n
  let fits (e : Endpoint) (str : Int) : Bool :=
    (e.kind != 1 && e.kind != 2) || [0, rows - 1].all fun (r : Nat) =>
      let a := (e.addr : Int) + (r : Int) * str
      decide (0 ≤ a) && decide (a + (n : Int) ≤ (spSize : Int))
  if n = 0 ∨ rows = 0 ∨ into_.bad ∨ from_.bad ∨ into_.kind = 4 ∨ from_.kind = 4 ∨ 5 ≤ bits d 162 160 ∨ bits d 167 164 ≠ 0 ∨
      bits d 383 320 ≠ 0 ∨ !fits from_ fstr ∨ !fits into_ tstr then pure (some (.fail 0x01 0))
  else
    let row (e : Endpoint) (str : Int) (r : Nat) : Endpoint := e.plus ((r : Int) * str)
    let done (r : Nat) := r * ((n + 63) / 64) % 2 ^ 28
    if from_.kind = 3 ∨ into_.kind = 3 then
      let r ← unitsGo (fun r => do
        match ← c.move 0 (row from_ fstr r) (row into_ tstr r) n (2 * r) (rowShared tstr n rows r) with
        | some x => pure (some { x with word := x.word - bits x.word 27 0 + done r })
        | none => pure none) 0 rows
      pure (some (r.getD .good))
    else match c.endsStatus (← get) from_ into_ with
    | some st => pure (some (.fail st (done (c.progress / n))))
    | none =>
      let cut (g b : Nat) := b / n * n + cutAt (row into_ tstr (b / n)).addr n g (b % n)
      c.paced (rows * n) cut (from_.addr % 8 != into_.addr % 8 || fstr % 8 != tstr % 8) fun p m =>
        let t := row into_ tstr (p / n)
        let open_ (off : Nat) : Bool :=
          rowShared tstr n rows (p / n) off || (List.range rows).any fun q => overlaps c (row from_ fstr q) t n off
        c.copyUnit (row from_ fstr (p / n)) t (p % n) m (done (p / n)) open_

/-! ### MCST (R350, R135) -/

/-- A failure word with DMAP. -/
def CmdRes.withDmap (r : CmdRes) (dmap : Nat) : CmdRes := { r with word := r.word + 2 ^ 48 * dmap }

/-- The first destination that cannot be written. (DESIGN CHOICE, log entry 58) -/
def Cmd.checkDests (c : Cmd) (n : Nat) : List (Nat × Endpoint) → M (Option CmdRes)
  | [] => pure none
  | (i, e) :: es => do
    if e.kind = 3 then c.checkDests n es
    else
      match ← c.checkDest e n with
      | some r => pure (some (r.withDmap (2 ^ i)))
      | none => c.checkDests n es

/-- Write to every destination of the package. -/
def Cmd.writeAll (c : Cmd) (rop : Nat) (bs : List Byte) (bad : Spots) : List Endpoint → M (Option CmdRes)
  | [] => pure none
  | e :: es => do
    match ← c.putAll rop e bs bad with
    | some r => pure (some r)
    | none => c.writeAll rop bs bad es

/-- Send what is to be written to every peer destination. Answers how each stands, four bits a destination: 8 where it has been asked, else its
status. -/
def Cmd.sendPeers (c : Cmd) (rop : Nat) (bs : List Byte) (bad : Spots) (tos : List (Nat × Endpoint)) : M Nat := do
  let sts ← tos.mapM fun (i, e) => do
    match c.endpointStatus (← get) e with
    | some st => pure (st * 2 ^ (4 * i))
    | none =>
      M.change (·.applyPost (.peer c.agent e.peer (2 + i) (c.peerStore rop e bs bad)))
      pure (8 * 2 ^ (4 * i))
  pure sts.sum

/-- Wait for the peers among some destinations: the DMAP of the refusals and the status of the first. `sts` is what `sendPeers` has answered; a
request that is out no longer went with its link. -/
def Cmd.awaitPeers (c : Cmd) (n sts : Nat) : List Nat → M (Nat × Nat)
  | [] => pure (0, 0)
  | i :: is => do
    let s ← get
    let own := bits sts (4 * i + 3) (4 * i)
    let refused ← if own < 8 then pure own
      else match s.given.find? fun g => g.agent = c.agent ∧ g.key = 2 + i with
      | some g =>
        if g.data.head?.any fun b => b == 1 || b == 3 then
          M.change (·.countLanded c n)
          pure 0
        else pure 0x04
      | none => do
        M.need (!s.peerReqs.any fun q => q.agent == c.agent && q.key == 2 + i) (.stall .other)
        pure 0x05
    let (m, st) ← c.awaitPeers n sts is
    pure (if refused = 0 then (m, st) else (m + 2 ^ i, refused))

/-- The work of `MCST` (R350, R135): every destination of the package is checked, then all of them are written and every peer is sent its bytes;
then the peers' answers are waited for. (DESIGN CHOICE, log entry 58) -/
def mcstBody (c : Cmd) : M (Option CmdRes) := do
  let d := c.desc.toNat
  let n := bits d 159 128
  let nto := bits d 90 88 + 1
  let rop := bits d 167 164
  let from_ := endpoint (bits d 63 0) n
  let list := bits d 84 64
  let end_ (r : CmdRes) : M (Option CmdRes) := pure (some r)
  if n = 0 ∨ from_.bad ∨ from_.kind = 4 ∨ 5 ≤ bits d 162 160 ∨ list % 64 ≠ 0 ∨ bits d 87 85 ≠ 0 ∨ bits d 127 91 ≠ 0 ∨
      bits d 383 168 ≠ 0 ∨ 8 ≤ rop then end_ (.fail 0x01 0)
  else if c.progress ≠ 0 then
    let sts := c.progress - 1
    let (dmap, st) ← c.awaitPeers n sts (List.range nto)
    if dmap = 0 then end_ .good
    else
      let here := (List.range nto).any fun i => bits sts (4 * i + 3) (4 * i) == 0
      end_ ((CmdRes.fail st (if here then (n + 63) / 64 % 2 ^ 28 else 0)).withDmap dmap)
  else
    match ← M.attempt (c.readOwn list (8 * nto)) with
    | .error fi => end_ (.walk 0x02 0 fi)
    | .ok (bs, _) =>
      let tos := (List.range nto).map fun i => (i, endpoint (ofBytes ((bs.drop (8 * i)).take 8)) n)
      let here := (tos.filter fun e => e.2.kind ≠ 3).map (·.2)
      let there := tos.filter fun e => e.2.kind = 3
      if tos.any fun (_, e) => e.bad || e.kind == 4 || !ropOk rop e n then end_ (.fail 0x01 0)
      else
        match ← c.fetchAll from_ n 0 with
        | .error r => end_ r
        | .ok (data, bad) =>
          match ← c.checkDests n tos with
          | some r => end_ r
          | none =>
            match ← c.writeAll rop data bad here with
            | some r => end_ r
            | none =>
              if there = [] then end_ .good
              else
                let sts ← c.sendPeers rop data bad there
                M.change (·.setCmd { c with progress := 1 + sts, expired := false, wait := none })
                pure none

/-! ### Issue -/

/-- `CPY` (R347, R351). -/
def execCpy : Ctl → CK → State → Host.Outcome State Fault Refusal := engineOp 0x08
/-- `CPY2D` (R348). -/
def execCpy2d : Ctl → CK → State → Host.Outcome State Fault Refusal := engineOp 0x09
/-- `MCST` under the `c0` and `c1` tags: the multicast copy (R350). -/
def execMcstMulticast : Ctl → CK → State → Host.Outcome State Fault Refusal := engineOp 0x0A

/-! ### Region maps (R352) -/

/-- The issue of a region-map command: its status is settled at issue and kept in `progress` for its completion word, which follows its write-backs
(R352); what it does to the maps takes effect when the bundle commits. -/
def mapOp (op : Nat) (f : Nat → M Nat) (c : Ctl) (o : CK) (s : State) : Host.Outcome State Fault Refusal :=
  slotOp c (do
    let d ← readDesc
    let s ← get
    M.need (s.mine Cmd.isCopy < 32) (.stall .other)
    let cmd ← sendCmd op d (s.cursor 0)
    let s0 ← get
    let st ← if (complOf op d).bad then pure 0x01 else f d
    M.change fun s => (s.setCmd { cmd with progress := st, before := s.before }).cmdSaw cmd (s.madeSince s0)) (s.ckCursor o)

/-- The work that is left of a region-map command: its completion word. -/
def mapBody (c : Cmd) : M CmdRes := pure (if c.progress = 0 then .good else .fail c.progress 0)

/-- Is the range of a descriptor malformed? -/
def rangeBad (d : Nat) : Bool :=
  let off := bits d 20 0
  let len := bits d 52 32
  off % 256 != 0 || len % 256 != 0 || len == 0 || decide (2 ^ 20 < len) || bits d 31 21 != 0 || bits d 63 53 != 0 ||
    decide (spSize < off + len) || bits d 383 117 != 0

/-- The maps of a task as the bundle in progress leaves them so far. -/
def Core.nextMaps (k : Core) : List RegMap := k.issue.posts.foldl Post.onMaps k.maps

/-- `SPMAP` with UNMAP = 0 (R352): the status. -/
def mapNew (d : Nat) : M Nat := do
  let off := bits d 20 0
  let len := bits d 52 32
  let s ← get
  let maps := s.core.nextMaps
  if rangeBad d ∨ bits d 115 64 % 256 ≠ 0 ∨ spGroup off ≠ spGroup (off + len - 1) ∨ bit d 116 then pure 0x01
  else if maps.length ≥ 8 ∨ maps.any (fun m => decide (m.off < off + len) && decide (off < m.off + m.len)) then pure 0x08
  else
    M.change (·.post (.mapNew off len (bits d 115 64)))
    pure 0

/-- `SPMAP` (R352). -/
def execSpmap : Ctl → CK → State → Host.Outcome State Fault Refusal := mapOp 0x10 mapNew

/-- `SPMAP` with UNMAP = 1 (R352, R45): the status. (DEDUCED, log entry 57) -/
def mapRemove (d : Nat) : M Nat := do
  let off := bits d 20 0
  let len := bits d 52 32
  let s ← get
  if rangeBad d ∨ bits d 115 64 % 256 ≠ 0 then pure 0x01
  else
    if !s.core.nextMaps.any fun m => m.off = off ∧ m.len = len then pure 0x08
    else
      let _ ← ((s.core.dirty.filter fun e => (s.core.maps[e.1]?).any (·.off == off)).mapM fun (mi, g) => finalWriteBack mi g)
      M.change (·.post (.mapDrop off len))
      pure 0

/-- `SPMAP` with UNMAP = 1 (R352). -/
def execSpmapUnmap : Ctl → CK → State → Host.Outcome State Fault Refusal := mapOp 0x10 mapRemove

/-- The translations and checks of an `SPSYNC`, in ascending offset order: at a fault the granules below are written back (R352, R45).
(DEDUCED, log entry 57) -/
def syncChecks (off : Nat) : List (Nat × Nat) → M Unit
  | [] => pure ()
  | (mi, g) :: rest => do
    let s ← get
    match s.core.maps[mi]? with
    | none => syncChecks off rest
    | some m =>
      let va := (m.gva + 256 * g) % 2 ^ 52
      let bs := s.core.marked (m.off + 256 * g) (m.granule g)
      let done : List Post := [.sync off (m.off + 256 * g - off)]
      M.leaving done do
        let l ← xlateAs m.asid va .write
        M.need (!s.wbWatched l bs) (.fault ⟨0x30, 0, 0, vaInfo va true false⟩)
      syncChecks off rest

/-- `SPSYNC` (R352): the status. -/
def mapSync (d : Nat) : M Nat := do
  let off := bits d 20 0
  let len := bits d 52 32
  if rangeBad d ∨ bits d 116 64 ≠ 0 then pure 0x01
  else
    syncChecks off ((← get).core.dirtyIn off len)
    M.change (·.syncRange off len)
    pure 0

/-- `SPSYNC` (R352). -/
def execSpsync : Ctl → CK → State → Host.Outcome State Fault Refusal := mapOp 0x11 mapSync

/-- `SPINV` (R352): the status. A write of the range that has not landed is discarded with its mark. -/
def mapInv (d : Nat) : M Nat := do
  let off := bits d 20 0
  let len := bits d 52 32
  if rangeBad d ∨ bits d 116 64 ≠ 0 then pure 0x01
  else
    M.change (·.post (.mapInv off len))
    pure 0

/-- `SPINV` (R352). -/
def execSpinv : Ctl → CK → State → Host.Outcome State Fault Refusal := mapOp 0x12 mapInv

end Sys2Proof.Machine
end

