-- ==== Sys2Proof/Machine/Collective.lean ====
section
/-! DEFINITION. Collectives: `CRED` (R217, R218, R354, R355), among packages by the flits of R356, and `CBCAST` (R354, R357). -/

namespace Sys2Proof.Machine

/-! ### Membership (R354) -/

/-- The key of a collective counter. -/
def collKey (op lvl : Nat) : Nat := (if op = 0x61 then 0 else 5) + lvl

/-- How many collectives of a kind a task has issued. -/
def State.collCount (s : State) (m rank key : Nat) : Nat :=
  match s.coreOf m rank with
  | some n => FMap.get 0 (s.coreAt n).colls key
  | none => match s.imageOf m rank with
    | some im => FMap.get 0 im.core.colls key
    | none => 0

/-- The core of a member as its group was placed. -/
def State.placeOf (s : State) (id : Nat) : Nat :=
  match s.job (id / 64) with
  | none => 0
  | some j =>
    let (die, core, _) := s.gplace (id / 64) (id % 64 / j.size)
    64 * die + core + id % 64 % j.size

/-- Insert a member in the order of the ring: die, then core (R218). -/
def State.ringInsert (s : State) (id : Nat) : List Nat → List Nat
  | [] => [id]
  | x :: xs => if s.placeOf id < s.placeOf x then id :: x :: xs else x :: s.ringInsert id xs

/-- The ring of the executing task's domain at a level. -/
def State.ringOf (s : State) (lvl : Nat) : List Nat :=
  (s.members (s.barOf s.core.mcid lvl s.core.rank)).foldl (fun l id => s.ringInsert id l) []

/-- LEVEL of a collective. -/
def Cmd.level (c : Cmd) : Nat := bits c.desc.toNat 98 96

/-- Are two commands parts of one collective? -/
def State.sameColl (s : State) (a b : Cmd) : Bool :=
  a.op == b.op && a.level == b.level && a.coll == b.coll && a.coll != 0 && !a.orphan && !b.orphan &&
    s.domainOf a.mcid a.level a.rank == s.domainOf b.mcid b.level b.rank

/-- The issue of a collective: the member's next number, and the ring as the first member's issue has fixed it. A task that is no
member has number 0. -/
def collOp (op : Nat) (c : Ctl) (o : CK) (s : State) : Host.Outcome State Fault Refusal :=
  slotOp c (do
    let d ← readDesc
    let s ← get
    M.need (s.mine Cmd.isCopy < 32) (.stall .other)
    let cmd ← sendCmd op d (s.cursor 0)
    let lvl := cmd.level
    if lvl ≤ 4 ∧ s.member lvl then
      let key := collKey op lvl
      let n := FMap.get 0 s.core.colls key + 1
      let cmd := { cmd with coll := n }
      let s ← get
      let ring := match s.cmds.find? fun x => x.id != cmd.id && s.sameColl x cmd with
        | some x => x.members
        | none => s.ringOf lvl
      set ((s.setCmd { cmd with members := ring }).onCore fun k => { k with colls := k.colls.insert key n })
    else pure ()) (s.ckCursor o)

/-! ### Settling a collective -/

/-- A result kept until its command writes its word, with its DONE. -/
def CmdRes.kept (r : CmdRes) : Nat := 1 + r.status + 2 ^ 8 * r.outcome + 2 ^ 16 * r.level + 2 ^ 24 * bits r.word 27 0

/-- The result that a command keeps. (DEDUCED, log entry 60) -/
def Cmd.settled (c : Cmd) : CmdRes :=
  let k := c.progress - 1
  let st := k % 2 ^ 8
  ⟨st, k / 2 ^ 8 % 2 ^ 8, k / 2 ^ 16 % 2 ^ 8, if st = 0 then 0 else failWord (k / 2 ^ 24) st (k / 2 ^ 8 % 2 ^ 8)⟩

/-- The outstanding command of a member of a collective. -/
def State.collCmd (s : State) (c : Cmd) (id : Nat) : Option Cmd := s.cmds.find? fun x => 64 * x.mcid + x.rank == id && s.sameColl x c

/-- Has a member that has no command outstanding left the domain, or ended its command already? -/
def State.collLost (s : State) (c : Cmd) (id : Nat) : Bool :=
  (s.collCmd c id).isNone && (s.hasLeft (id / 64) c.level (id % 64) || decide (c.coll ≤ s.collCount (id / 64) (id % 64) (collKey c.op c.level)))

/-- Give every outstanding command of a collective a result. -/
def State.settleAll (s : State) (c : Cmd) (r : CmdRes) : State :=
  { s with cmds := s.cmds.map fun x => if s.sameColl x c then { x with progress := r.kept } else x }

/-- A result of one command of a collective. (DEDUCED, log entry 60) -/
def State.settleOne (s : State) (c : Cmd) (r : CmdRes) : State := s.setCmd { c with progress := r.kept }

/-- The fields on which the members must agree. -/
def Cmd.terms (c : Cmd) : Nat := bits c.desc.toNat 383 64

/-- Does the ring need a die-to-die link that is lost? -/
def State.ringCut (s : State) (ring : List Nat) : Bool :=
  let dies := ring.map fun id => s.placeOf id / 64
  dies.any fun a => dies.any fun b => s.linksDown.any fun l => l == .die a b

/-- Has a level-4 collective members in other packages: are there more member jobs than those here (R154)? -/
def State.reachesOut (s : State) (c : Cmd) : Bool :=
  let xid := (s.domainOf c.mcid 4 c.rank).2
  c.level == 4 && decide ((s.xidJobs xid).length + (s.xidGone xid).length < s.mcbF c.mcid 927 920 + 1)

/-- What the packages of a collective have exchanged. -/
def State.exchangeOf (s : State) (c : Cmd) : Option Exchange :=
  s.exchanges.find? fun x => x.xid == (s.domainOf c.mcid 4 c.rank).2 && x.op == c.op && x.coll == c.coll

/-- Where the members of this package stand in the ring of a collective (R218): how many come before them, how many there are, and the package of
the member after the last one here. The ring is ordered by fabric ID. -/
structure RingPlace where
  before : Nat
  n : Nat
  next : Nat
  deriving DecidableEq, Repr

/-- The place of `k` members of the package `own` in the ring of a collective (R218, R414). -/
def Exchange.place (x : Exchange) (own k : Nat) : RingPlace :=
  let ids := x.fabs.map (·.1)
  let least (l : List Nat) : Option Nat := l.foldl (fun m i => some (m.elim i (min i))) none
  ⟨((x.fabs.filter fun f => f.1 < own).map (·.2)).sum, k + (x.fabs.map (·.2)).sum,
    ((least (ids.filter fun i => own < i)) <|> least ids).getD own⟩

/-- Is a package that has members of a level-4 collective out of reach (R355): the one that holds its barrier, or one that members here have heard
of? While nothing has been exchanged a lost link may hide a member that nobody here has heard of: whether it does is a free value.
(DEDUCED, log entry 67) -/
def State.fabCut (s : State) (c : Cmd) : Bool :=
  let xid := (s.domainOf c.mcid 4 c.rank).2
  let home := s.mcbF c.mcid 919 912
  let hidden := (s.exchangeOf c).isNone && (s.linksDown.any fun l => match l with
    | .peer _ => true
    | .die _ _ => false) && (Config.free 1 s.tick .lost xid c.id) == 1
  s.reachesOut c && ((home != s.fabId && !s.peerUp home) || (s.xidHosts.any fun e => e.1 == xid && !s.peerUp e.2) ||
    ((s.exchangeOf c).any fun x => x.fabs.any fun f => !s.peerUp f.1) || hidden)

/-- The result that a command keeps, once it has one. -/
def State.settledOf (s : State) (c : Cmd) : CmdRes := (s.cmds.find? (·.id = c.id)).elim .good Cmd.settled

/-- The work of a collective: its settled result; LINK at level 4 while FABID has V = 0 (R414), or where a link that it needs is lost; MISMATCH; a
wait for a member; or its data movement, which answers the results. `out` moves the data of a collective with members in other packages as far as it
can, and tells whether it has ended (R354, R355). -/
def collBody (bad : Nat → Nat → Bool) (work : List Cmd → M Unit) (out : Exchange → List Cmd → M Bool) (lost : List Cmd → M Unit)
    (c : Cmd) : M (Option CmdRes) := do
  let s ← get
  if c.progress ≠ 0 then pure (some c.settled)
  else if bad c.desc.toNat 1 then
    set (s.settleAll c (.fail 0x07 0))
    pure (some (.fail 0x01 0))
  else if c.coll = 0 then pure (some (.fail 0x03 0))
  else
    let cmds := c.members.filterMap (s.collCmd c)
    let all (r : CmdRes) : M (Option CmdRes) := do
      M.change (·.settleAll c r)
      pure (some r)
    let cut : M (Option CmdRes) := do
      lost cmds
      all (.fail 0x05 0)
    if c.level = 4 ∧ !s.fabV then all (.fail 0x05 0)
    else if s.ringCut c.members || s.fabCut c then cut
    else if c.members.any (s.collLost c) || cmds.any (fun x => x.terms != c.terms) then all (.fail 0x07 0)
    else if cmds.length < c.members.length then M.stop (.stall .other)
    else if s.reachesOut c then
      match s.exchangeOf c with
      | none =>
        if s.outerLeft (s.domainOf c.mcid 4 c.rank).2 ≠ [] then all (.fail 0x07 0) else M.stop (.stall .other)
      | some x =>
        if x.terms ≠ c.terms then all (.fail 0x07 0)
        else if bad c.desc.toNat (x.place s.fabId cmds.length).n then all (.fail 0x01 0)
        else if ← out x cmds then do
          M.change fun s =>
            { s with exchanges := s.exchanges.filter fun y => !(y.xid == x.xid && y.op == x.op && y.coll == x.coll),
                     cmds := s.cmds.map fun y => if s.sameColl y c ∧ y.progress = 0 then { y with progress := CmdRes.good.kept } else y }
          pure (some ((← get).settledOf c))
        else pure none
    else if bad c.desc.toNat c.members.length then all (.fail 0x01 0)
    else do
      M.change (·.settleAll c .good)
      work cmds
      pure (some ((← get).settledOf c))

/-- Read the buffer of a member; a translation that fails ends its command with WALK, the others with MISMATCH. -/
def bufRead (all : List Cmd) (c : Cmd) (n : Nat) : M (Option (List Byte × Spots)) := do
  match ← c.gather (endpoint (bits c.desc.toNat 63 0) n) n with
  | .ok r => pure (some r)
  | .error fi =>
    M.change fun s => (all.foldl (fun s x => s.settleOne x (.fail 0x07 0)) s).settleOne c (.walk 0x02 0 fi)
    pure none

/-- Write the buffer of a member; a translation that fails ends its command with WALK, and with the units that are written (R340). -/
def bufWrite (c : Cmd) (bs : List Byte) (bad : Spots) : M Unit := do
  match ← c.putAll 0 (endpoint (bits c.desc.toNat 63 0) bs.length) bs bad with
  | some r => M.change (·.settleOne c r)
  | none => pure ()

/-- The buffers of every member, in ring order, and what is poisoned of each; or none where one could not be read. -/
def bufReads (all : List Cmd) (n : Nat) : List Cmd → M (Option (List (List Byte × Spots)))
  | [] => pure (some [])
  | c :: cs => do
    match ← bufRead all c n with
    | none => pure none
    | some r => do
      match ← bufReads all n cs with
      | none => pure none
      | some rs => pure (some (r :: rs))

/-- What has poisoned some bytes of any of several buffers. -/
def badOf (bss : List (List Byte × Spots)) (off m : Nat) : Option Nat := bss.findSome? fun b => b.2.at off m

/-- The spots of a buffer whose chunks of `m` bytes each are poisoned or not. -/
def chunkSpots (m : Nat) (bads : List (Option Nat)) : Spots := (bads.mapIdx fun j b => b.map fun l => (m * j, m, l)).filterMap id

/-! ### CRED (R217, R218, R355) -/

/-- MXFP8: E4M3 in blocks of 32 with E8M0 scales (R217). -/
def mxfp8 : NFmt := { e4m3 with blk := 32 }

/-- A block of FP32 values over the wire: quantised, then decoded to FP32 (R218). -/
def overWire (xs : List (BitVec 32)) : List (BitVec 32) :=
  let (codes, k) := mxfp8.quantise (xs.map fun x => fp32.value x.toNat)
  codes.map fun c => BitVec.ofNat 32 (fp32.round false (mxfp8.scaled c k))

/-- A block on the wire: its codes and its scale (R217). -/
def wireBlock (xs : List (BitVec 32)) : List Byte :=
  let (codes, k) := mxfp8.quantise (xs.map fun x => fp32.value x.toNat)
  codes.map (BitVec.ofNat 8) ++ [BitVec.ofNat 8 k]

/-- What a block on the wire decodes to (R218). -/
def fromWire (bs : List Byte) : List (BitVec 32) :=
  (bs.take 32).map fun c => BitVec.ofNat 32 (fp32.round false (mxfp8.scaled c.toNat ((bs[32]?).getD 0).toNat))

/-- A list in runs of 32. -/
def blocks32 (xs : List (BitVec 32)) : List (List (BitVec 32)) :=
  (List.range ((xs.length + 31) / 32)).map fun i => (xs.drop (32 * i)).take 32

/-- Every block of a chunk over the wire. -/
def chunkOverWire (xs : List (BitVec 32)) : List (BitVec 32) := ((blocks32 xs).map overWire).flatten

/-- The sum s_c of chunk c along the ring: from member c + 1 round to member c (R218). -/
def ringSum (chunks : List (List (BitVec 32))) (c : Nat) : List (BitVec 32) :=
  let n := chunks.length
  let at_ (i : Nat) := (chunks[(c + 1 + i) % n]?).getD []
  (List.range (n - 1)).foldl (fun acc i => (chunkOverWire acc).zipWith faddRne (at_ (i + 1))) (at_ 0)

/-- FP32 values of bytes. -/
def words32 (bs : List Byte) : List (BitVec 32) := (List.range (bs.length / 4)).map fun i => BitVec.ofNat 32 (ofBytes ((bs.drop (4 * i)).take 4))

/-- Bytes of FP32 values. -/
def bytes32 (xs : List (BitVec 32)) : List Byte := xs.flatMap fun x => toBytes 4 x.toNat

/-- Is a `CRED` descriptor malformed, for `n` members? -/
def credBad (d n : Nat) : Bool :=
  let e := endpoint (bits d 63 0) (4 * bits d 95 64)
  e.bad || decide (2 ≤ e.kind) || e.addr % 4 != 0 || bits d 95 64 % (32 * n) != 0 || decide (5 ≤ bits d 98 96) || bits d 383 100 != 0

/-- Open bytes for a buffer. (DEDUCED, log entry 19) -/
def openBuf (tick id off n : Nat) : List Byte := (List.range n).map fun i => Config.free 8 tick .lost (off + i) id

/-- The data movement of a `CRED` (R218, R355). -/
def credWork (cmds : List Cmd) : M Unit := do
  match cmds with
  | [] => pure ()
  | c :: _ =>
    let d := c.desc.toNat
    let bytes := 4 * bits d 95 64
    let n := cmds.length
    if n = 1 then pure ()
    else
      match ← bufReads cmds bytes cmds with
      | none => pure ()
      | some bss =>
        let per := bits d 95 64 / n
        let chunk (bs : List Byte) (i : Nat) := ((words32 bs).drop (per * i)).take per
        let sums := (List.range n).map fun i => ringSum (bss.map fun b => chunk b.1 i) i
        let bads := (List.range n).map fun j => badOf bss (4 * per * j) (4 * per)
        let tick := (← get).tick
        let _ ← (cmds.mapIdx fun i x => (i, x)).mapM fun (i, x) => do
          let outs := sums.mapIdx fun j v => if bit d 99 then bytes32 (chunkOverWire v)
            else if j = i then bytes32 v else openBuf tick x.id (4 * per * j) (4 * per)
          bufWrite x outs.flatten (chunkSpots (4 * per) (bads.mapIdx fun j b => if bit d 99 || j == i then b else none))
        pure ()

/-! ### CRED across packages (R218, R356) -/

/-- The flits of some blocks of a chunk: at most seven in one (R356). -/
def flitsOf (cid chunk hop : Nat) (bs : List (List Byte)) : List (List Byte) :=
  (List.range ((bs.length + 6) / 7)).map fun i =>
    let b := (bs.drop (7 * i)).take 7
    let head := toBytes 4 cid ++ toBytes 2 chunk ++ toBytes 2 hop ++ toBytes 4 (7 * i) ++ toBytes 1 b.length ++ toBytes 3 0
    head ++ toBytes 240 (ofBytes b.flatten)

/-- The blocks of a chunk that have arrived after some hops, if all have. -/
def Exchange.chunkIn (x : Exchange) (chunk hop blocks : Nat) : Option (List (List Byte)) :=
  (List.range blocks).mapM fun b =>
    (x.flits.find? fun f =>
      let f := f.1.toNat
      bits f 31 0 == x.coll && bits f 47 32 == chunk && bits f 63 48 == hop && decide (bits f 95 64 ≤ b) && decide (b < bits f 95 64 + bits f 103 96)).map
      fun f => ((toBytes 256 f.1.toNat).drop (16 + 33 * (b - bits f.1.toNat 95 64))).take 33

/-- Has a poisoned flit of a chunk arrived (R416)? -/
def Exchange.badIn (x : Exchange) (chunk : Nat) : Bool := x.flits.any fun f => f.2 && bits f.1.toNat 47 32 == chunk

/-- Members of the ring one after another add their elements, to what comes in or from the first one's on (R218). -/
def addAlong (incoming : Option (List (BitVec 32))) : List (List (BitVec 32)) → List (BitVec 32)
  | [] => incoming.getD []
  | o :: os => os.foldl (fun acc v => (chunkOverWire acc).zipWith faddRne v) (incoming.elim o fun d => d.zipWith faddRne o)

/-- What this package makes of one chunk of a reduction with members elsewhere: the sum s_c, if its owner is here and the sum is complete; and
the blocks that leave behind the last member here, with their hops. `own i` is the chunk of ring member i, `k` members are here. -/
def Exchange.reduce (x : Exchange) (r : RingPlace) (k blocks c : Nat) (own : Nat → List (BitVec 32)) : Option (List (BitVec 32)) × Option (Nat × List (List Byte)) :=
  let a := r.before
  let e := a + k - 1
  let start := (c + 1) % r.n
  let here (i : Nat) : Bool := decide (a ≤ i) && decide (i ≤ e)
  let run (i j : Nat) := (List.range (j + 1 - i)).map fun d => own (i + d)
  let came := if start = a then none
    else (x.chunkIn c ((a + 2 * r.n - 1 - start) % r.n) blocks).map fun bs => (bs.map fromWire).flatten
  let fresh := if here start then some (addAlong none (run start e)) else none
  let through := came.map fun d => addAlong (some d) (run a (if here c then c else e))
  let leaving := if here start then fresh else if here c then none else through
  (if here c then through else none, leaving.map fun v => ((e + r.n - start) % r.n, (blocks32 v).map wireBlock))

/-- The blocks of an all-reduce result that pass this package on, or start here, with their hops where they leave. -/
def Exchange.spread (x : Exchange) (r : RingPlace) (k blocks c : Nat) (sum : Option (List (BitVec 32))) : Option (List (List Byte)) × Option Nat :=
  let a := r.before
  let e := a + k - 1
  let bs := if a ≤ c ∧ c ≤ e then sum.map fun v => (blocks32 v).map wireBlock
    else x.chunkIn c (r.n - 1 + (a + 2 * r.n - 1 - c) % r.n) blocks
  (bs, if (e + 1) % r.n = c then none else some (r.n - 1 + (e + r.n - c) % r.n))

/-- The data movement of a `CRED` with members in other packages, as far as what has arrived allows: tells whether it has ended. Poison travels with
the chunk that it is in (R416). -/
def credOut (x : Exchange) (cmds : List Cmd) : M Bool := do
  match cmds with
  | [] => pure true
  | c :: _ =>
    let d := c.desc.toNat
    let bytes := 4 * bits d 95 64
    let k := cmds.length
    let r := x.place (← get).fabId k
    match ← bufReads cmds bytes cmds with
    | none => pure true
    | some bss =>
      let per := bits d 95 64 / r.n
      let blocks := per / 32
      let chunk (i c : Nat) := ((words32 ((bss[i - r.before]?).elim [] (·.1))).drop (per * c)).take per
      let red := (List.range r.n).map fun c => x.reduce r k blocks c fun i => chunk i c
      let spr := if bit d 99 then red.mapIdx fun c v => x.spread r k blocks c v.1 else []
      let bad (c : Nat) : Option Nat := if x.badIn c then some peerLine else badOf bss (4 * per * c) (4 * per)
      let outs := (red.mapIdx fun c v => v.2.map fun o => (c, o.1, o.2)).filterMap id ++
        (spr.mapIdx fun c v => (v.1.bind fun bs => v.2.map fun h => (c, h, bs))).filterMap id
      let fresh := outs.filter fun o => !x.sent.contains (o.1 + 2 ^ 16 * o.2.1)
      M.change fun s =>
        { s with out := (fresh.flatMap fun o => (flitsOf x.coll o.1 o.2.1 o.2.2).map fun f => OutMsg.flit r.next f (bad o.1).isSome).reverse ++ s.out,
                 exchanges := s.exchanges.map fun y => if y = x then { x with sent := x.sent ++ fresh.map fun o => o.1 + 2 ^ 16 * o.2.1 } else y }
      let mine (c : Nat) : Bool := decide (r.before ≤ c) && decide (c < r.before + k)
      let ended := (red.mapIdx fun c v => if mine c then v.1.isSome else v.2.isSome).all id && spr.all (·.1.isSome)
      if !ended then pure false
      else
        let tick := (← get).tick
        let _ ← (cmds.mapIdx fun i q => (i, q)).mapM fun (i, q) => do
          let outs := (List.range r.n).map fun c =>
            let v := if bit d 99 then (((spr[c]?).bind (·.1)).map fun bs => (bs.map fromWire).flatten)
              else if c = r.before + i then (red[c]?).bind (·.1) else none
            (v.elim (openBuf tick q.id (4 * per * c) (4 * per)) bytes32, if v.isSome then bad c else none)
          bufWrite q (outs.flatMap (·.1)) (chunkSpots (4 * per) (outs.map (·.2)))
        pure true

/-- A lost link: every buffer is undefined (R355). (DEDUCED, log entry 19) -/
def credLost (cmds : List Cmd) : M Unit := do
  let tick := (← get).tick
  let _ ← cmds.mapM fun x =>
    let n := 4 * bits x.desc.toNat 95 64
    bufWrite x (openBuf tick x.id 0 n) []
  pure ()

/-- The work of `CRED`. -/
def credBody : Cmd → M (Option CmdRes) := collBody credBad credWork credOut credLost

/-- `CRED` (R355). -/
def execCred : Ctl → CK → State → Host.Outcome State Fault Refusal := collOp 0x61

/-! ### CBCAST (R357) -/

/-- Is a `CBCAST` descriptor malformed? -/
def cbcastBad (d _n : Nat) : Bool :=
  let e := endpoint (bits d 63 0) (bits d 95 64)
  e.bad || decide (2 ≤ e.kind) || bits d 95 64 == 0 || decide (5 ≤ bits d 98 96) || bits d 99 99 != 0 || bits d 383 106 != 0

/-- The data movement of a `CBCAST`: a ROOT that is no member gives MISMATCH. -/
def cbcastWork (cmds : List Cmd) : M Unit := do
  match cmds with
  | [] => pure ()
  | c :: _ =>
    let d := c.desc.toNat
    let n := bits d 95 64
    match cmds[bits d 105 100]? with
    | none => M.change (·.settleAll c (.fail 0x07 0))
    | some root =>
      match ← bufRead cmds root n with
      | none => pure ()
      | some (bs, bad) =>
        let _ ← (cmds.filter (·.id ≠ root.id)).mapM fun x => bufWrite x bs bad
        pure ()

/-- The data movement of a `CBCAST` with members in other packages: a root here sends to them, poison with its bytes (R416); else they are waited
for. -/
def cbcastOut (x : Exchange) (cmds : List Cmd) : M Bool := do
  match cmds with
  | [] => pure true
  | c :: _ =>
    let d := c.desc.toNat
    let n := bits d 95 64
    let r := bits d 105 100
    let p := x.place (← get).fabId cmds.length
    if p.n ≤ r then
      M.change (·.settleAll c (.fail 0x07 0))
      pure true
    else if p.before ≤ r ∧ r < p.before + cmds.length then
      match cmds[r - p.before]? with
      | none => pure true
      | some root =>
        match ← bufRead cmds root n with
        | none => pure true
        | some (bs, bad) => do
          let _ ← (cmds.filter (·.id ≠ root.id)).mapM fun y => bufWrite y bs bad
          let parts := pieces 256 (n / 256 + 2) 0 n
          M.change fun s => { s with out := (x.fabs.flatMap fun f => parts.map fun (o, m) =>
            OutMsg.bcast f.1 ((bs.drop o).take m) (bad.at o m).isSome).reverse ++ s.out }
          pure true
    else if x.data.length < n then pure false
    else do
      let _ ← cmds.mapM fun y => bufWrite y (x.data.take n) x.dataBad
      pure true

/-- The work of `CBCAST`. -/
def cbcastBody : Cmd → M (Option CmdRes) := collBody cbcastBad cbcastWork cbcastOut fun _ => pure ()

/-- `CBCAST` (R357). -/
def execCbcast : Ctl → CK → State → Host.Outcome State Fault Refusal := collOp 0x62

end Sys2Proof.Machine
end

