-- ==== Sys2Proof/Machine/Kv.lean ====
section
/-! DEFINITION. The commands that change or query sequences (R76 to R84, R317 to R319, R322). -/

namespace Sys2Proof.Machine

/-- Zeros written over a run of device memory, as plain lines. -/
def State.zeroRange (s : State) (pa n : Nat) : State :=
  let inside (l : Nat) := decide (pa ≤ 64 * l) && decide (64 * l < pa + n)
  { s with mem := s.mem.zero pa (pa + n), lineTag := s.lineTag.filter fun e => !inside e.1, poison := s.poison.filter fun e => !inside e.1 }

/-- A status of R76 for a walk outcome. -/
def kvStatus (code : Nat) : Nat :=
  match code with
  | 0x11 => 0x02
  | 0x13 => 0x06
  | 0x17 => 0x0A
  | 0x18 => 0x07
  | _ => 0x03

/-! ### Blocks of a sequence -/

/-- The fields of a descriptor that a command goes by. -/
structure SeqInfo where
  d : Nat
  part : Nat
  bsz : Nat
  ar : Nat
  nl : Nat
  nh : Nat
  len : Nat
  root : Nat
  deriving DecidableEq, Repr

/-- A sequence of an MC that exists (R55, R56). -/
def State.seqInfo (s : State) (mc seq : Nat) : Option SeqInfo :=
  match s.seqPa mc seq with
  | none => none
  | some d =>
    let v := s.rd d 64
    if bit v 0 then some ⟨d, s.mcPart mc, bits v 2 1, bits v 3 3, bits v 15 8, bits v 23 16, bits v 48 24, bits v 111 64⟩ else none

/-- What a sequence that a command names ends it with before anything else: it is beyond reach, or its descriptor is poisoned (R416); or its BSZ is
reserved, which a supervisor can only have written there (R56). (DESIGN CHOICE, log entry 91) -/
def State.seqBad (s : State) (die : Nat) (q : SeqInfo) : Option Nat :=
  if !(s.reaches die q.d && s.reaches die q.root) then some 0x0A
  else if (s.poisoned q.d 64).isSome then some 0x07
  else if q.bsz = 3 then some 0x05
  else none

/-- A first-stage table taken from pool 13 and filled with zeros (R57), or none where the pool is empty. -/
def State.newTable (s : State) (part : Nat) : Option (Nat × State) :=
  match s.kvTake part 13 with
  | none => none
  | some (f, s) => some (f, s.zeroRange f 4096)

/-- The place of a leaf, with missing tables allocated and linked (R78 step 1): the place, or the status. -/
def State.pathAlloc (s : State) (die part layer head block : Nat) : Nat → Nat → Nat → Except Nat Nat × State
  | lvl, t, 0 =>
    let a := t + 8 * stageIndex lvl layer head block
    (if !s.reaches die a then .error 0x0A else if (s.poisoned a 8).isSome then .error 0x07 else .ok a, s)
  | lvl, t, fuel + 1 =>
    let a := t + 8 * stageIndex lvl layer head block
    let e := s.rd a 8
    if lvl = 1 ∧ !s.rootOk part t then (.error 0x03, s)
    else if !s.reaches die a then (.error 0x0A, s)
    else if (s.poisoned a 8).isSome then (.error 0x07, s)
    else if bit e 0 then
      (if s.stageOk part lvl (bits e 47 11 * 2048) then s.pathAlloc die part layer head block (lvl + 1) (bits e 47 11 * 2048) fuel else (.error 0x03, s))
    else match s.newTable part with
      | none => (.error 0x04, s)
      | some (f, s) => (s.wr a (f + 1) 8).pathAlloc die part layer head block (lvl + 1) f fuel

/-- A leaf that names a block of this package (R57). -/
def State.leafFor (s : State) (gbn cow : Nat) : Nat := 1 + 2 * cow + 2 ^ 4 * s.fabId + 2 ^ 12 * gbn

/-- A new block: a GBN of pool 0 and a frame of pool 1 + BSZ (R78 step 2): its GBN, entry and frame, or none where a pool is
empty. -/
def State.newBlock (s : State) (q : SeqInfo) (slot valid : Nat) : Option ((Nat × Nat × Nat) × State) :=
  match s.kvTake q.part 0 with
  | none => none
  | some (gbn, s1) =>
    match s1.kvTake q.part (1 + q.bsz), s1.gbtPa (gbn % 2 ^ 32) with
    | some (f, s2), some g =>
      let e := 4 + 2 ^ 4 * q.ar + 2 ^ 6 * valid + 2 ^ 16 + 2 ^ 32 * slot + 2 ^ 42 * q.part + 2 ^ 64 * (f % 2 ^ 48) + 2 ^ 130 * q.bsz
      some ((gbn % 2 ^ 32, g, f), (s2.wr g e 32).countBlock slot true)
    | _, _ => none

/-- A new block for a command (R78 step 2), or the status: a pool is empty, or its place is beyond reach (R163). -/
def State.newBlockFor (s : State) (c : Cmd) (q : SeqInfo) (slot valid : Nat) : Except Nat ((Nat × Nat × Nat) × State) :=
  match s.newBlock q slot valid with
  | none => .error 0x04
  | some (r, s1) => if s.reaches c.die r.2.1 && s.reaches c.die r.2.2 then .ok (r, s1) else .error 0x0A

/-- A row of a block: of K or of V, at a frame. -/
def rowAt (frame bsz : Nat) (v : Bool) (r : Nat) : Nat := frame + (if v then blockBytes bsz / 2 else 0) + r * rowBytes bsz

/-- A run of a block's bytes copied to another block, poison with them (R78, R81, R416). -/
def State.copyRun (s : State) (from_ : Nat) (t1 : LineTag) (into_ : Nat) (t2 : LineTag) (n who mc : Nat) : State :=
  let bad := s.poisoned from_ n
  let s := s.agentWrite 5 who mc t2 into_ (s.rdBytes t1 from_ n)
  if bad.isSome then s.poisonLines into_ n else s

/-- Rows 0 to n − 1 of K and V copied from a block into another, line by line, poison with them: payload of the command (R78, R129, R416). -/
def State.copyRows (s : State) (c : Cmd) (bsz n old slot new nslot : Nat) : State :=
  [false, true].foldl (init := s) fun s v =>
    (List.range (n * rowBytes bsz / 64)).foldl (init := s) fun s i =>
      let a := rowAt old bsz v 0 + 64 * i
      s.cmdStore c (.dev (rowAt new bsz v 0 + 64 * i) (s.slotTag nslot)) (s.rdBytes (s.slotTag slot) a 64) (s.poisoned a 64)

/-- Wait for a block that is not PRESENT (R72, R76): ABSENT where the KVWAIT of the command is 0. (DEDUCED, log entry 36) -/
def Cmd.kvStall (c : Cmd) (chip gbn : Nat) (ps : List Post) : M Nat := do
  if c.kvwait = 0 then
    M.change fun s => (if c.expired then ps.filter fun p => !p.isRack else ps).foldl State.applyPost s
    pure 0x09
  else M.stop (.stall (.kv 0 0 gbn ⟨0x12, 0x15, 0, kvInfo 0 0 0 0 chip gbn⟩)) ps

/-- A reference to the block that a leaf names goes: here, or at its owner; a decrement that cannot be sent is held, in order
(R80). -/
def State.dropLeaf (s : State) (leaf : Nat) : State :=
  let chip := bits leaf 11 4
  let gbn := bits leaf 43 12
  if chip = s.fabId then s.decBlock gbn else s.sendOwner chip (.peerDec chip gbn)

/-- What a command asks the owner of a block, by key (R61): the answer, or the status (R76). Where the block is missing it waits under R72, and
asks again; an append has the owner rack it to tier 0 first, with the key `rack` (R78 step 3). -/
def Cmd.askOwner (c : Cmd) (chip key op gbn arg : Nat) (rack : Option Nat := none) : M (Except Nat (List Byte × Option Nat)) := do
  let s ← get
  let has (k : Nat) := s.given.any fun g => g.agent == c.agent && g.key == k
  if !has key ∧ !s.peerUp chip then pure (.error 0x0A)
  else if !has key ∧ c.expired then pure (.error 0x09)
  else match ← c.askPeer chip key (kvAsk op gbn arg) with
    | .ok r => pure (.ok r)
    | .error 0x15 =>
      match rack with
      | none => pure (.error (← c.kvStall chip gbn [.reask c.agent key]))
      | some rk =>
        if !s.peerUp chip then pure (.error 0x0A)
        else if !has rk then pure (.error (← c.kvStall chip gbn (if c.expired then [] else [.peer c.agent chip rk (kvAsk 4 gbn 0)])))
        else match ← c.askPeer chip rk (kvAsk 4 gbn 0) with
          | .ok _ => pure (.error (← c.kvStall chip gbn [.reask c.agent key, .reask c.agent rk]))
          | .error st => pure (.error (if st = 0 then 0x03 else st))
    | .error code => pure (.error (if code = 0x19 then code else kvStatus code))

/-- A leaf written again (R57): TIER is the tier of its block now. -/
def State.leafNow (s : State) (leaf cow : Nat) : Nat :=
  let tier := match s.gbtPa (bits leaf 43 12) with
    | some g => s.gbtF g 1 0
    | none => bits leaf 3 2
  setBits (setBits leaf 1 1 cow) 3 2 tier

/-! ### KVNEW (R77) -/

/-- The work of `KVNEW`. -/
def kvnewBody (c : Cmd) : M CmdRes := do
  let d := c.desc.toNat
  let s ← get
  if bits d 21 20 = 3 ∨ bits d 31 23 ≠ 0 ∨ bits d 383 48 ≠ 0 then pure (.fail 0x06 0)
  else match s.seqPa c.mcid (bits d 19 0) with
    | none => pure (.fail 0x02 0)
    | some a =>
      if !s.reaches c.die a then pure (.fail 0x0A 0)
      else if (s.poisoned a 64).isSome then pure (.fail 0x07 0)
      else if s.seqF a 0 0 = 1 then pure (.fail 0x01 0)
      else match s.newTable (s.mcPart c.mcid) with
        | none => pure (.fail 0x04 0)
        | some (f, s) =>
          set (s.wr a (1 + 2 * bits d 21 20 + 8 * bits d 22 22 + 2 ^ 8 * bits d 39 32 + 2 ^ 16 * bits d 47 40 + 2 ^ 64 * f) 64)
          pure .good

/-! ### KVAPP (R78, R319) -/

/-- Rows 0 to n − 1 of K and V that an owner has delivered, written into a block as payload of the command; those that came poisoned poison
its lines (R416). -/
def State.putRows (s : State) (c : Cmd) (f bsz n slot : Nat) (bs : List Byte) (bad : Option Nat) : State :=
  let rb := rowBytes bsz
  (List.range n).foldl (init := s) fun s r =>
    (s.cmdStore c (.dev (rowAt f bsz false r) (s.slotTag slot)) ((bs.drop (r * rb)).take rb) bad).cmdStore c
      (.dev (rowAt f bsz true r) (s.slotTag slot)) ((bs.drop ((n + r) * rb)).take rb) bad

/-- Has the rack failed for which a command waits (R78 step 3)? -/
def Cmd.rackFailed (c : Cmd) (gbn : Nat) : Bool :=
  c.late != 0 && match c.wait with
    | some (.kv _ _ g _) => g == gbn
    | _ => false

/-- The block that rows from `w` on are written into, its first row here `w` (R78 steps 2 to 5): its entry and frame, its key slot, or
the status that ends the command. -/
def appTarget (c : Cmd) (q : SeqInfo) (a w key : Nat) : M (Except Nat (Nat × Nat × Nat)) := do
  let s ← get
  let e := s.rd a 8
  let slot := s.mcAsid c.mcid
  if bit e 0 = false then
    match s.newBlockFor c q slot 0 with
    | .error st => pure (.error st)
    | .ok ((gbn, g, f), s) =>
      set (s.wr a (s.leafFor gbn 0) 8)
      pure (.ok (g, f, slot))
  else
    let gbn := bits e 43 12
    if bits e 11 4 ≠ s.fabId then
      match ← c.askOwner (bits e 11 4) key 2 gbn w (some (2 ^ 25 + key)) with
      | .error st => pure (.error st)
      | .ok (bs, bad) =>
        match (← get).newBlockFor c q slot w with
        | .error st => pure (.error st)
        | .ok ((new, _, f), s) => do
          set ((s.putRows c f q.bsz w slot bs bad).wr a (s.leafFor new 0) 8)
          M.change (·.dropLeaf e)
          pure (.ok (((← get).gbtPa new).getD 0, f, slot))
    else if c.rackFailed gbn then pure (.error c.late)
    else match s.gbtWalk q.part (bits e 11 4) gbn q.bsz with
      | .out 0x15 _ _ =>
        match s.gbtPa gbn with
        | none => pure (.error 0x03)
        | some g =>
          if s.gbtF g 3 2 = 2 then pure (.error (← c.kvStall s.fabId gbn []))
          else if (s.kvTake (s.gbtF g 46 42) (1 + s.gbtF g 131 130)).isNone then pure (.error 0x04)
          else pure (.error (← c.kvStall s.fabId gbn [.rackIn gbn c.id]))
      | .out code _ _ => pure (.error (kvStatus code))
      | .bad _ => pure (.error 0x07)
      | .remote _ _ _ => pure (.error 0x0A)
      | .hit g _ _ loc kslot =>
        if !s.reaches c.die loc then pure (.error 0x0A)
        else if s.gbtF g 131 130 ≠ q.bsz then pure (.error 0x05)
        else if s.gbtF g 31 16 ≤ 1 then
          set (s.wr a (s.leafNow e 0) 8)
          pure (.ok (g, loc, kslot))
        else match s.newBlockFor c q slot w with
          | .error st => pure (.error st)
          | .ok ((new, g', f), s) =>
            let s := s.copyRows c q.bsz w loc kslot f slot
            set ((s.wr a (s.leafFor new 0) 8).decBlock gbn)
            pure (.ok (g', f, slot))

/-- The rows of one block of one (layer, kv-head): positions `p0` to `p1` − 1, the first being row `r0` of the command. Answers the
end of the command, if one does: a payload read whose granule fill fails ends it as R341 says. -/
def appBlock (c : Cmd) (q : SeqInfo) (layer head hi n p0 p1 : Nat) : M (Option CmdRes) := do
  let s ← get
  let d := c.desc.toNat
  let rb := rowBytes q.bsz
  match s.pathAlloc c.die q.part layer head (p0 / 64) 1 q.root 3 with
  | (.error st, s) =>
    set s
    pure (some (.fail st hi))
  | (.ok a, s) =>
    set s
    match ← appTarget c q a (p0 % 64) (1024 * hi + p0 / 64 % 2) with
    | .error st => pure (some (.fail st hi))
    | .ok (g, f, slot) =>
      let row (base p : Nat) := base + rb * (hi * n + (p - q.len))
      let lines := ((List.range (p1 - p0)).map (p0 + ·)).flatMap fun p => (List.range (rb / 64)).map fun i => (p, 64 * i)
      match ← M.attempt (lines.mapM fun (p, i) => do
          pure (p, i, ← c.readOwn (row (bits d 84 64) p + i) 64, ← c.readOwn (row (bits d 116 96) p + i) 64)) with
      | .error fi => pure (some (.walk 0x0B hi fi))
      | .ok rows =>
        M.change fun s => rows.foldl (init := s) fun s (p, i, k, v) =>
          let put (s : State) (isV : Bool) (r : List Byte × Option Nat) :=
            s.cmdStore c (.dev (rowAt f q.bsz isV (p % 64) + i) (s.slotTag slot)) r.1 r.2
          put (put s false k) true v
        M.change (·.setGbtF g 12 6 (p1 - 64 * (p0 / 64)))
        pure none

/-- The runs of positions from `p` to `stop`, cut at block ends. -/
def blockRuns (p stop : Nat) : List (Nat × Nat) :=
  ((List.range 3).map fun i => (max p ((p / 64 + i) * 64), min stop ((p / 64 + i + 1) * 64))).filter fun r => r.1 < r.2

/-- What the LEN updates of a sequence carry grows by what a command has written (R79). -/
def State.seqWrote (s : State) (c : Cmd) (d : Nat) : State :=
  { s with seqView := s.seqView.set [] d (s.alive (addIds (FMap.get [] s.seqView d) (s.viewOf c))) }

/-- The work of `KVAPP`. -/
def kvappBody (c : Cmd) : M CmdRes := do
  let d := c.desc.toNat
  let n := bits d 49 44 + 1
  let heads := bits d 43 36 + 1
  let s ← get
  if bits d 63 51 ≠ 0 ∨ bits d 95 85 ≠ 0 ∨ bits d 383 117 ≠ 0 ∨ bits d 69 64 ≠ 0 ∨ bits d 101 96 ≠ 0 then pure (.fail 0x06 0)
  else match s.seqInfo c.mcid (bits d 19 0) with
    | none => pure (.fail 0x02 0)
    | some q =>
      let p := FMap.get 0 s.pendRows q.d
      match s.seqBad c.die q with
      | some st => pure (.fail st 0)
      | none =>
      if bits d 27 20 > q.nl ∨ bits d 35 28 + heads - 1 > q.nh ∨ q.len + n > 2 ^ 24 then pure (.fail 0x03 0)
      else if p ≠ 0 ∧ p ≠ n then pure (.fail 0x05 0)
      else
        let pairs := (List.range heads).flatMap fun hi => (blockRuns q.len (q.len + n)).map fun r => (hi, r)
        match ← unitsGo (fun i => do
            match pairs[i]? with
            | none => pure none
            | some (hi, r) => appBlock c q (bits d 27 20) (bits d 35 28 + hi) hi n r.1 r.2) 0 pairs.length with
        | some r => pure r
        | none =>
          M.change fun s =>
            if bit d 50 then
              let g := match s.job c.mcid with
                | some j => c.rank / j.size
                | none => 0
              { ((s.seqWrote c q.d).setSeqF q.d 48 24 (q.len + n)) with pendRows := s.pendRows.set 0 q.d 0 }.count c.mcid g 8 n
            else { s.seqWrote c q.d with pendRows := s.pendRows.set 0 q.d n }
          pure .good

/-! ### KVTRUNC and KVFREE (R82, R83) -/

/-- The place of a leaf, or the status of the walk's outcome: MALFORMED where an entry on the path or the leaf has V = 0 (R76). -/
def State.leafAt (s : State) (q : SeqInfo) (layer head block : Nat) : Except Nat Nat :=
  if !s.rootOk q.part q.root then .error 0x03
  else match s.stageWalk q.part layer head block 1 q.root 3 with
    | .leaf a => if bit (s.rd a 8) 0 then .ok a else .error (kvStatus 0x13)
    | .out code => .error (kvStatus code)
    | .bad _ => .error 0x07

/-- The place of the leaf of a block, if there is one. -/
def State.leafPlace (s : State) (q : SeqInfo) (layer head block : Nat) : Option Nat := (s.leafAt q layer head block).toOption

/-- A block of a sequence is released and its leaf cleared (R82). Or the status that ends the command: an entry on the path is invalid, or the
block is beyond the GBT or of another partition (R62, R76). (DEDUCED, log entry 35) -/
def State.releaseLeaf (s : State) (q : SeqInfo) (layer head block : Nat) : Except Nat State :=
  match s.leafAt q layer head block with
  | .error st => .error st
  | .ok a =>
    let e := s.rd a 8
    let mine := match s.gbtPa (bits e 43 12) with
      | none => false
      | some g => s.gbtF g 46 42 == q.part
    if bits e 11 4 = s.fabId ∧ !mine then .error 0x03
    else .ok ((s.dropLeaf e).wr a 0 8)

/-- The tail of a truncated sequence inside a block: VALID of an unshared one (R82). -/
def State.truncTail (s : State) (q : SeqInfo) (layer head n : Nat) : Except Nat State :=
  if n % 64 = 0 then .ok s
  else match s.leafAt q layer head (n / 64) with
    | .error st => .error st
    | .ok a =>
      let e := s.rd a 8
      if bits e 11 4 ≠ s.fabId then .ok s
      else match s.gbtPa (bits e 43 12) with
        | none => .error 0x03
        | some g => if s.gbtF g 46 42 ≠ q.part then .error 0x03 else .ok (if s.gbtF g 31 16 = 1 then s.setGbtF g 12 6 (n % 64) else s)

/-- Some steps on a state until one fails; the status, and how many were done. -/
def stepsUntil (f : Nat → State → Except Nat State) : Nat → Nat → State → Option (Nat × Nat) × State
  | _, 0, s => (none, s)
  | i, n + 1, s =>
    match f i s with
    | .error st => (some (st, i), s)
    | .ok s => stepsUntil f (i + 1) n s

/-- One (layer, kv-head) of a sequence truncated (R82). -/
def State.truncPair (s : State) (q : SeqInfo) (n pair : Nat) : Except Nat State :=
  let layer := pair / (q.nh + 1)
  let head := pair % (q.nh + 1)
  let first := (n + 63) / 64
  match stepsUntil (fun i s => s.releaseLeaf q layer head (first + i)) 0 ((q.len + 63) / 64 - first) s with
  | (some (st, _), _) => .error st
  | (none, s) => s.truncTail q layer head n

/-- Truncate a sequence to a length below its own (R82): LEN is written, or the walk that fails ends it, with the pairs done before it.
(DEDUCED, log entry 35) -/
def State.truncSeq (s : State) (q : SeqInfo) (n : Nat) : Option (Nat × Nat) × State :=
  match stepsUntil (fun i s => s.truncPair q n i) 0 ((q.nl + 1) * (q.nh + 1)) s with
  | (none, s) => (none, s.setSeqF q.d 48 24 n)
  | bad => bad

/-- The work of `KVTRUNC`: with N ≥ LEN the sequence does not change (R82); the pending row count is cleared (R319). (DEDUCED, log entry 35) -/
def kvtruncBody (c : Cmd) : M CmdRes := do
  let d := c.desc.toNat
  let s ← get
  if bits d 63 20 ≠ 0 ∨ bits d 383 89 ≠ 0 then pure (.fail 0x06 0)
  else match s.seqInfo c.mcid (bits d 19 0) with
    | none => pure (.fail 0x02 0)
    | some q =>
      match s.seqBad c.die q with
      | some st => pure (.fail st 0)
      | none =>
      if q.len ≤ bits d 88 64 then
        set { s with pendRows := s.pendRows.set 0 q.d 0 }
        pure .good
      else match s.truncSeq q (bits d 88 64) with
        | (some (st, done), s) =>
          set s
          pure (.fail st done)
        | (none, s) =>
          set { s with pendRows := s.pendRows.set 0 q.d 0 }
          pure .good

/-- The first-stage tables under an entry go back to pool 13, those below first (R83). -/
def State.freeTables (s : State) (part : Nat) (t : Nat) : Nat → State
  | 0 => s.kvPut part 13 t
  | fuel + 1 =>
    let n := if fuel ≥ 1 then 256 else 512
    let s := (List.range n).foldl (init := s) fun s i =>
      let e := s.rd (t + 8 * i) 8
      if bit e 0 ∧ s.stageOk part (3 - fuel) (bits e 47 11 * 2048) then s.freeTables part (bits e 47 11 * 2048) fuel else s
    s.kvPut part 13 t

/-- Free a sequence (R83): truncated to 0, its tables returned, V cleared; or the walk that ends it. -/
def State.freeSeq (s : State) (q : SeqInfo) : Option (Nat × Nat) × State :=
  if !s.rootOk q.part q.root then (some (0x03, 0), s)
  else match s.truncSeq q 0 with
    | (none, s) => (none, { (s.freeTables q.part q.root 3).setSeqF q.d 0 0 0 with pendRows := s.pendRows.set 0 q.d 0, seqView := s.seqView.erase q.d })
    | bad => bad

/-- The work of `KVFREE`. -/
def kvfreeBody (c : Cmd) : M CmdRes := do
  let d := c.desc.toNat
  let s ← get
  if bits d 383 20 ≠ 0 then pure (.fail 0x06 0)
  else match s.seqInfo c.mcid (bits d 19 0) with
    | none => pure (.fail 0x02 0)
    | some q =>
      match s.seqBad c.die q with
      | some st => pure (.fail st 0)
      | none => do
        let (bad, s) := s.freeSeq q
        set s
        pure (match bad with
          | some (st, done) => .fail st done
          | none => .good)

/-! ### KVFORK (R81) -/

/-- The leaf of a fork's destination (R81): the block shared, or its first `rows` rows copied into a private block. Answers the status
that ends the command, if one does. (DEDUCED, log entry 36) -/
def forkBlock (c : Cmd) (src dst : SeqInfo) (layer head block rows : Nat) (share : Bool) (key : Nat) : M (Option Nat) := do
  let s ← get
  match s.leafAt src layer head block with
  | .error st => pure (some st)
  | .ok a =>
    let e := s.rd a 8
    let chip := bits e 11 4
    let gbn := bits e 43 12
    let slot := s.mcAsid c.mcid
    match s.pathAlloc c.die dst.part layer head block 1 dst.root 3 with
      | (.error st, s) =>
        set s
        pure (some st)
      | (.ok b, s) =>
        set s
        -- a private block for D, its rows written by `put`
        let copy (put : Nat → State → State) : M (Option Nat) := do
          match (← get).newBlockFor c dst slot rows with
          | .error st => pure (some st)
          | .ok ((new, _, f), s) =>
            set ((put f s).wr b (s.leafFor new 0) 8)
            pure none
        let copyHere (frame kslot : Nat) := copy fun f s => s.copyRows c src.bsz rows frame kslot f slot
        let shared (leaf : Nat) (s : State) : State := (s.wr a leaf 8).wr b leaf 8
        if chip ≠ s.fabId then
          let copyAway : M (Option Nat) := do
            match ← c.askOwner chip (2 ^ 24 + key) 2 gbn rows with
            | .error st => pure (some st)
            | .ok (bs, bad) => copy fun f s => s.putRows c f src.bsz rows slot bs bad
          if !share then copyAway
          else match ← c.askOwner chip key 3 gbn 0 with
            | .error 0x19 => copyAway
            | .error st => pure (some st)
            | .ok (bs, _) => do
              M.change (shared (setBits (setBits e 1 1 1) 3 2 (bits (ofBytes (bs.take 1)) 1 0)))
              pure none
        else match s.gbtWalk src.part chip gbn src.bsz, s.gbtPa gbn with
          | .hit g _ _ loc kslot, _ =>
            if s.gbtF g 131 130 ≠ src.bsz then pure (some 0x05)
            else if share ∧ s.gbtF g 31 16 < 65535 then
              set (shared (s.leafNow e 1) (s.setGbtF g 31 16 (s.gbtF g 31 16 + 1)))
              pure none
            else if !s.reaches c.die loc then pure (some 0x0A)
            else copyHere loc kslot
          | .out 0x15 _ _, some g =>
            if share ∧ s.gbtF g 31 16 < 65535 then
              set (shared (s.leafNow e 1) (s.setGbtF g 31 16 (s.gbtF g 31 16 + 1)))
              pure none
            else pure (some (← c.kvStall chip gbn (if s.gbtF g 4 4 = 1 ∧ s.gbtF g 3 2 = 3 then [.rack gbn] else [])))
          | .out code _ _, _ => pure (some (kvStatus code))
          | _, _ => pure (some 0x07)

/-- The references that owners have granted a fork, or have still to grant, for leaves that it has not written go back (R81): `key` is that of
the request, `leaf` that of S. -/
def State.dropGrant (s : State) (c : Cmd) (key leaf : Nat) : State :=
  let s := if s.given.any fun g => g.agent == c.agent && g.key == key && (g.data.head? == some 1 || g.data.head? == some 3) then s.dropLeaf leaf else s
  s.forgetRows fun q => q.agent == c.agent && q.key == key

/-- A fork that fails releases the references it has taken and D's tables (R81); the leaves of S are as they were (R317). `s0` is the state
before it. -/
def State.undoFork (s s0 : State) (c : Cmd) (src dst : SeqInfo) : State :=
  let blocks := (dst.len + 63) / 64
  let places := (List.range ((src.nl + 1) * (src.nh + 1) * blocks)).map fun i => (i, i / blocks / (src.nh + 1), i / blocks % (src.nh + 1), i % blocks)
  let s := places.foldl (init := s) fun s (i, l, h, b) => match s.leafPlace dst l h b, s0.leafPlace src l h b with
    | some a, _ => s.dropLeaf (s.rd a 8)
    | none, some a => s.dropGrant c i (s0.rd a 8)
    | none, none => s
  let s := places.foldl (init := s) fun s (_, l, h, b) => match s0.leafPlace src l h b with
    | none => s
    | some a => s.wr a (s0.rd a 8) 8
  s.freeTables dst.part dst.root 3

/-- The work of `KVFORK`. -/
def kvforkBody (c : Cmd) : M CmdRes := do
  let d := c.desc.toNat
  let n := bits d 88 64
  let s0 ← get
  if bits d 31 20 ≠ 0 ∨ bits d 63 52 ≠ 0 ∨ bits d 383 89 ≠ 0 then pure (.fail 0x06 0)
  else match s0.seqInfo c.mcid (bits d 19 0), s0.seqPa c.mcid (bits d 51 32) with
    | some q, some a =>
      match s0.seqBad c.die q with
      | some st => pure (.fail st 0)
      | none =>
      if !s0.reaches c.die a then pure (.fail 0x0A 0)
      else if (s0.poisoned a 64).isSome then pure (.fail 0x07 0)
      else if s0.seqF a 0 0 = 1 then pure (.fail 0x01 0)
      else if n > q.len then pure (.fail 0x03 0)
      else match s0.newTable q.part with
        | none => pure (.fail 0x04 0)
        | some (root, s) =>
          set s
          let dst : SeqInfo := { q with d := a, len := n, root := root }
          let blocks := (n + 63) / 64
          let pairs := (q.nl + 1) * (q.nh + 1) * blocks
          match ← unitsGo (fun i => do
              let b := i % blocks
              let share := decide (b < n / 64) || n == q.len
              let pair := i / blocks
              match ← forkBlock c q dst (pair / (q.nh + 1)) (pair % (q.nh + 1)) b (if b < n / 64 then 64 else n % 64) share i with
              | none => pure none
              | some st => pure (some (.fail st 0))) 0 pairs with
          | some r =>
            M.change (·.undoFork s0 c q dst)
            pure r
          | none =>
            M.change fun s =>
              let s := { s with seqView := s.seqView.set [] a (s.alive (FMap.get [] s.seqView q.d)) }.seqWrote c a
              { s.wr a (1 + 2 * q.bsz + 8 * q.ar + 2 ^ 8 * q.nl + 2 ^ 16 * q.nh + 2 ^ 24 * n + 2 ^ 64 * root) 64 with
                  pendRows := s.pendRows.set 0 a 0 }
            pure .good
    | _, _ => pure (.fail 0x02 0)

/-! ### KVQRY (R322) -/

/-- The result of `KVQRY`, written into its descriptor. -/
def queryResult (gbte leaf len : Nat) : List Byte :=
  toBytes 32 (gbte + 2 ^ 64 * (bits leaf 0 0 + 2 * bits leaf 1 1 + 4 * bits leaf 3 2 + 2 ^ 4 * bits leaf 11 4 + 2 ^ 12 * bits leaf 43 12) + 2 ^ 128 * len)

/-- The work of `KVQRY`. -/
def kvqryBody (c : Cmd) : M CmdRes := do
  let d := c.desc.toNat
  let s ← get
  let layer := bits d 27 20
  let head := bits d 35 28
  let block := bits d 87 70
  let write (gbte leaf len : Nat) := c.writePad c.rank ((c.off + 16) % spSize) (queryResult gbte leaf len) none false
  if bits d 63 36 ≠ 0 ∨ bits d 127 88 ≠ 0 then pure (.fail 0x06 0)
  else match s.seqInfo c.mcid (bits d 19 0) with
    | none => pure (.fail 0x02 0)
    | some q =>
      match s.seqBad c.die q with
      | some st => pure (.fail st 0)
      | none =>
      if layer > q.nl ∨ head > q.nh then pure (.fail 0x03 0)
      else if !s.rootOk q.part q.root then pure (.fail 0x03 0)
      else match s.stageWalk q.part layer head block 1 q.root 3 with
        | .out 0x13 =>
          write 0 0 q.len
          pure .good
        | .out code => pure (.fail (kvStatus code) 0)
        | .bad _ => pure (.fail 0x07 0)
        | .leaf a =>
          let e := s.rd a 8
          if bit e 0 = false then
            write 0 0 q.len
            pure .good
          else if bits e 11 4 ≠ s.fabId then
            if !s.peerUp (bits e 11 4) then
              write 0 e q.len
              pure (.fail 0x0A 0)
            else match ← c.askOwner (bits e 11 4) 0 5 (bits e 43 12) 0 with
              | .error st => pure (.fail st 0)
              | .ok (bs, _) =>
                write (ofBytes (bs.take 8)) e q.len
                pure .good
          else match s.gbtPa (bits e 43 12) with
            | none => pure (.fail 0x03 0)
            | some g =>
              if (s.poisoned g 32).isSome then pure (.fail 0x07 0)
              else if s.gbtF g 46 42 ≠ q.part then pure (.fail 0x03 0)
              else
                write (s.rd g 8) e q.len
                pure .good

/-! ### Issue -/

/-- `KVNEW` (R77, R318). -/
def execKvnew : Ctl → CK → State → Host.Outcome State Fault Refusal := engineOp 0x40
/-- `KVAPP` (R78, R318). -/
def execKvapp : Ctl → CK → State → Host.Outcome State Fault Refusal := engineOp 0x41
/-- `KVTRUNC` (R82, R318). -/
def execKvtrunc : Ctl → CK → State → Host.Outcome State Fault Refusal := engineOp 0x42
/-- `KVFORK` (R81, R318). -/
def execKvfork : Ctl → CK → State → Host.Outcome State Fault Refusal := engineOp 0x43
/-- `KVFREE` (R83, R318). -/
def execKvfree : Ctl → CK → State → Host.Outcome State Fault Refusal := engineOp 0x44
/-- `KVQRY` (R322, R318). -/
def execKvqry : Ctl → CK → State → Host.Outcome State Fault Refusal := engineOp 0x47

end Sys2Proof.Machine
end

