-- ==== Sys2Proof/Machine/Attest.lean ====
section
/-! DEFINITION. The security engine's records: usage records and their ring (R392 to R394). -/

namespace Sys2Proof.Machine

/-! ### Usage records (R393) -/

/-- A signature under the device identity key (R394, R395). (DEDUCED, log entry 15) -/
def pssSign (message : List Byte) (salt : BitVec 256) : BitVec 3072 := rsaPss Config.idModulus Config.idExponent message salt

/-- The chain of a partition. -/
def State.sealOf (s : State) (p : Nat) : Seal := FMap.get ⟨0, 0, 0, [], 2 ^ 20⟩ s.seals p

/-- The first ten counters of a partition's running totals, as bytes (R392, R393). -/
def State.totalBytes (s : State) (p : Nat) : List Byte :=
  (List.range 10).flatMap fun i => toBytes 8 (FMap.get 0 s.totals (16 * p + i))

/-- The bytes of a usage record (R393). `flags` holds USEAL in bit 1 and FINAL in bit 2. -/
def State.usageBytes (s : State) (p flags : Nat) : List Byte :=
  let e := s.sealOf p
  toBytes 2 1 ++ toBytes 1 p ++ toBytes 1 flags ++ toBytes 4 0 ++ toBytes 8 e.seqno ++ toBytes 8 e.frame0 ++ toBytes 8 s.frame ++
    toBytes 32 e.prev.toNat ++ s.totalBytes p ++ toBytes 32 Config.idHash.toNat ++ List.replicate 80 0

/-- Write a sealed record to the ring of USERING, if it is installed and not full: the entry, then TAIL (R393, R365). -/
def State.ringSeal (s : State) (p : Nat) (e : BitVec 2048 × BitVec 3072) : Option State :=
  let c := s.csrN (0xCC0 + p)
  let base := bits c 47 12 * 4096
  let n := 2 ^ bits c 5 1
  let tail := s.rd base 8
  let head := s.rd (base + 8) 8
  if bit c 0 = false ∨ (tail + 2 ^ 64 - head) % 2 ^ 64 ≥ n then none
  else
    let s := s.wr (base + 64 + 1024 * (tail % n)) (e.1.toNat + 2 ^ 2048 * e.2.toNat) 1024
    some (s.wr base ((tail + 1) % 2 ^ 64) 8)

/-- Records that are held are written in order as far as the ring takes them (R393). -/
def State.flushSeals (s : State) (p : Nat) : State :=
  (s.sealOf p).held.foldl (init := s) fun s e =>
    -- an entry that does not fit keeps those behind it waiting
    if (s.sealOf p).held.head? != some e then s
    else match s.ringSeal p e with
      | none => s
      | some s => { s with seals := s.seals.insert p { s.sealOf p with held := (s.sealOf p).held.drop 1 } }

/-- Seal the usage record of a partition (R393): the next interval starts at the seal. (DEDUCED, log entry 56) -/
def State.sealUsage (s : State) (p : Nat) (useal final : Bool) : State :=
  let e := s.sealOf p
  let signed := e.seqno % 16 == 15 || useal || final
  let flags := signed.toNat + 2 * useal.toNat + 4 * final.toNat
  let body := s.usageBytes p flags
  let sig := if signed then pssSign body (Config.free 256 s.tick .salt p e.seqno) else 0
  let e := { e with seqno := e.seqno + 1, frame0 := s.frame, prev := sha256 body, held := e.held ++ [(BitVec.ofNat 2048 (ofBytes body), sig)] }
  let s := { s with seals := s.seals.insert p e,
                    totals := s.totals.filter fun t => !(decide (16 * p ≤ t.1) && decide (t.1 < 16 * p + 16)) }
  s.flushSeals p

end Sys2Proof.Machine
end

