-- ==== Sys2Proof/Machine/Privileged.lean ====
section
/-! DEFINITION. The privileged operations of R271 but for `PCFG`: `MCLD`, `MCST`, `KSET`, `RINGF`, `DISPATCH`, `SIGWAIT`, `TLBINV`,
`USEAL` (R272 to R278). -/

namespace Sys2Proof.Machine

/-! ### The common form (R271) -/

/-- A result word: a status and a result. -/
abbrev PrivRes := Nat × Nat

/-- A privileged operation: its level, a full fence at `.PKG` before and after, its result word in XD (R271). -/
def privOp (level : Nat) (c : Ctl) (o : SR) (m : Nat → Nat → Nat → M PrivRes) : State → Host.Outcome State Fault Refusal :=
  slotOp c do
    let s ← get
    M.need (decide (level ≤ s.core.pl.toNat)) (.fault privilege)
    ordering do
      M.change (·.fullFence 3)
      let (st, r) ← m (s.getX o.xa.toNat).toNat (s.getX o.xb.toNat).toNat (s.getX o.xc.toNat).toNat
      M.change fun s => (s.fullFence 3).putX o.xd.toNat (BitVec.ofNat 64 (st + 2 ^ 8 * r)) 1

/-- Does the executing task reach an MC (R271)? -/
def State.reachesMc (s : State) (m : Nat) : Bool := s.core.pl.toNat == 2 || s.holds s.core.part 2 m

/-- Does the executing task reach an ASID and its key slot (R271)? -/
def State.reachesAsid (s : State) (a : Nat) : Bool := s.core.pl.toNat == 2 || s.asidPart a == s.core.part

/-- The MCB of an MC lies in a frame that exists. -/
def needMcb (m : Nat) : M Unit := do
  let s ← get
  M.need (s.frameOk (s.mcbPa m)) (.hole (s.mcbPa m))

/-- Has a hitch popped a record of an MC whose job has not started (R272)? -/
def State.hitching (s : State) (m : Nat) : Bool := s.plans.any (·.mcid == m)

/-! ### MCLD and MCST (R272) -/

/-- The status of a buffer operand, and the status of its MC. -/
def State.mcbStatus (s : State) (xa xb : Nat) : Nat :=
  if xa ≥ 2 ^ 14 ∨ xb ≥ 2 ^ 52 ∨ xb % 64 ≠ 0 then 0x01 else if !s.reachesMc xa then 0x03 else 0

/-- `MCLD` (R272). -/
def execMcld (c : Ctl) (o : SR) : State → Host.Outcome State Fault Refusal :=
  privOp 1 c o fun xa xb _ => do
    let st := (← get).mcbStatus xa xb
    if st ≠ 0 then pure (st, 0)
    else
      needMcb xa
      needClean ((← get).mcbPa xa) 256
      storeBytes xb (toBytes 256 ((← get).mcb xa)) false none
      pure (0, 0)

/-- The fields of an MCB, each as its first and last bit (R147). -/
def mcbFields : List (Nat × Nat) :=
  [(3, 0), (6, 4), (12, 8), (25, 16), (35, 26), (38, 36), (40, 39), (41, 41), (42, 42), (50, 48), (111, 64), (132, 128), (175, 140),
    (243, 192), (307, 256), (351, 320), (383, 352), (415, 384), (431, 416), (479, 448), (511, 480), (563, 512), (623, 576), (687, 640),
    (755, 704), (799, 768), (895, 832), (911, 896), (919, 912), (927, 920), (928, 928), (1023, 960), (1063, 1024)]

/-- The fields that only the device writes (R147). -/
def mcbDevice : List (Nat × Nat) := [(351, 320), (1023, 960), (1063, 1024)]

/-- The fields that `MCST` may change while the MC is ACTIVE or HALTED (R148); TSOFFSET while the partition is PAUSED (R391). -/
def mcbLive (paused : Bool) : List (Nat × Nat) :=
  [(6, 4), (431, 416), (479, 448), (511, 480), (799, 768)] ++ (if paused then [(895, 832)] else [])

/-- Some fields of an MCB taken from another. (DESIGN CHOICE, log entry 45) -/
def copyFields (fs : List (Nat × Nat)) (into_ from_ : Nat) : Nat := fs.foldl (fun v (hi, lo) => setBits v hi lo (bits from_ hi lo)) into_

/-- An image as it is stored: reserved fields zero (R8), device fields unchanged (R147). (DESIGN CHOICE, log entry 45) -/
def mcbImage (img old : Nat) : Nat := copyFields mcbDevice (copyFields mcbFields 0 img) old

/-- The transitions of R149 that `MCST` makes. -/
def mcstMoves (old new : Nat) : Bool :=
  old == new || [(0, 1), (1, 4), (1, 0), (3, 1), (3, 4), (3, 0), (4, 1), (4, 0)].contains (old, new)

/-- The PA fields of an image whose STATE is not FREE name memory granted to its partition: the tables, the save area of the job's tasks and the
counter block whole (R147, R55, R373, R392, R380). -/
def State.mcbPas (s : State) (v : Nat) : Bool :=
  let p := bits v 12 8
  let table := bits v 191 128
  let tasks := 2 ^ bits v 38 36 * (bits v 40 39 + 1)
  s.frameValid p (bits v 111 64) && s.rangeValid p (bits v 623 576) (0x340000 * tasks) &&
    (bits v 687 640 == 0 || s.rangeValid p (bits v 687 640) 128) &&
    (table == 0 || s.rangeValid p (bits v 175 140 * 4096) (64 * 2 ^ bits v 132 128))

/-- Does an image break a constraint of R147, R13, R55, or of R272 at PL1? KSLOT must be owned by PART whatever the STATE: only the PA fields of
a FREE image are exempt (R147). No outcome is stated for a steep-list base that is not 64-byte-aligned (R35): it is stored, and the list runs
from it. (DESIGN CHOICE, log entry 90) -/
def State.mcbMalformed (s : State) (m v : Nat) : Bool :=
  let st := bits v 3 0
  let p := bits v 12 8
  let asid := bits v 25 16
  let k := s.core
  decide (6 ≤ st) || decide (17 ≤ p) || decide (5 ≤ bits v 38 36) || decide (21 ≤ bits v 132 128) || bits v 78 64 != 0 ||
    bits v 193 192 != 0 || bits v 517 512 != 0 || bits v 587 576 != 0 || bits v 645 640 != 0 ||
    (k.pl.toNat == 1 && (p != k.part || s.asidPart asid != k.part || s.asidPart (bits v 35 26) != k.part)) ||
    s.asidPart (bits v 35 26) != p || (st != 0 && !s.mcbPas v) ||
    ([1, 2, 3, 5].contains st && s.mcs.any fun e => e.1 != m && s.mcLive e.1 && s.mcAsid e.1 == asid && s.mcbF e.1 111 64 != bits v 111 64)

/-- The replay window of an MC cleared (R183). -/
def State.clearWindow (s : State) (m : Nat) : State := s.wr (s.csrF (0x05C + m / 4096) 47 0 + 16 * (m % 4096)) 0 16

/-- `MCST` of an image (R272): the status, and what it changes. A change of STATE while the MC is ACTIVE or HALTED is a change of a field
that R148 does not list, and ends with BUSY, although it is also a transition that R149 does not give. (DESIGN CHOICE, log entry 98) Every
image stored with a non-zero STEEPBASE starts the list, whatever its STATE and although the base may be the one before (R36). (DESIGN
CHOICE, log entry 90) -/
def State.mcst (s : State) (m img : Nat) : Nat × State :=
  let old := s.mcb m
  let v := mcbImage img old
  let was := bits old 3 0
  let st := bits v 3 0
  let busy := was == 2 || was == 5 || s.hitching m
  let paused := s.csrF (0xCA0 + bits old 12 8) 2 0 == 2
  if s.mcbMalformed m v then (0x01, s)
  else if busy && copyFields (mcbLive paused) old v != v then (0x02, s)
  else if !busy && !mcstMoves was st then (0x07, s)
  else
    let s := s.setMcb m v
    let s := if was = 0 ∧ st = 1 then s.clearWindow m else s
    let s := if st = 0 then s.discardRecs m else s
    (0x00, s.startSteep m)

/-- `MCST` (R272). -/
def execMcst (c : Ctl) (o : SR) : State → Host.Outcome State Fault Refusal :=
  privOp 1 c o fun xa xb _ => do
    let st := (← get).mcbStatus xa xb
    if st ≠ 0 then pure (st, 0)
    else
      needMcb xa
      needClean ((← get).mcbPa xa) 256
      let img ← loadBytes xb 256
      let (st, s) := (← get).mcst xa (ofBytes img)
      set s
      pure (st, 0)

/-! ### KSET (R273) -/

/-- What the lines of a slot hold turns undefined where its key is replaced under live translations of its ASID; without one, each line that is
dirty in a cache then, which a free value tells (R28). (DEDUCED, log entry 10) -/
def State.loseLines (s : State) (slot : Nat) : State :=
    let live := s.tlb.any (·.asid == slot)
    let mine := s.lineTag.filter fun e => e.2 = s.slotTag slot && (live || (Config.free 1 s.tick .wrongKey e.1 (slot + 1024)) == 1)
    mine.foldl (fun s e => { s with mem := s.mem.writeLE (64 * e.1) (Config.free 512 s.tick .wrongKey e.1 slot).toNat 64 }) s

/-- Every key of a slot replaced, and the replay windows of its MCs cleared (R273). -/
def State.rekey (s : State) (slot : Nat) (key : BitVec 768) : State :=
  let s := { s.loseLines slot with keys := s.keys.insert slot key }
  s.mcs.foldl (fun s e => if s.mcbF e.1 35 26 = slot then s.clearWindow e.1 else s) s

/-- Fresh random keys (R26). -/
def State.randomKey (s : State) (slot : Nat) : State := s.rekey slot (Config.free 768 s.tick .key slot 0)

/-- `KSET` (R273). -/
def execKset (c : Ctl) (o : SR) : State → Host.Outcome State Fault Refusal :=
  privOp 1 c o fun xa xb _ => do
    let s ← get
    if xa ≥ 2 ^ 10 ∨ xb ≥ 2 ^ 52 then pure (0x01, 0)
    else if !s.reachesAsid xa then pure (0x03, 0)
    else
      let key ← if xb = 0 then pure (Config.free 768 s.tick .key xa 0) else pure (BitVec.ofNat 768 (ofBytes (← loadBytes xb 96)))
      if FMap.get 0 s.kvCount xa ≠ 0 then pure (0x02, 0)
      else
        M.change (·.rekey xa key)
        pure (0, 0)

/-! ### RINGF (R274) -/

/-- Is a post the page request of an absent host page? -/
def Post.isPri : Post → Bool
  | .pri _ => true
  | _ => false

/-- One step of `RINGF`: none where the step met an absent host page, whose page request is sent. -/
def ringfStep (m : Nat) : M (Option RingOut) := fun s =>
  match ringStep m s with
  | .ok (r, s') => .ok (some r, s')
  | .error (.stall w, ps) => if ps.any Post.isPri then .ok (none, ps.foldl State.applyPost s) else .error (.stall w, ps)
  | .error e => .error e

/-- Up to `n` steps; answers the entries consumed and the code that R274 gives. -/
def ringfGo (m : Nat) : Nat → Nat → Nat → M (Nat × Nat)
  | 0, used, last => pure (used, last)
  | n + 1, used, last => do
    let head := (← get).mcbF m 351 320
    let r ← ringfStep m
    let used := if (← get).mcbF m 351 320 = head then used else used + 1
    match r with
    | none => pure (used, 0xFD)
    | some .empty => pure (used, last)
    | some .badMark => do
      M.change fun s => { s with ringPend := s.ringPend.erase m }
      pure (used, last)
    | some (.failed _ _) => pure (used, 0xFE)
    | some (.pushed st) => if st = 2 ∨ st = 3 then pure (used, st) else ringfGo m n used st

/-- `RINGF` (R274). -/
def execRingf (c : Ctl) (o : SR) : State → Host.Outcome State Fault Refusal :=
  privOp 1 c o fun xa xb _ => do
    if xa ≥ 2 ^ 14 ∨ xb ≥ 2 ^ 16 then pure (0x01, 0)
    else if !(← get).reachesMc xa then pure (0x03, 0)
    else
      needMcb xa
      let (used, last) ← ringfGo xa xb 0 0xFF
      pure (0, used + 2 ^ 16 * last)

/-! ### DISPATCH (R275) -/

/-- The checks of the operands of `DISPATCH`. -/
def State.dispatchStatus (s : State) (xa xb : Nat) : Nat :=
  if xa ≥ 2 ^ 14 ∨ xb ≥ 2 ^ 6 ∨ bits xb 3 2 ≠ 0 ∨ bits xb 1 0 = 3 then 0x01 else if !s.reachesMc xa then 0x03 else 0

/-- Requests in the dispatch queue of a partition on a die. -/
def State.queued (s : State) (die part : Nat) : Nat := (s.dispq.filter fun q => q.die = die ∧ q.part = part).length

/-- RESUME (R275, R367): the status. -/
def State.resumeGroup (s : State) (m g : Nat) : Nat × State :=
  let (die, _, gst) := s.gplace m g
  match s.job m with
  | none => (0x07, s)
  | some j =>
    if g > j.ntg ∨ gst ≠ 2 then (0x07, s)
    else if s.dispq.any fun q => q.mcid = m ∧ q.grp = g then (0x00, s)
    else if s.queued die j.part ≥ 256 then (0x02, s)
    else (0x00, s.fileResume ⟨die, j.part, m, g, (s.groupImages m g).filterMap (·.ready)⟩)

/-- `DISPATCH` RESUME (R275); also what answers an ACTION that is none. -/
def execDispatchResume (c : Ctl) (o : SR) : State → Host.Outcome State Fault Refusal :=
  privOp 1 c o fun xa xb _ => do
    let s ← get
    let st := s.dispatchStatus xa xb
    if st ≠ 0 then pure (st, 0)
    else
      needMcb xa
      let (st, s) := s.resumeGroup xa (bits xb 5 4)
      set s
      pure (st, 0)

/-- A launch that does not complete (R175, R421): the record is released, the reservations go, the MC goes to FAULTED. -/
def State.endLaunch (s : State) (m : Nat) : State :=
  let s := { (s.releaseRec m) with plans := s.plans.filter (·.mcid ≠ m) }
  s.setMcb m (setBits (setBits (s.mcb m) 3 0 3) 1023 960 (s.mcbF m 1023 960 + 1))

/-- `DISPATCH` TERMINATE (R275). -/
def execDispatchTerminate (c : Ctl) (o : SR) : State → Host.Outcome State Fault Refusal :=
  privOp 1 c o fun xa xb _ => do
    let s ← get
    let st := s.dispatchStatus xa xb
    if st ≠ 0 then pure (st, 0)
    else
      needMcb xa
      if s.hitching xa then
        set (s.endLaunch xa)
        pure (0, 0)
      else if (s.job xa).isNone then pure (0x07, 0)
      else
        set (s.killJob xa)
        pure (0, 0)

/-- Is a group on a resume list, or about to return from it (R188)? -/
def State.resumes (s : State) (m g : Nat) : Bool := (s.resume.any fun r => r.mcid == m && r.grp == g) || s.back.any fun b => b.mcid == m && b.grp == g

/-- CONTINUE (R275): every group of a halted job is to be restored, without waiting for a condition; one that a pre-emption had put on its
resume list stays there (R200). -/
def State.continueJob (s : State) (m : Nat) : Nat × State :=
  match s.job m with
  | none => (0x07, s)
  | some j =>
    if s.mcState m ≠ 5 then (0x07, s)
    else
      let gs := (List.range (j.ntg + 1)).filter fun g => s.groupImages m g != [] && !s.resumes m g
      let kept := { s with dispq := s.dispq.filter (·.mcid ≠ m) }
      let on (d : Nat) := (gs.filter fun g => (s.gplace m g).1 = d).length
      if (List.range 4).any fun d => on d != 0 && decide (256 < kept.queued d j.part + on d) then (0x02, s)
      else (0x00, (gs.foldl (fun s g => s.fileResume ⟨(s.gplace m g).1, j.part, m, g, []⟩) kept).setMcbF m 3 0 2)

/-- `DISPATCH` CONTINUE (R275). -/
def execDispatchContinue (c : Ctl) (o : SR) : State → Host.Outcome State Fault Refusal :=
  privOp 1 c o fun xa xb _ => do
    let s ← get
    let st := s.dispatchStatus xa xb
    if st ≠ 0 then pure (st, 0)
    else
      needMcb xa
      let (st, s) := s.continueJob xa
      set s
      pure (st, 0)

/-! ### SIGWAIT (R276) -/

/-- What tells a waiting `SIGWAIT` that its limit has passed. -/
def sigwaitKey : Nat := 2 ^ 100

/-- `SIGWAIT`: the request reaches the job once; the task then waits for HALTED, or for its limit. -/
def sigwaitOp (halt : Bool) (c : Ctl) (o : SR) : State → Host.Outcome State Fault Refusal :=
  privOp 1 c o fun m xb xc => do
    let s ← get
    if m ≥ 2 ^ 14 ∨ xb ≥ 2 then pure (0x01, 0)
    else if !s.reachesMc m then pure (0x03, 0)
    else
      needMcb m
      let asked := s.core.wait == some (.sigwait m)
      if !asked && !([2, 5].contains (s.mcState m) && (s.job m).isSome) then pure (0x07, 0)
      else
        if !asked then M.change (·.signalJob m halt)
        let s' ← get
        if s'.mcState m = 5 then pure (0, 0)
        else if xc = 0 ∨ s.core.issue.given.any (·.1 == sigwaitKey) then pure (0x08, 0)
        else M.stop (.stall (.sigwait m)) (if asked then [] else [.signal m halt])

/-- `SIGWAIT` with HALT = 1 (R276). -/
def execSigwaitHalt : Ctl → SR → State → Host.Outcome State Fault Refusal := sigwaitOp true
/-- `SIGWAIT` with HALT = 0 (R276). -/
def execSigwaitArm : Ctl → SR → State → Host.Outcome State Fault Refusal := sigwaitOp false

/-- `SIGWAIT_TIMEOUT` (R276): the wait limit of a waiting task has passed. -/
def execSigwaitTimeout (n : Nat) (s : State) : Host.Outcome State Fault Refusal :=
  let k := s.coreAt n
  .next (match k.wait with
    | some (.sigwait _) => s.setCoreAt n { k with issue := { k.issue with given := (sigwaitKey, []) :: k.issue.given } }
    | _ => s)

/-! ### TLBINV (R277, R25, R52, R96) -/

/-- The functions and PASIDs of some ASIDs (R47). -/
def State.hostIds (s : State) (as : List Nat) : List (Nat × Nat) := as.map fun a => (s.csrF (0x400 + a) 35 32, s.csrF (0x400 + a) 19 0)

/-- Remove translations: the host requests that may have used one complete first, and so do the stores (R25, R51, R52, R96).
(DEDUCED, log entry 52) -/
def invalidate (x : Gone) : M Unit := do
  let s ← get
  M.need (!s.hostReqs.any fun r => s.hostGone x.host r.fn r.pasid r.page) (.stall .other)
  set (s.dropGone x)

/-- The work of `TLBINV` of every ASID of a set (MODE 0 and 2). -/
def invalidateAsids (as : List Nat) : M Unit := do
  let ids := (← get).hostIds as
  invalidate ⟨as.contains, fun _ _ => true, fun fn pasid _ _ => ids.contains (fn, pasid)⟩

/-- `TLBINV` MODE 0 (R277); also what answers MODE 3. -/
def execTlbinvAsid (c : Ctl) (o : SR) : State → Host.Outcome State Fault Refusal :=
  privOp 1 c o fun xa xb _ => do
    if xa ≥ 2 ^ 12 ∨ xb ≥ 2 ^ 52 ∨ bits xa 11 10 = 3 then pure (0x01, 0)
    else if !(← get).reachesAsid (bits xa 9 0) then pure (0x03, 0)
    else
      invalidateAsids [bits xa 9 0]
      pure (0, 0)

/-- `TLBINV` MODE 1 (R277). -/
def execTlbinvPages (c : Ctl) (o : SR) : State → Host.Outcome State Fault Refusal :=
  privOp 1 c o fun xa xb xc => do
    let a := bits xa 9 0
    if xa ≥ 2 ^ 12 ∨ xb ≥ 2 ^ 52 ∨ xb % 2 ^ 16 ≠ 0 then pure (0x01, 0)
    else if !(← get).reachesAsid a then pure (0x03, 0)
    else
      let n := bits xc 15 0 + 1
      let p0 := xb / 65536
      let ids := (← get).hostIds [a]
      -- the host window begins at the 64 KiB page 0xF0000_0000; a 4 KiB host page is a sixteenth of one
      invalidate ⟨(· == a), fun p m => runsMeet p m p0 n,
        fun fn pasid page m => ids.contains (fn, pasid) && runsMeet (16 * 0xF00000000 + page) m (16 * p0) (16 * n)⟩
      pure (0, 0)

/-- The ASIDs that MODE 2 names for a task (R277). -/
def State.modeTwo (s : State) : List Nat := (List.range 1024).filter fun a => s.core.pl.toNat == 2 || s.asidPart a == s.core.part

/-- `TLBINV` MODE 2 (R277). -/
def execTlbinvPartition (c : Ctl) (o : SR) : State → Host.Outcome State Fault Refusal :=
  privOp 1 c o fun xa xb _ => do
    if xa ≥ 2 ^ 12 ∨ xb ≥ 2 ^ 52 then pure (0x01, 0)
    else
      invalidateAsids (← get).modeTwo
      pure (0, 0)

/-! ### USEAL (R278) -/

/-- `USEAL` (R278): the partition of the caller at PL1, the one that xa names at PL2. (DEDUCED, log entry 51) -/
def execUseal (c : Ctl) (o : SR) : State → Host.Outcome State Fault Refusal :=
  privOp 1 c o fun xa _ _ => do
    let s ← get
    let p := if s.core.pl.toNat = 2 then xa else s.core.part
    if xa ≥ 2 ^ 5 ∨ p > 16 then pure (0x01, 0)
    else if p ≠ 16 ∧ !s.partExists p then pure (0x07, 0)
    else
      set (s.sealUsage p true false)
      pure (0, (s.sealOf p).seqno % 2 ^ 56)

end Sys2Proof.Machine
end

