-- ==== Sys2Proof/Machine/Migr.lean ====
section
/-! DEFINITION. Page migration (R108 to R113, R353): `MIGR` MOVE, FETCH and FLUSH, and the migration pools (R109). -/

namespace Sys2Proof.Machine

/-! ### Results and pools -/

/-- The word of R113 at the end of a command. -/
def migrWord (c : Cmd) (st outcome : Nat) : Nat :=
  c.progress + 2 ^ 16 * min c.late 65535 + 2 ^ 32 * st + 2 ^ 40 * outcome + (if st = 0 then 0 else 2 ^ 63)

/-- The end of a `MIGR` command with a status (R113). -/
def Cmd.migrEnd (c : Cmd) (st : Nat) : CmdRes := ⟨st, 0, 0, migrWord c st 0⟩

/-- The end of a `MIGR` command by a walk outcome (R111). What lies beyond a lost link ends it with IO: R111 names no case for that.
(DESIGN CHOICE, log entry 67) -/
def Cmd.migrWalk (c : Cmd) (fi : FaultInfo) : CmdRes :=
  if fi.cause = 0x21 then c.migrEnd 0x07 else ⟨0x01, fi.outcome, fi.level, migrWord c 0x01 fi.outcome⟩

/-- The descriptor of a migration pool of a partition, if its pools are installed (R109). -/
def State.migPool (s : State) (p k : Nat) : Option Nat :=
  let c := s.csrN (0x0B0 + p)
  if bit c 0 then some (bits c 47 6 * 64 + 32 * k) else none

/-- Return a frame to the migration pool of its tier (R108). -/
def State.migPut (s : State) (p frame : Nat) : State :=
  match s.migPool p (tierOf frame) with
  | none => s
  | some d => s.poolPut p d frame

/-- Read entry `i` of a LIST (R71). -/
def Cmd.listEntry (c : Cmd) (list i : Nat) : M (Except FaultInfo Nat) := do
  match ← M.attempt (c.read c.asid ((list + 8 * i) % 2 ^ 52) 8) with
  | .ok (bs, none) => pure (.ok (ofBytes bs))
  | .ok (_, some l) => pure (.error (uncorrectable l))
  | .error fi => pure (.error fi)

/-- POOLADD: entries of LIST appended to a pool; one that `ok` refuses is rejected (R71). Answers the entries done, and the walk that
stopped the command. -/
def Cmd.addEntries (c : Cmd) (list : Nat) (put : Nat → State → State) : Nat → Nat → M (Nat × Option FaultInfo)
  | i, 0 => pure (i, none)
  | i, n + 1 => do
    match ← c.listEntry list i with
    | .error fi => pure (i, some fi)
    | .ok v => do
      M.change (put v)
      c.addEntries list put (i + 1) n

/-- POOLTAKE: entries moved from the head of a pool to LIST (R71). Answers the entries moved, whether the pool ran out, and the walk
that stopped the command: the entry whose write fails stays in its pool. -/
def Cmd.takeEntries (c : Cmd) (list p d : Nat) : Nat → Nat → M (Nat × Bool × Option FaultInfo)
  | i, 0 => pure (i, false, none)
  | i, n + 1 => do
    match (← get).poolTake p d with
    | none => pure (i, true, none)
    | some (v, s) => do
      match ← M.attempt (c.write c.asid ((list + 8 * i) % 2 ^ 52) (toBytes 8 v) none) with
      | .error fi => pure (i, false, some fi)
      | .ok _ => do
        M.change fun s' => s'.wr (d + 12) (s.rd (d + 12) 4) 4
        c.takeEntries list p d (i + 1) n

/-- May a frame stand in a migration pool of a partition (R71, R109)? -/
def State.migOk (s : State) (p v : Nat) : Bool := v % 65536 == 0 && s.frameValid p v

/-- A frame added to a migration pool: rejected where the partition does not hold it or it is not aligned (R71, R109). -/
def State.migAdd (s : State) (p d v : Nat) : State := if s.migOk p v then s.poolPut p d v else s.poolLost p d

/-- Take a frame from the migration pool of a tier; one at its head that may not stand there is not used (R11). (DESIGN CHOICE, log entry 91) -/
def State.migTake (s : State) (p tier : Nat) : Option (Nat × State) :=
  ((s.migPool p tier).bind (s.poolTake p)).filter fun r => s.migOk p r.1

/-- The work of POOLADD and POOLTAKE on a migration pool (R109, R353). -/
def migrPoolBody (c : Cmd) (take : Bool) : M CmdRes := do
  let d := c.desc.toNat
  let n := bits d 79 64
  let list := bits d 63 12
  if n = 0 ∨ list % 8 ≠ 0 then pure (c.migrEnd 0x08)
  else if c.pl = 0 then pure (c.migrEnd 0x06)
  else match (← get).migPool c.part (bits d 4 3) with
    | none => pure (c.migrEnd 0x08)
    | some pool =>
      if take then
        let (i, out, bad) ← c.takeEntries list c.part pool 0 n
        let c := { c with progress := i }
        pure (match bad with
          | some fi => c.migrWalk fi
          | none => c.migrEnd (if out then 0x05 else 0))
      else
        let (i, bad) ← c.addEntries list (fun v s => s.migAdd c.part pool v) 0 n
        let c := { c with progress := i }
        pure (match bad with
          | some fi => c.migrWalk fi
          | none => c.migrEnd 0)

/-! ### Pages -/

/-- KIND of a `MIGR` command. -/
def Cmd.migrKind (c : Cmd) : Nat := bits c.desc.toNat 2 0
/-- Pages of a `MIGR` command. -/
def Cmd.migrPages (c : Cmd) : Nat := bits c.desc.toNat 71 64 + 1
/-- The VA of the page that a command has reached. -/
def Cmd.migrVa (c : Cmd) : Nat := (bits c.desc.toNat 63 12 + 65536 * c.progress) % 2 ^ 52
/-- How a page is translated (R111). -/
def Cmd.migrAccess (c : Cmd) : Access := if c.migrKind = 2 then .read else .write

/-- Is a `MIGR` descriptor malformed (R353)? (DEDUCED, log entry 62) -/
def migrBad (d : Nat) : Bool :=
  decide (5 ≤ bits d 2 0) || bits d 11 5 != 0 || bits d 383 192 != 0 || bits d 511 448 != 0 ||
    (decide (bits d 2 0 ≤ 2) && (bits d 27 12 != 0 || bits d 79 72 != 0 || bits d 191 176 == 0))

/-- The leaf of the page that a command has reached, with its address, or the status of R111. -/
def Cmd.migrLeaf (c : Cmd) : M (Except Nat (Nat × Nat)) := do
  let va := c.migrVa
  match ← c.xlate c.asid va c.migrAccess with
  | .host _ _ _ _ => pure (.error 0x02)
  | .dev _ _ =>
    match (← get).walk c.asid va c.migrAccess with
    | .hit _ level pte =>
      M.change (·.setAD pte c.migrAccess)
      let leaf := (← get).rd pte 8
      pure (if bit leaf 3 then .error 0x03 else if level = 2 then .error 0x04 else .ok (leaf, pte))
    | .out code level => M.stop (.fault (walkFault code level va c.migrAccess))
    | .steep _ => M.stop (.fault (walkFault 0x7 3 va c.migrAccess))
    | .bad l => M.stop (.fault (uncorrectable l))

/-- SLIP of a task one higher, saturating (R112): on its core, in its image, or in its save slot. -/
def State.slipTask (s : State) (m rank : Nat) : State :=
  let up (k : Core) : Core := { k with slip := if k.slip = BitVec.allOnes 32 then k.slip else k.slip + 1 }
  match s.coreOf m rank, s.imageOf m rank with
  | some n, none => s.setCoreAt n (up (s.coreAt n))
  | _, some im =>
    if im.spilled then
      let a := s.saveSlot m rank + 128
      let t := s.saveTag m
      s.wrLE t a (min (s.rdLE t a 8 + 1) 0xFFFFFFFF) 8
    else { s with images := s.images.map fun (i : Image) => if i.mcid = m ∧ i.rank = rank then { i with core := up i.core } else i }
  | none, none => s

/-- A late page raises SLIP of the job (R112). -/
def State.slipJob (s : State) (m : Nat) : State :=
  match s.job m with
  | none => s
  | some j => (List.range j.tasks).foldl (fun s r => if j.gone r then s else s.slipTask m r) s

/-- The page that a command has reached arrives in this frame (R112). -/
def State.pageArrives (s : State) (c : Cmd) : State :=
  let late := s.frame - c.deadline
  let s := s.setCmd { c with progress := c.progress + 1, late := max c.late late, coll := 0, expired := false, wait := none }
  if late = 0 ∨ c.orphan then s else s.slipJob c.mcid

/-- A 64 KiB page copied and re-encrypted, poison with it (R108, R416). -/
def State.copyPage (s : State) (c : Cmd) (t : LineTag) (from_ into_ : Nat) : State :=
  (List.range 1024).foldl (fun s i => s.copyRun (from_ + 64 * i) t (into_ + 64 * i) t 64 c.core c.mcid) s

/-- The key that a leaf gives its page. -/
def State.leafTag (s : State) (asid leaf : Nat) : LineTag := if bit leaf 4 then s.slotTag asid else .plain

/-- What a step at a page comes to: the command goes on, or it ends. -/
abbrev PageStep := Option CmdRes

/-- MOVE of a page begins: a frame from the pool, the in-motion set, no translation left (R108, R110 step 1). A page that is in its
tier is not moved. -/
def Cmd.moveStart (c : Cmd) (leaf : Nat) : M PageStep := do
  let s ← get
  let tier := bits c.desc.toNat 4 3
  if bits leaf 47 46 = tier then
    set (s.pageArrives c)
    pure none
  else match s.migTake c.part tier with
    | none => pure (some (c.migrEnd 0x05))
    | some (f, s) =>
      let page := bits c.migrVa 51 16
      let s := (s.settleWhere (·.asid == c.asid)).dropTlb fun e =>
        e.asid == c.asid && (if e.level = 3 then e.page == page else e.page / 4096 == page / 4096)
      set ({ s with motion := ⟨c.asid, page, c.id, f⟩ :: s.motion }.setCmd { c with expired := false, wait := none })
      pure none

/-- MOVE of a page ends: the copy, the new leaf, the old frame back to the pool of its tier (R108, R110 step 3). A storage error, and a frame out of
the engine's reach (R163), leave the page as it is. (DESIGN CHOICE, log entry 67) -/
def Cmd.moveEnd (c : Cmd) (m : Motion) (io : Bool) : M PageStep := do
  M.change fun s => { s with motion := s.motion.filter (· ≠ m) }
  let s ← get
  match s.walk c.asid c.migrVa .write with
  | .hit leaf level pte =>
    let lost := !(s.reaches c.die (bits leaf 47 16 * 65536) && s.reaches c.die m.frame)
    if io ∨ bit leaf 3 ∨ level = 2 ∨ lost then
      set (s.migPut c.part m.frame)
      pure (some (c.migrEnd (if io then 0x07 else if bit leaf 3 then 0x03 else if level = 2 then 0x04 else 0x07)))
    else
      let old := bits leaf 47 16 * 65536
      let s := s.copyPage c (s.leafTag c.asid leaf) old m.frame
      let s := s.wr pte (setBits (s.rd pte 8) 47 16 (m.frame / 65536)) 8
      set ((s.migPut c.part old).pageArrives c)
      pure none
  | .out code level =>
    set (s.migPut c.part m.frame)
    pure (some (c.migrWalk (walkFault code level c.migrVa .write)))
  | _ =>
    set (s.migPut c.part m.frame)
    pure (some (c.migrEnd 0x04))

/-- The first LBA byte of the page that a command has reached, or none where the namespace ends before the page does. -/
def Cmd.migrPlace (c : Cmd) : Option Nat :=
  let d := c.desc.toNat
  let ns := bits d 111 80
  let off := bits d 175 112 * lbaBytes ns + 65536 * c.progress
  if off + 65536 ≤ Config.nvmeBlocks ns * lbaBytes ns then some (nvmeAt ns 0 + off) else none

/-- The engine begins with a page of FETCH or FLUSH: COLL of the command holds from which write on stores meet it, plus 1. -/
def Cmd.pageBegin (c : Cmd) : M PageStep := do
  M.change fun s => s.setCmd { c with coll := s.writes + 1, expired := false, wait := none }
  pure none

/-- Has a page been stored to since the engine began with it (R110)? -/
def State.storedSince (s : State) (c : Cmd) (pa : Nat) : Bool :=
  s.hist.any fun w => decide (c.coll ≤ w.id + 1) && w.within pa 65536 != []

/-- 64 KiB of undefined contents (R110). -/
def State.openPage (s : State) (key : Nat) : List Byte :=
  (List.range 1024).flatMap fun i => toBytes 64 (Config.free 512 s.tick .word (64 * i) key).toNat

/-- FETCH of a page (R108): 64 KiB of the namespace into it, in place; undefined contents where it has been stored to meanwhile (R110). -/
def Cmd.fetchPage (c : Cmd) (leaf : Nat) (io : Bool) : M PageStep := do
  let s ← get
  let pa := bits leaf 47 16 * 65536
  if !s.holds c.part 7 (bits c.desc.toNat 111 80) then pure (some (c.migrEnd 0x06))
  else match c.migrPlace with
    | none => pure (some (c.migrEnd 0x07))
    | some a =>
      if io then pure (some (c.migrEnd 0x07))
      else if c.coll = 0 then c.pageBegin
      else
        let bs := if s.storedSince c pa then s.openPage c.id else s.nvme.readBytes a 65536
        set (((s.cmdStore c (.dev pa (s.leafTag c.asid leaf)) bs none).countNvme c 65536).pageArrives c)
        pure none

/-- FLUSH of a page (R108): it is written to the namespace; undefined contents where it has been stored to meanwhile (R110). Poisoned data is a
storage error. -/
def Cmd.flushPage (c : Cmd) (leaf : Nat) (io : Bool) : M PageStep := do
  let s ← get
  let pa := bits leaf 47 16 * 65536
  if !s.holds c.part 7 (bits c.desc.toNat 111 80) then pure (some (c.migrEnd 0x06))
  else match c.migrPlace with
    | none => pure (some (c.migrEnd 0x07))
    | some a =>
      if io ∨ (s.poisoned pa 65536).isSome then pure (some (c.migrEnd 0x07))
      else if c.coll = 0 then c.pageBegin
      else
        let bs := if s.storedSince c pa then s.openPage c.id else s.rdBytes (s.leafTag c.asid leaf) pa 65536
        set (({ s with nvme := s.nvme.writeBytes a bs }.countNvme c 65536).pageArrives c)
        pure none

/-- The next step of a command at its page. -/
def Cmd.migrPage (c : Cmd) (io : Bool) : M PageStep := do
  match (← get).motion.find? (·.cmd = c.id) with
  | some m => c.moveEnd m io
  | none =>
    match ← M.attempt c.migrLeaf with
    | .error fi => pure (some (c.migrWalk fi))
    | .ok (.error st) => pure (some (c.migrEnd st))
    | .ok (.ok (leaf, _)) =>
      match c.migrKind with
      | 0 => c.moveStart leaf
      | 1 => c.fetchPage leaf io
      | _ => c.flushPage leaf io

/-- Has a `MIGR` command pages left? -/
def Cmd.pagesLeft (c : Cmd) : Bool :=
  c.op == 0x60 && decide (c.migrKind ≤ 2) && decide (c.progress < c.migrPages) && !c.held && !migrBad c.desc.toNat && !(complOf 0x60 c.desc.toNat).bad

/-- Does the engine serve a command now: of its partition and die the earliest deadline, the older command first; one that waits for
something else is passed over (R112). -/
def State.migrServed (s : State) (c : Cmd) : Bool :=
  !s.cmds.any fun q => q.pagesLeft && q.part == c.part && q.die == c.die && q.wait.isNone &&
    (decide (q.deadline < c.deadline) || (q.deadline == c.deadline && decide (q.id < c.id)))

/-- A turn of the migration engine at a command: its end, or the next step at its page. (DEDUCED, log entry 62) -/
def migrTurn (io : Bool) (c : Cmd) : M Unit := do
  let d := c.desc.toNat
  if (complOf c.op d).bad ∨ migrBad d then c.finish (c.migrEnd 0x08)
  else if 3 ≤ c.migrKind then c.finish (← migrPoolBody c (c.migrKind == 4))
  else if c.progress = c.migrPages then c.finish (c.migrEnd 0)
  else if (← get).migrServed c then
    match ← c.migrPage io with
    | none => pure ()
    | some r => c.finish r
  else pure ()

/-- `MIGR_PAGE_COMPLETE` (R110, R111): the engine's next step at the page that a command has reached, with a storage error or without. -/
def execMigrPageComplete (id : Nat) (io : Bool) (s : State) : Host.Outcome State Fault Refusal :=
  workCmd (fun c => if c.pagesLeft then migrTurn io c else pure ()) id false s

/-! ### Issue -/

/-- `MIGR` MOVE (R108, R353); also what carries a KIND that is none. -/
def execMigrMove : Ctl → CK → State → Host.Outcome State Fault Refusal := engineOp 0x60
/-- `MIGR` FETCH (R108, R353). -/
def execMigrFetch : Ctl → CK → State → Host.Outcome State Fault Refusal := engineOp 0x60
/-- `MIGR` FLUSH (R108, R353). -/
def execMigrFlush : Ctl → CK → State → Host.Outcome State Fault Refusal := engineOp 0x60
/-- `MIGR` POOLADD (R109, R353). -/
def execMigrPooladd : Ctl → CK → State → Host.Outcome State Fault Refusal := engineOp 0x60
/-- `MIGR` POOLTAKE (R109, R353). -/
def execMigrPooltake : Ctl → CK → State → Host.Outcome State Fault Refusal := engineOp 0x60

end Sys2Proof.Machine
end

