-- ==== Sys2Proof/Machine/Racking.lean ====
section
/-! DEFINITION. Racking: `KVRACK` (R67 to R71), block moves (R69), automatic racks (R70), the return of released blocks and what peers
ask of this package's blocks (R61, R80). -/

namespace Sys2Proof.Machine

/-! ### Block moves (R69) -/

/-- The key of a block as the tiers 0 to 2 hold it, from its entry (R64). -/
def State.entryTag (s : State) (e : Nat) : LineTag := s.slotTag (bits e 41 32)

/-- The pool of an entry's partition for frames of its size in a KV tier (R66). -/
def entryPool (e tier : Nat) : Nat := 1 + 3 * tier + bits e 131 130

/-- The namespace of a tier-3 pool of a partition (R66). -/
def State.poolNs (s : State) (p k : Nat) : Nat :=
  match s.kvPool p k with
  | none => 0
  | some d => s.rd (d + 24) 4

/-- The key pair of a block, from its entry (R64). -/
def State.entryKey (s : State) (e : Nat) : BitVec 512 :=
  match s.entryTag e with
  | .priv key => key
  | _ => 0

/-- The tweak of the first line of a block in tier 3 (R64). -/
def tier3Tweak (gbn : Nat) : Nat := 2 ^ 127 + gbn * 2 ^ 10

/-- The namespace of the tier-3 blocks of an entry's size, where its partition holds it (R107, R379). The root's is not checked, as R71's are
not there: KIND 7 grants are made to partitions. (DESIGN CHOICE, log entry 91) -/
def State.blockNs (s : State) (e : Nat) : Option Nat :=
  let p := bits e 46 42
  let ns := s.poolNs p (entryPool e 3)
  if p = 16 ∨ s.holds p 7 ns then some ns else none

/-- The data of a block at a place of a KV tier, with the lines of it that are poisoned (R416); in tier 3 its lines are ciphertext (R64). None
where its namespace is not granted: the read fails. -/
def State.blockData (s : State) (gbn e tier loc : Nat) : Option (List Byte × List Nat) :=
  let n := blockBytes (bits e 131 130)
  if tier = 3 then
    (s.blockNs e).map fun ns => (xtsBytes true (s.entryKey e) (tier3Tweak gbn) (s.nvme.readBytes (nvmeAt ns loc) n), [])
  else some (s.rdBytes (s.entryTag e) loc n, (List.range (n / 64)).filter fun i => (s.poisoned (loc + 64 * i) 64).isSome)

/-- The data of a block written to a place of a KV tier (R64, R416). None where that cannot be: to a namespace that is not granted, or poisoned
data to NVMe, which has no place for the marker. (DEDUCED, log entry 40) -/
def State.putBlock (s : State) (gbn e tier loc : Nat) (bs : List Byte) (bad : List Nat) : Option State :=
  if tier = 3 then
    if bad ≠ [] then none
    else (s.blockNs e).map fun ns => { s with nvme := s.nvme.writeBytes (nvmeAt ns loc) (xtsBytes false (s.entryKey e) (tier3Tweak gbn) bs) }
  else some (bad.foldl (fun s i => s.poisonLine (loc / 64 + i)) (s.agentWrite 5 0 0 (s.entryTag e) loc bs))

/-- A move of a block ends: the copy, the entry in one update, the old frame to its pool; or a source read that fails (R69, R84). Answers
the status of the command. What RTIER and RLOC hold once the entry is no longer RACKING no rule says: they are written 0.
(DESIGN CHOICE, log entry 93) -/
def State.endMove (s : State) (gbn g : Nat) (readFails : Bool) : Nat × State :=
  let e := s.rd g 32
  let p := bits e 46 42
  let tier := bits e 1 0
  let rtier := bits e 129 128
  let loc := bits e 127 64
  let rloc := bits e 223 160
  let clear (e : Nat) := setBits (setBits e 129 128 0) 223 160 0
  let moved := if readFails then none else (s.blockData gbn e tier loc).bind fun d => s.putBlock gbn e rtier rloc d.1 d.2
  match moved with
  | none =>
    let e' := if tier = 3 then setBits (setBits e 3 2 3) 5 5 1 else setBits e 3 2 1
    (0x07, (s.wr g (clear e') 32).kvPut p (entryPool e rtier) rloc)
  | some s =>
    let e' := setBits (setBits (setBits e 1 0 rtier) 127 64 rloc) 3 2 (if rtier = 3 then 3 else 1)
    (0, (s.wr g (clear e') 32).kvPut p (entryPool e tier) loc)

/-- The NVMe bytes of a move that has ended well count for the group of the command that asked for it (R392). -/
def State.countMove (s : State) (m : Move) (e st : Nat) : State :=
  match s.cmds.find? fun c => some c.id = m.cmd with
  | none => s
  | some c => if st = 0 ∧ (bits e 1 0 = 3 ∨ bits e 129 128 = 3) then s.countNvme c (blockBytes (bits e 131 130)) else s

/-- A command learns how the move of a block of its ended: one block more, or a failure; an append goes on waiting for its block, or fails
there (R78 step 3). -/
def Cmd.moved (c : Cmd) (st : Nat) : Cmd :=
  if c.op = 0x41 then { c with late := st }
  else if st = 0 then { c with progress := c.progress + 1, wait := none } else { c with late := st, wait := none }

/-- Does an append wait for the move of a block that another command has started (R78 step 3)? -/
def Cmd.waitsFor (c : Cmd) (gbn : Nat) : Bool :=
  c.op == 0x41 && match c.wait with
    | some (.kv _ _ g _) => g == gbn
    | _ => false

/-- An answer to a peer: 1 and the data of what was done, 3 where the data is poisoned (R416), 0 and a code for what is refused. The bytes are the
model's own. (DESIGN CHOICE, log entry 39) -/
def State.answerPeer (s : State) (fab status : Nat) (data : List Byte) : State :=
  { s with out := .peerReply fab (toBytes 1 status ++ data) :: s.out }

/-- A peer learns how the move that it asked for has ended (R69). -/
def State.answerMove (s : State) (m : Move) (st : Nat) : State :=
  match m.peer with
  | none => s
  | some fab => if st = 0 then s.answerPeer fab 1 [] else s.answerPeer fab 0 (toBytes 1 st)

/-- A move in progress ends once no stream holds its block (R69 step 4, R75). -/
def State.finishMove (s : State) (m : Move) (readFails : Bool) : State :=
  match s.gbtPa m.gbn with
  | none => { s with moves := s.moves.filter (· ≠ m) }
  | some g =>
    if s.gbtF g 59 48 ≠ 0 then s
    else
      let e := s.rd g 32
      let (st, s) := s.endMove m.gbn g readFails
      let s := s.countMove m e st
      let s := { s with moves := s.moves.filter (· ≠ m),
                        cmds := s.cmds.map fun (c : Cmd) => if some c.id = m.cmd ∨ c.waitsFor m.gbn then c.moved st else c }
      (s.answerMove m st).settleBlock m.gbn

/-- Steps 2 to 4 of R69 at an entry, for a destination tier: nothing to move, a move in progress already, no frame, or a move that
starts. -/
inductive RackOut where
  | done
  | busy
  | empty
  | started (s : State)
  deriving DecidableEq, Repr

/-- See `RackOut`. -/
def State.rackBlock (s : State) (gbn g tier : Nat) (cmd : Option Nat) (peer : Option Nat := none) : RackOut :=
  let e := s.rd g 32
  let st := bits e 3 2
  if (st = 1 ∧ bits e 1 0 = tier) ∨ (st = 3 ∧ tier = 3) then .done
  else if st = 2 then .busy
  else match s.kvTake (bits e 46 42) (entryPool e tier) with
    | none => .empty
    | some (f, s) => .started (s.startMove gbn g tier f cmd peer)

/-- An automatic rack (R70): dropped where its block needs none, or with a count in LOST where the pool is empty.
(DEDUCED, log entry 29) -/
def State.startAuto (s : State) (gbn : Nat) : State :=
  match s.gbtPa gbn with
  | none => s
  | some g =>
    if s.gbtF g 3 2 = 0 ∨ s.gbtF g 5 5 = 1 then s
    else match s.rackBlock gbn g 0 none with
      | .started s => s
      | .empty =>
        match s.kvPool (s.gbtF g 46 42) (entryPool (s.rd g 32) 0) with
        | none => s
        | some d => s.poolLost (s.gbtF g 46 42) d
      | _ => s

/-- The head of a racking queue (R67). -/
def State.rackHead (s : State) (die part : Nat) : Option Rack := s.racks.find? fun r => r.die = die ∧ r.part = part

/-- Does an automatic rack have to wait for a move of its block that is in progress (R70, R69 step 3)? -/
def State.autoWaits (s : State) (gbn : Nat) : Bool := (s.gbtPa gbn).any fun g => s.gbtF g 3 2 == 2

/-- Start the automatic rack at the head of the root queue of a die, once no other move of its block is in progress (R70). -/
def State.startHead (s : State) (die : Nat) : State :=
  match s.rackHead die 16 with
  | some r =>
    match r.gbn with
    | some gbn => if s.autoWaits gbn then s else { s with racks := s.racks.erase r }.startAuto gbn
    | none => s
  | none => s

/-- `RACK_BLOCK_MOVE` (R69, R70): the Racking engine of a die ends a move whose block no stream holds, or starts the automatic rack at
the head of its root queue. -/
def execRackBlockMove (die : Nat) (readFails : Bool) (s : State) : Host.Outcome State Fault Refusal :=
  let free (m : Move) : Bool := m.gbn % 4 == die && match s.gbtPa m.gbn with
    | none => true
    | some g => s.gbtF g 59 48 == 0
  .next (match s.moves.find? free with
    | some m => s.finishMove m readFails
    | none => s.startHead die)

/-! ### RACK (R69) -/

/-- OP of a racking command. -/
def Cmd.rackOp (c : Cmd) : Nat := bits c.desc.toNat 7 0

/-- Is a racking command malformed (R67, R317)? (DEDUCED, log entry 37) -/
def rackBad (d : Nat) : Bool :=
  let op := bits d 7 0
  bits d 31 27 != 0 || bits d 511 256 != 0 || op == 0 || decide (4 ≤ op) ||
    (if op = 1 then bits d 26 17 != 0 || bits d 127 95 != 0 || decide (512 < bits d 94 86 + 1)
     else bits d 11 8 != 0 || bits d 63 56 != 0 || bits d 127 116 != 0 || decide (15 ≤ bits d 39 32) || bits d 55 40 == 0 || bits d 66 64 != 0 ||
      (bits d 39 32 != 14 && bits d 26 17 != 0))

/-- The end of a racking command that fails at a block or an entry (R68). -/
def Cmd.rackFail (c : Cmd) (st : Nat) : CmdRes := .fail st c.progress

/-- AUTORACK of a block that a RACK with SETAR names. -/
def State.setAutorack (s : State) (d g : Nat) : State := if bit d 10 then s.setGbtF g 4 4 (bits d 11 11) else s

/-- A command waits, without limit, for something that a later turn finds changed. -/
def Cmd.waits (c : Cmd) : M (Option CmdRes) := do
  M.change (·.setCmd { c with wait := some .other })
  pure none

/-- The next block of a RACK (R69): answers how the command ends, if it ends. -/
def Cmd.rackStep (c : Cmd) : M (Option CmdRes) := do
  let s ← get
  let d := c.desc.toNat
  let tier := bits d 9 8
  let next (s : State) : M (Option CmdRes) := do
    set (s.setCmd (c.moved 0))
    pure none
  let at_ (gbn g : Nat) : M (Option CmdRes) := do
    let s := s.setAutorack d g
    if s.gbtF g 3 2 = 1 ∧ !s.reaches c.die (s.gbtF g 127 64) then pure (some (c.rackFail 0x0A)) else
    match s.rackBlock gbn g tier (some c.id) with
    | .done => next s
    | .busy =>
      set s
      c.waits
    | .empty => pure (some (c.rackFail 0x04))
    | .started s =>
      set s
      pure none
  match s.kvWalk c.mcid (bits d 51 32) (bits d 59 52) (bits d 67 60) (64 * (bits d 85 68 + c.progress)) false with
  | .hit g gbn _ _ _ => at_ gbn g
  | .out 0x15 _ gbn =>
    match s.gbtPa gbn with
    | some g => at_ gbn g
    | none => pure (some (c.rackFail 0x03))
  | .out code _ _ => pure (some (c.rackFail (kvStatus code)))
  | .bad _ => pure (some (c.rackFail 0x07))
  | .remote chip gbn _ =>
    match ← c.askPeer chip c.progress (kvAsk 4 gbn (bits d 11 8)) with
    | .ok _ => next (← get)
    | .error st => pure (some (c.rackFail (if st = 0 then 0x03 else st)))

/-! ### POOLADD and POOLTAKE (R71) -/

/-- An entry appended to a pool, or rejected (R71); PART is written into the GBT entry of an accepted GBN. -/
def State.addEntry (s : State) (p k d v : Nat) : State :=
  if !s.entryOk p k d v then s.poolLost p d
  else
    let s := if k ≠ 0 then s else match s.gbtPa (v % 2 ^ 32) with
      | some g => s.setGbtF g 46 42 p
      | none => s
    s.poolPut p d v

/-- The ingress pool of an ASID (R184). -/
def State.ingPool (s : State) (a : Nat) : Option Nat :=
  let c := s.csrN (0x800 + a)
  if bit c 0 then some (bits c 47 6 * 64) else none

/-- The work of POOLADD and POOLTAKE. An entry that POOLADD rejects counts as done, and the command still ends with CVAL: the rules count the
rejection in LOST and name no status for it. (DESIGN CHOICE, log entry 94) -/
def rackPoolBody (c : Cmd) : M CmdRes := do
  let d := c.desc.toNat
  let k := bits d 39 32
  let asid := bits d 26 17
  let s ← get
  if c.pl = 0 ∨ (k = 14 ∧ c.part ≠ 16 ∧ s.asidPart asid ≠ c.part) then pure (.fail 0x08 0)
  else match if k = 14 then s.ingPool asid else s.kvPool c.part k with
    | none => pure (.fail 0x06 0)
    | some pool =>
      let owner := if k = 14 then s.asidPart asid else c.part
      if c.rackOp = 2 then
        match ← c.addEntries (bits d 115 64) (fun v s => s.addEntry owner k pool v) 0 (bits d 55 40) with
        | (i, some fi) => pure (.walk 0x0B i fi)
        | (_, none) => pure .good
      else
        match ← c.takeEntries (bits d 115 64) owner pool 0 (bits d 55 40) with
        | (i, _, some fi) => pure (.walk 0x0B i fi)
        | (i, true, none) => pure (.fail 0x04 i)
        | (_, false, none) => pure .good

/-! ### The engine's turn at a command -/

/-- A turn of the Racking engine at a command: its start once it heads its queue; the end of its move; its next block; its end.
(DEDUCED, log entry 37) -/
def rackTurn (c : Cmd) : M Unit := do
  let s ← get
  match s.racks.find? (·.cmd = some c.id) with
  | some r =>
    if s.rackHead r.die r.part = some r then M.change fun s => { s with racks := s.racks.filter (· ≠ r) }
    else if r.part = 16 then M.change (·.startHead r.die)
    else pure ()
  | none =>
    if (complOf 0x45 c.desc.toNat).bad ∨ rackBad c.desc.toNat then c.finish (.fail 0x06 0)
    else if c.rackOp ≠ 1 then c.finish (← rackPoolBody c)
    else if c.late ≠ 0 then c.finish (c.rackFail c.late)
    else if c.progress = bits c.desc.toNat 94 86 + 1 then c.finish .good
    else match s.moves.find? (·.cmd = some c.id) with
      | some m => M.change (·.finishMove m false)
      | none =>
        match ← c.rackStep with
        | some r => c.finish r
        | none => pure ()

/-! ### Issue -/

/-- The issue of a racking command: room in the queue of its die and partition, or the bundle stalls (R67). -/
def rackIssue (c : Ctl) (o : CK) (s : State) : Host.Outcome State Fault Refusal :=
  slotOp c (do
    let d ← readDesc
    let s ← get
    M.need ((s.racks.filter fun r => r.die = s.die ∧ r.part = s.core.part).length < 256) (.stall .other)
    let cmd ← sendCmd 0x45 d (s.cursor 0)
    M.change fun s => { s with racks := s.racks ++ [⟨s.die, s.core.part, none, some cmd.id⟩] }) (s.ckCursor o)

/-- `KVRACK` RACK (R67, R69); also what carries an OP that is none. -/
def execKvrackRack : Ctl → CK → State → Host.Outcome State Fault Refusal := rackIssue
/-- `KVRACK` POOLADD (R67, R71). -/
def execKvrackPooladd : Ctl → CK → State → Host.Outcome State Fault Refusal := rackIssue
/-- `KVRACK` POOLTAKE (R67, R71). -/
def execKvrackPooltake : Ctl → CK → State → Host.Outcome State Fault Refusal := rackIssue

/-! ### Released blocks, and what peers ask -/

/-- `BLOCK_RELEASE` (R80): a block whose last reference has gone returns to its pools once PIN = 0 and no move is in progress. -/
def execBlockRelease (gbn : Nat) (s : State) : Host.Outcome State Fault Refusal := .next (s.settleBlock gbn)

/-- The partition of this package that its root has paired with a peer's partition (R61, R280 KIND 8). (DEDUCED, log entry 59) -/
def State.paired (s : State) (fab part : Nat) : Option Nat :=
  (s.grants.find? fun g => g.kind = 8 ∧ g.base = fab ∧ g.aux = part).map (·.part)

/-- What the walk of a peer finds of a block of this package (R61): the outcome, and its entry. -/
def State.peerWalk (s : State) (fab part gbn : Nat) : KvOut :=
  match s.paired fab part with
  | none => .out 0x14 0 gbn
  | some p => s.gbtWalk p s.fabId gbn 0

/-- `REMOTE_KV_RESOLVE` (R61, R62, R70): the second stage for a peer: the outcome, and on 0x10 the location, the key slot and the size. A read
walk pins the block for the peer's stream, and waits where the pins are at their limit: it has no effect yet, and comes again. A
missing block with AUTORACK is racked here. -/
def execRemoteKvResolve (fab part : Nat) (ask : KvAsk) (s : State) : Host.Outcome State Fault Refusal :=
  let gbn := ask.gbn
  let answer (code : Nat) (data : List Byte) (s : State) : State := { s with out := .peerReply fab (toBytes 1 code ++ toBytes 8 gbn ++ data) :: s.out }
  .next (if !s.peerUp fab then s
  else match s.peerWalk fab part gbn with
    | .hit g _ _ loc kslot =>
      let data := toBytes 8 loc ++ toBytes 2 kslot ++ toBytes 1 (s.gbtF g 131 130)
      if !ask.read then answer 0x10 data s
      else if s.gbtF g 59 48 = 4095 then s
      else answer 0x10 data { s.pinBlock g with peerPins := s.peerPins ++ [(fab, gbn)] }
    | .out 0x15 _ _ =>
      answer 0x15 [] (match s.gbtPa gbn with
        | some g => if s.gbtF g 4 4 = 1 ∧ s.gbtF g 3 2 = 3 then s.autoRack gbn else s
        | none => s)
    | .out code _ _ => answer code [] s
    | _ => answer 0x18 [] s)

/-- A RACK that a peer asks for (R67, R69): the answer, at once or when the move ends; while another move of the block is in progress it waits:
it comes again. -/
def State.peerRack (s : State) (fab gbn g tier : Nat) (ar : Option Bool) : State :=
  let s := match ar with
    | some b => s.setGbtF g 4 4 b.toNat
    | none => s
  match s.rackBlock gbn g tier none (some fab) with
  | .done => s.answerPeer fab 1 []
  | .busy => s
  | .empty => s.answerPeer fab 0 (toBytes 1 0x04)
  | .started s => s

/-- What a peer asks of a block of this package besides its translation: its rows, which it reads at `.SYS` (R61); one more reference
(R81), refused with 0x19 at the limit; a RACK (R67); the release of a pin (R75); its entry (R322). (DESIGN CHOICE, log entry 39) -/
def State.servePeerKv (s : State) (fab part gbn : Nat) (op : PeerKv) : State :=
  if !s.peerUp fab then s
  else
    let no (code : Nat) : State := s.answerPeer fab 0 (toBytes 1 code)
    let w := s.peerWalk fab part gbn
    let entry := match s.paired fab part, s.gbtPa gbn with
      | some p, some g => if s.gbtF g 46 42 = p then some g else none
      | _, _ => none
    match op with
    | .unpin => if s.peerPins.contains (fab, gbn) then { s.unpinBlock gbn with peerPins := s.peerPins.erase (fab, gbn) } else s
    | .rows off n =>
      match w with
      | .hit g _ _ loc kslot =>
        if blockBytes (s.gbtF g 131 130) < off + n then no 0x12
        else s.answerPeer fab (if (s.poisoned (loc + off) n).isSome then 3 else 1) (s.rdBytes (s.slotTag kslot) (loc + off) n)
      | .out 0x15 _ _ =>
        (match entry with
        | some g => if s.gbtF g 4 4 = 1 ∧ s.gbtF g 3 2 = 3 then s.autoRack gbn else s
        | none => s).answerPeer fab 0 (toBytes 1 0x15)
      | .out code _ _ => no code
      | _ => no 0x18
    | .share =>
      match w, entry with
      | .bad _, _ => no 0x18
      | .out 0x14 _ _, _ => no 0x14
      | .out 0x16 _ _, _ => no 0x16
      | .out 0x18 _ _, _ => no 0x18
      | _, some g =>
        if s.gbtF g 31 16 = 65535 then no 0x19
        else (s.setGbtF g 31 16 (s.gbtF g 31 16 + 1)).answerPeer fab 1 (toBytes 1 (s.gbtF g 1 0))
      | _, none => no 0x14
    | .rack tier ar =>
      match w, entry with
      | .out 0x15 _ _, some g => s.peerRack fab gbn g tier ar
      | .hit g _ _ _ _, _ => s.peerRack fab gbn g tier ar
      | .out code _ _, _ => no (kvStatus code)
      | _, _ => no 0x07
    | .query =>
      match entry with
      | some g => s.answerPeer fab 1 (toBytes 8 (s.rd g 8))
      | none => no 0x14

/-- `REMOTE_DECREMENT` (R80): a peer has released a reference to a block of this package. -/
def execRemoteDecrement (fab gbn : Nat) (s : State) : Host.Outcome State Fault Refusal := .next (if s.peerUp fab then s.decBlock gbn else s)

end Sys2Proof.Machine
end

