-- ==== Sys2Proof/Machine/Crp.lean ====
section
/-! DEFINITION. The Ethernet ports: frames (R180), CRP ingress and egress (R181 to R186), raw frames (R388, R389). A frame is the bytes
from its destination MAC onward, without the FCS. -/

namespace Sys2Proof.Machine

/-! ### Frames (R180) -/

/-- Bytes with the highest first, as a number. -/
def ofBytesBe (bs : List Byte) : Nat := ofBytes bs.reverse
/-- The low `n` bytes of a number, the highest first. -/
def toBytesBe (n v : Nat) : List Byte := (toBytes n v).reverse
/-- `n` bytes of a list from `i` on. -/
def sub (bs : List Byte) (i n : Nat) : List Byte := (bs.drop i).take n

/-- The sum of the 16-bit words of a list, the last padded with zero. -/
def sum16 (bs : List Byte) : Nat := (List.range ((bs.length + 1) / 2)).foldl (fun a i => a + ofBytesBe ((sub bs (2 * i) 2 ++ [0]).take 2)) 0
/-- The checksum field for a sum. -/
def check16 (sum : Nat) : Nat := if sum % 65535 = 0 then 0xFFFF else 65535 - sum % 65535
/-- Does a sum with its checksum verify? -/
def checks16 (sum : Nat) : Bool := sum != 0 && sum % 65535 == 0

/-- What a frame for a partition is. -/
inductive FrameKind where
  /-- Not CRP: for the raw ring (R388). -/
  | raw
  /-- Dropped. -/
  | drop
  /-- CRP: the frame up to and with its UDP header, and the UDP payload. -/
  | crp (hdr msg : List Byte)
  deriving DecidableEq, Repr

/-- Where the IP header stands: after at most one 802.1Q tag. -/
def ipAt (f : List Byte) : Nat := if ofBytesBe (sub f 12 2) = 0x8100 then 18 else 14
/-- The pseudo header of a datagram of `n` bytes: the addresses and the protocol. -/
def pseudo (f : List Byte) (v6 : Bool) (n : Nat) : List Byte :=
  let ip := ipAt f
  if v6 then sub f (ip + 8) 32 ++ toBytesBe 4 n ++ [0, 0, 0, 17] else sub f (ip + 12) 8 ++ [0, 17] ++ toBytesBe 2 n

/-- The datagram at an offset of a frame, if its destination port is that of CRP. One whose checksum does not verify, or whose UDP length does
not fit, is dropped; the rule does not say that the raw ring gets it. (DESIGN CHOICE, log entry 95) -/
def crpDatagram (port : Nat) (f : List Byte) (v6 : Bool) (at_ room : Nat) : FrameKind :=
  let udp := sub f at_ room
  let n := ofBytesBe (sub udp 4 2)
  if udp.length < 8 ∨ ofBytesBe (sub udp 2 2) ≠ port then .raw
  else if n < 8 ∨ udp.length < n then .drop
  else if (v6 || ofBytesBe (sub udp 6 2) != 0) && !checks16 (sum16 (pseudo f v6 n) + sum16 (udp.take n)) then .drop
  else .crp (f.take (at_ + 8)) ((udp.take n).drop 8)

/-- What a frame is, for a CRP port (R180). -/
def frameKind (port : Nat) (f : List Byte) : FrameKind :=
  let ip := ipAt f
  let etype := ofBytesBe (sub f (ip - 2) 2)
  if f.length < 14 ∨ 9216 < f.length then .drop
  else if etype = 0x0800 ∧ (f[ip]?) = some 0x45 ∧ (f[ip + 9]?) = some 17 ∧ ofBytesBe (sub f (ip + 6) 2) % 2 ^ 14 = 0 then
    crpDatagram port f false (ip + 20) (ofBytesBe (sub f (ip + 2) 2) - 20)
  else if etype = 0x86DD ∧ (f[ip]?.getD 0).toNat / 16 = 6 ∧ (f[ip + 6]?) = some 17 then
    crpDatagram port f true (ip + 40) (ofBytesBe (sub f (ip + 4) 2))
  else .raw

/-- The partition of a frame (R180). -/
def State.framePart (s : State) (f : List Byte) : Option Nat :=
  let mac := ofBytesBe (sub f 0 6)
  (List.range 17).find? fun p => mac != 0 && s.csrF (0x0F0 + p) 47 0 == mac

/-- A datagram back to where a request came from, in a frame of its kind: fields that no rule states are open.
(DESIGN CHOICE, log entry 65) -/
def State.answerFrame (s : State) (hdr msg : List Byte) : List Byte :=
  let ip := ipAt hdr
  let v6 := ofBytesBe (sub hdr (ip - 2) 2) == 0x86DD
  let n := 8 + msg.length
  let open_ (n i : Nat) : List Byte := toBytes n (Config.free 64 s.tick .word i msg.length).toNat
  let eth := sub hdr 6 6 ++ sub hdr 0 6 ++ sub hdr 12 (ip - 12)
  let ports := let u := hdr.drop (hdr.length - 8); sub u 2 2 ++ sub u 0 2
  let iph := if v6 then
      let tc := open_ 4 1
      [0x60 ||| ((tc[0]?.getD 0) &&& 0x0F)] ++ tc.drop 1 ++ toBytesBe 2 n ++ [17] ++ open_ 1 2 ++ sub hdr (ip + 24) 16 ++ sub hdr (ip + 8) 16
    else
      let h1 := [0x45] ++ open_ 1 1 ++ toBytesBe 2 (20 + n) ++ open_ 2 3 ++ [0, 0] ++ open_ 1 2 ++ [17]
      let h2 := sub hdr (ip + 16) 4 ++ sub hdr (ip + 12) 4
      h1 ++ toBytesBe 2 (check16 (sum16 h1 + sum16 ([0] ++ [0] ++ h2)) % 65535) ++ h2
  let ps := if v6 then sub hdr (ip + 8) 32 ++ toBytesBe 4 n ++ [0, 0, 0, 17] else sub hdr (ip + 12) 8 ++ [0, 17] ++ toBytesBe 2 n
  let u0 := ports ++ toBytesBe 2 n
  eth ++ iph ++ u0 ++ toBytesBe 2 (check16 (sum16 ps + sum16 u0 + sum16 msg)) ++ msg

/-! ### CRP messages (R181, R182) -/

/-- The GCM key of a key slot (R26, R182). -/
def State.gcmKey (s : State) (slot : Nat) : List Byte := toBytes 32 (((s.keys.find? slot).getD (Config.resetKey slot)).toNat / 2 ^ 512)

/-- The nonce of R182. -/
def crpNonce (m dir seq : Nat) : List Byte := toBytes 12 (m + 2 ^ 14 * dir + 2 ^ 16 * seq)

/-- A message of the device, sealed (R181, R182): KEY and OP of an answer no rule states. -/
def State.sealMsg (s : State) (type m seq status ctx : Nat) (payload : List Byte) : List Byte :=
  let clear := toBytes 16 (type + 2 ^ 4 + 2 ^ 16 * m + 2 ^ 32 * payload.length + 2 ^ 64 * seq)
  let sealed_ := toBytes 17 (Config.free 136 s.tick .word m seq).toNat ++ toBytes 7 status ++ toBytes 8 ctx
  let key := s.gcmKey (s.mcbF m 35 26)
  let text := gcmCrypt key (crpNonce m 1 seq) (sealed_ ++ payload)
  clear ++ text ++ gcmTag key (crpNonce m 1 seq) clear text

/-- A frame leaves a port. -/
def State.sendFrame (s : State) (port : Nat) (f : List Byte) : State := { s with out := .frame port f :: s.out }

/-- A field of CRPCNT of a partition one higher, saturating (R184). -/
def State.crpCount (s : State) (p lo : Nat) : State :=
  let v := s.csrN (0x110 + p)
  if bits v (lo + 15) lo = 0xFFFF then s else s.setCsr (0x110 + p) (BitVec.ofNat 64 (v + 2 ^ lo))

/-- A request answered BUSY (2) or ERROR (3) with a code (R184). -/
def State.crpAnswer (s : State) (port p type m seq code ctx : Nat) (hdr : List Byte) : State :=
  (s.sendFrame port (s.answerFrame hdr (s.sealMsg type m seq code ctx []))).crpCount p (if type = 2 then 32 else 48)

/-! ### Replay windows (R183) -/

/-- The replay window of an MC: the highest SEQ, and above it the map, bit i for the number i + 1 below. (DESIGN CHOICE, log entry 42) -/
def State.windowPa (s : State) (m : Nat) : Nat := s.csrF (0x05C + m / 4096) 47 0 + 16 * (m % 4096)

/-- Is a SEQ fresh (R183)? (DESIGN CHOICE, log entry 42) -/
def State.freshSeq (s : State) (m seq : Nat) : Bool :=
  let w := s.rd (s.windowPa m) 16
  let high := bits w 63 0
  decide (high < seq) || (decide (seq < high) && decide (high ≤ seq + 64) && !bit w (64 + (high - 1 - seq)))

/-- A SEQ marked in the window. -/
def State.markSeq (s : State) (m seq : Nat) : State :=
  let w := s.rd (s.windowPa m) 16
  let high := bits w 63 0
  let map := bits w 127 64
  let v := if high < seq then seq + 2 ^ 64 * (if seq - high ≤ 64 then (map * 2 ^ (seq - high) + 2 ^ (seq - high - 1)) % 2 ^ 64 else 0)
    else high + 2 ^ 64 * (map ||| 2 ^ (high - 1 - seq))
  s.wr (s.windowPa m) v 16

/-! ### Ingress (R184) -/

/-- The agent number of the engine of an Ethernet port (`Given`). -/
def etherAgent (port : Nat) : Nat := 2 ^ 69 + port

/-- A write of an Ethernet engine in an ASID (R419); `rels` are the releases that it is. Answers whether it was made. -/
def etherWrite (port asid va : Nat) (bs : List Byte) (rels : List Rel := []) : M Bool := do
  match ← xlateRun (etherAgent port) (port / 2) asid va bs.length with
  | none => pure false
  | some ls => do
    writePlaces rels ls bs
    pure true

/-- A buffer goes back to the ingress pool of an ASID; without a pool it is dropped (R185). -/
def State.returnBuf (s : State) (asid buf : Nat) : State :=
  match s.ingPool asid with
  | none => s
  | some d => s.poolPut (s.asidPart asid) d buf

/-- The first free return slot of a die (R184). -/
def State.freeSlot (s : State) (die : Nat) : Option Nat :=
  let used := (s.rslots.filter fun r => r.die = die ∧ s.frame < r.stop).map (·.slot)
  (List.range 8192).find? fun i => !used.contains i

/-- A return slot taken (R184). -/
def State.addSlot (s : State) (r : RSlot) : State := { s with rslots := (s.rslots.filter fun q => !(q.die == r.die && q.slot == r.slot)) ++ [r] }

/-- Steps 5 to 7 of R184 for an authenticated request: sealed fields `key` and `ctx`, payload. -/
def crpAccept (port p m seq key ctx : Nat) (hdr payload : List Byte) : M Unit := do
  let s ← get
  let die := port / 2
  let asid := s.mcAsid m
  match (s.ingPool asid).bind (s.poolTake (s.asidPart asid)) with
  | none => set (s.crpAnswer port p 2 m seq 0x03 ctx hdr)
  | some (buf, s1) =>
    match s1.freeSlot die with
    | none => set ((s1.returnBuf asid buf).crpAnswer port p 2 m seq 0x04 ctx hdr)
    | some slot =>
      set s1
      if !(← etherWrite port asid (buf % 2 ^ 52) payload) then
        M.change fun s => (s.returnBuf asid buf).crpAnswer port p 3 m seq 0x14 ctx hdr
      else
        let s ← get
        let desc := buf % 2 ^ 64 + 2 ^ 64 * seq + 2 ^ 128 * ctx + 2 ^ 192 * payload.length + 2 ^ 208 * slot + 2 ^ 224 * die + 2 ^ 226 * port
        let pk := BitVec.ofNat 512 (key + 2 ^ 128 * 0x09 + 2 ^ 144 * m + 2 ^ 160 + 2 ^ 256 * desc)
        let (st, s) := s.push m (s.mcPart m == p) pk (s.madeSince s1)
        if st ≤ 1 then
          set ((s.addSlot ⟨die, slot, m, seq, ctx, port, hdr, s.frame + max 1 (s.csrF 0x061 31 0)⟩).count m 0 7 1)
        else
          let s := s.returnBuf asid buf
          set (if st = 2 ∨ st = 3 then s.crpAnswer port p 2 m seq (st - 1) ctx hdr
            else s.crpAnswer port p 3 m seq (if st = 4 then 0x13 else if st = 6 then 0x11 else 0x12) ctx hdr)

/-- The steps of R184 for a CRP message of a partition. (DEDUCED, log entry 63) -/
def crpIngest (port p : Nat) (hdr msg : List Byte) : M Unit := do
  let s ← get
  let h := ofBytes (msg.take 16)
  let m := bits h 29 16
  let len := bits h 47 32
  let seq := bits h 127 64
  if msg.length < 64 ∨ bits h 3 0 ≠ 0 ∨ bits h 7 4 ≠ 1 ∨ bits h 15 8 ≠ 0 ∨ bits h 31 30 ≠ 0 ∨ bits h 63 48 ≠ 0 ∨ 8192 < len ∨ seq = 0 ∨
      msg.length ≠ 64 + len ∨ s.mcState m = 0 ∨ s.mcPart m ≠ p then pure ()
  else if !s.freshSeq m seq then set (s.crpCount p 16)
  else
    let key := s.gcmKey (s.mcbF m 35 26)
    let text := sub msg 16 (32 + len)
    if gcmTag key (crpNonce m 0 seq) (msg.take 16) text ≠ msg.drop (48 + len) then set (s.crpCount p 0)
    else
      let plain := gcmCrypt key (crpNonce m 0 seq) text
      let v := ofBytes (plain.take 32)
      let ctx := bits v 255 192
      let s := s.markSeq m seq
      if bits v 135 128 ≠ 0x09 then set (s.crpAnswer port p 3 m seq 0x10 ctx hdr)
      else if bits v 191 136 ≠ 0 then set (s.crpAnswer port p 3 m seq 0x12 ctx hdr)
      else
        set s
        crpAccept port p m seq (bits v 127 0) ctx hdr (plain.drop 32)

/-- `CRP_INGRESS` (R184): a frame arrives at a port. One that has to wait for the host's answer to a translation request (R419) has no
other effect yet, and arrives again. One for a partition under SCRUB is dropped (R384, R386). (DEDUCED, log entry 63) -/
def execCrpIngress (port : Nat) (f : List (BitVec 8)) (s : State) : Host.Outcome State Fault Refusal :=
  match s.framePart f, frameKind (s.csrF 0x060 15 0) f with
  | some p, .crp hdr msg => if port < 8 ∧ s.phase p ≠ 3 then runAgent (crpIngest port p hdr msg) s else .next s
  | _, _ => .next s

/-- `RETURN_SLOT_EXPIRE` (R184): a slot that no reply has freed within RETAGE frames is freed. -/
def execReturnSlotExpire (die slot : Nat) (s : State) : Host.Outcome State Fault Refusal :=
  .next { s with rslots := s.rslots.filter fun r => !(r.die == die && r.slot == slot && decide (r.stop ≤ s.frame)) }

/-! ### Raw frames (R388, R389) -/

/-- The agent number of a raw receive ring (`Given`). (DEDUCED, log entry 64) -/
def rawAgent (p : Nat) : Nat := 2 ^ 66 + p

/-- A frame is dropped: LOST rises, if the header can be written (R388). -/
def rawLost (p port asid base : Nat) : M Unit := do
  match ← M.attempt (engRead (rawAgent p) (port / 2) asid ((base + 16) % 2 ^ 52) 8) with
  | .error _ => pure ()
  | .ok bs =>
    let _ ← etherWrite port asid ((base + 16) % 2 ^ 52) (toBytes 8 (ofBytes bs + 1))
    pure ()

/-- A raw frame into the ring of a partition (R388): the entry, and then TAIL as a release at `.SYS`. (DEDUCED, log entry 64) -/
def rawReceive (port p : Nat) (f : List Byte) : M Unit := do
  let s ← get
  let c := s.csrN (0xCE0 + p)
  let base := bits c 51 12 * 4096
  let n := 2 ^ bits c 5 1
  let asid := s.csrF (0x070 + p) 9 0
  if bit c 0 = false then rawLost p port asid base
  else match ← M.attempt (engRead (rawAgent p) (port / 2) asid base 16) with
    | .error _ => rawLost p port asid base
    | .ok bs =>
      let tail := ofBytes (bs.take 8)
      let head := ofBytes (bs.drop 8)
      let a := (base + 64 + 16384 * (tail % n)) % 2 ^ 52
      if (tail + 2 ^ 64 - head) % 2 ^ 64 ≥ n then rawLost p port asid base
      else if !(← etherWrite port asid a (toBytes 8 (f.length + 2 ^ 16 * port))) then rawLost p port asid base
      else if !(← etherWrite port asid ((a + 64) % 2 ^ 52) f) then rawLost p port asid base
      else
        let made := (← get).madeSince s
        if !(← etherWrite port asid base (toBytes 8 (tail + 1)) [⟨.engine, 4, made⟩]) then rawLost p port asid base
  M.change (·.dropGiven (rawAgent p))

/-- `RAW_FRAME_RECEIVE` (R388): a frame that is not CRP arrives at a port; one for a partition under SCRUB is dropped (R384). -/
def execRawFrameReceive (port : Nat) (f : List (BitVec 8)) (s : State) : Host.Outcome State Fault Refusal :=
  match s.framePart f, frameKind (s.csrF 0x060 15 0) f with
  | some p, .raw => if port < 8 ∧ s.phase p ≠ 3 then runAgent (rawReceive port p f) s else .next s
  | _, _ => .next s

/-! ### Egress (R185, R186, R351) -/

/-- Does a command send to the egress window? -/
def Cmd.isEgress (c : Cmd) : Bool := c.op == 0x08 && bits c.desc.toNat 63 61 == 4

/-- A reply header that egress refuses, whatever its KIND (R186). -/
def replyBad (h n : Nat) : Bool :=
  bits h 63 50 != 0 || bits h 511 128 != 0 || decide (8192 < bits h 31 16) || n != 64 + bits h 31 16 || decide (n < 64)

/-- A raw frame that egress refuses (R389, R186). -/
def State.rawBad (s : State) (c : Cmd) (h : Nat) (f : List Byte) : Bool :=
  c.pl == 0 || decide (f.length < 14) || bits h 47 35 != 0 || bits h 49 48 != 0 || bits h 127 64 != 0 ||
    ofBytesBe (sub f 6 6) != s.csrF (0x0F0 + c.part) 47 0

/-- The egress engine on what a copy has brought it: none, or a refusal (R185, R186). -/
def State.egress (s : State) (c : Cmd) (bs : List Byte) : Option State :=
  let h := ofBytes (bs.take 64)
  let kind := bits h 7 0
  let body := bs.drop 64
  if replyBad h bs.length then none
  else if kind = 3 then
    (if s.rawBad c h body then none else some (s.sendFrame (bits h 34 32) (body ++ List.replicate (60 - body.length) 0)))
  else if kind = 1 ∨ kind = 2 then
    match s.rslots.find? fun r => r.die = bits h 49 48 ∧ r.slot = bits h 47 32 ∧ s.frame < r.stop with
    | none => none
    | some r =>
      if r.mcid ≠ c.mcid then none
      else
        let s := { s with rslots := s.rslots.filter (· ≠ r) }
        let s := if kind = 1 then s.sendFrame r.port (s.answerFrame r.client (s.sealMsg 1 r.mcid r.seq (bits h 15 8) r.ctx body)) else s
        some (if bits h 127 64 = 0 then s else s.returnBuf (s.mcAsid c.mcid) (bits h 127 64))
  else none

/-- The work of a `CPY` to the egress window (R351). -/
def egressBody (c : Cmd) : M CmdRes := do
  let d := c.desc.toNat
  let n := bits d 159 128
  let into_ := endpoint (bits d 63 0) n
  let from_ := endpoint (bits d 127 64) n
  if n = 0 ∨ into_.bad ∨ from_.bad ∨ from_.kind = 4 ∨ 5 ≤ bits d 162 160 ∨ bits d 383 164 ≠ 0 then pure (.fail 0x01 0)
  else if 64 + 8192 < n then pure (.fail 0x06 0)
  else
    match ← c.fetchAll from_ n 0 with
    | .error r => pure r
    | .ok (bs, _) =>
      match (← get).egress c bs with
      | none => pure (.fail 0x06 0)
      | some s =>
        set (s.countLanded c n)
        pure .good

/-- `CRP_EGRESS` (R185): the egress engine carries out a copy to the egress window, its completion word among it. -/
def execCrpEgress (id : Nat) (s : State) : Host.Outcome State Fault Refusal :=
  match s.cmds.find? (·.id = id) with
  | some c => if c.isEgress then runCmd (fun c => some <$> egressBody c) id false s else .next s
  | none => .next s

end Sys2Proof.Machine
end

