-- ==== Sys2Proof/Machine/Streams.lean ====
section
/-! DEFINITION. Stream commands: `KVBIND` (R320), `SBIND` and `SBINDG` (R343), `SUNBIND` and `SFLUSH` (R346); walks and prefetches ahead
of a consumer (R19, R62, R321, R345). -/

namespace Sys2Proof.Machine

/-! ### Binding -/

/-- The completion fields of a binding: only ACQ and SCOPE may be set, and SCOPE is one of the five (R320, R343). -/
def bindCompl (d : Nat) : Bool := bit d 385 == false && decide (bits d 388 386 ≤ 4) && bits d 511 389 == 0

/-- Bind a stream with a checked descriptor: a bound stream, or a descriptor that its command refuses, raises ILLEGAL_SLOT. -/
def bindOp (op : Nat) (ok : State → Nat → Bool) (mk : State → Nat → Stream) (c : Ctl) (o : CK) (s : State) :
    Host.Outcome State Fault Refusal :=
  slotOp c (do
    let i := o.sidx.toNat
    let d ← readDesc
    let s ← get
    M.need ((s.strm i).isNone && bindCompl d && ok s d) (.fault illegalSlot)
    let _ ← issueFlags op d
    M.change fun s => s.setStrm i (mk s d)) (s.ckCursor o)

/-- The format that a `KVBIND` copies (R320). -/
def State.bindFmt (s : State) (d : Nat) : Dword := s.getF (bits d 41 39)

/-- Is a `KVBIND` descriptor in order (R320)? -/
def State.kvbindOk (s : State) (d : Nat) : Bool :=
  let ek := bits d 38 37
  let blk := fmtBlock (s.bindFmt d).toNat
  ek != 3 && (ek != 2 || (fmtValid (s.bindFmt d) && (blk == 0 || bits d 57 50 % blk == 0))) &&
    decide (bits d 87 64 ≤ bits d 120 96) && decide (bits d 120 96 ≤ 2 ^ 24) &&
    bits d 63 58 == 0 && bits d 95 88 == 0 && bits d 127 121 == 0 && bits d 383 136 == 0

/-- The stream that `KVBIND` binds (R320). -/
def State.kvStream (s : State) (d : Nat) : Stream where
  kind := .kv
  push := false
  nt := false
  asid := s.core.asid
  base := 0
  estride := 0
  index := 0
  left := 0
  seq := bits d 19 0
  layer := bits d 27 20
  head := bits d 35 28
  vrow := bit d 36
  ekind := bits d 38 37
  fmt := s.bindFmt d
  dim := bits d 49 42 + 1
  eoff := bits d 57 50
  soff := bits d 135 128
  cur := bits d 87 64
  stop := bits d 120 96
  ahead := []
  pins := []
  pushed := []
  view := s.issueView (bit d 384)

/-- `KVBIND` (R320). -/
def execKvbind : Ctl → CK → State → Host.Outcome State Fault Refusal := bindOp 0x46 State.kvbindOk State.kvStream

/-- Is a stream binding descriptor in order (R343)? -/
def sbindOk (global : Bool) (d : Nat) : Bool :=
  bits d 95 64 != 0 && bits d 127 96 % 64 == 0 && bits d 51 0 % 64 == 0 && bits d 63 54 == 0 && bits d 383 128 == 0 &&
    (global || bits d 51 21 == 0) && (!bit d 53 || (global && bit d 52))

/-- The stream that `SBIND` or `SBINDG` binds (R343). -/
def State.elemStream (s : State) (global : Bool) (d : Nat) : Stream where
  kind := if global then .global else .scratch
  push := bit d 52
  nt := bit d 53
  asid := s.core.asid
  base := bits d 51 0
  estride := sext (bits d 127 96) 32
  index := 0
  left := bits d 95 64
  seq := 0
  layer := 0
  head := 0
  vrow := false
  ekind := 0
  fmt := 0
  dim := 0
  eoff := 0
  soff := 0
  cur := 0
  stop := 0
  ahead := []
  pins := []
  pushed := []
  view := s.issueView (bit d 384)

/-- `SBIND` (R343). -/
def execSbind : Ctl → CK → State → Host.Outcome State Fault Refusal := bindOp 0x01 (fun _ => sbindOk false) (·.elemStream false)
/-- `SBINDG` (R343). -/
def execSbindg : Ctl → CK → State → Host.Outcome State Fault Refusal := bindOp 0x02 (fun _ => sbindOk true) (·.elemStream true)

/-! ### SUNBIND and SFLUSH (R346) -/

/-- What a peer still answers to a KV stream of the executing core is no longer wanted. -/
def State.dropAsk (s : State) (i : Nat) : State := s.forgetRows fun q => q.agent == s.cur && q.key == i

/-- A stream is unbound: its pushed elements are written, its pins released (R346, R75). -/
def State.unbind (s : State) (i : Nat) (t : Stream) : State :=
  let s := (s.performAll t.pushed.flatten).1
  (t.pins.foldl State.unpin (s.dropAsk i)).dropStrm i

/-- `SUNBIND` (R346): its operand fields but the stream are zero. -/
def execSunbind (c : Ctl) (o : CK) : State → Host.Outcome State Fault Refusal :=
  slotOp c do
    let i := o.sidx.toNat
    match (← get).strm i with
    | none => M.stop (.fault illegalSlot)
    | some t => M.change (·.unbind i t)

/-- What `SFLUSH` does to a stream (R346): pushed elements are written, and `c`, its command, has them before its completion word (R129); what
was read ahead is discarded, and later reads are under the ACQ of `c`; a KV stream walks again, its pins still held (R75). -/
def State.flushStream (s : State) (c : Cmd) (i : Nat) (t : Stream) : State :=
  if t.push then
    let s := if t.nt then s.letOut.drainNt else s
    let (s, ids) := s.performAll t.pushed.flatten
    let view := addIds t.view ids
    (s.cmdSaw c view).setStrm i { t with pushed := [], view := view }
  else (s.dropAsk i).setStrm i { t with ahead := [], pins := t.pins.map (fun p => { p with limit := 0 }), view := c.view }

/-- Is a descriptor that holds completion fields only malformed? -/
def complOnlyBad (op d : Nat) : Bool := bits d 383 0 != 0 || (complOf op d).bad

/-- `SFLUSH` (R346): its effect is at its issue; the completion word follows. -/
def execSflush (c : Ctl) (o : CK) (s : State) : Host.Outcome State Fault Refusal :=
  slotOp c (do
    let i := o.sidx.toNat
    let d ← readDesc
    let s ← get
    match s.strm i with
    | none => M.stop (.fault illegalSlot)
    | some t =>
      M.need (s.mine Cmd.isCopy < 32) (.stall .other)
      let cmd ← sendCmd 0x04 d (s.cursor 0)
      if complOnlyBad 0x04 d then pure () else M.change (·.flushStream cmd i t)) (s.ckCursor o)

/-- What is left of an `SFLUSH` once its effect stands: its completion word. -/
def sflushBody (c : Cmd) : M CmdRes := pure (if complOnlyBad 0x04 c.desc.toNat then .fail 0x01 0 else .good)

/-! ### Walks and prefetches ahead of a consumer -/

/-- `PAGE_WALK` (R19, R22, R36): the walkers of a die walk for an access, setting A and D; the answer is cached. -/
def execPageWalk (asid va : Nat) (acc : Access) (s : State) : Host.Outcome State Fault Refusal :=
  if inHost (va % 2 ^ 52) then .next s
  else
    match s.xlateWalk s.die asid (va % 2 ^ 52) acc with
    | (.hit _, s') => .next s'
    | (.steep f, _) => .next (s.applyPost (.ahead f))
    | _ => .next s

/-- Carry out a computation of a stream of a running task: what it asks of the units stands, a fault or a wait has no effect. -/
def streamAgent (n : Nat) (m : M Unit) (s : State) : Host.Outcome State Fault Refusal :=
  if (s.coreAt n).run = .running then
    match M.atCore n m s with
    | .ok (_, s') => .next s'
    | .error (.hole pa, _) => .fault (.noFrame pa)
    | .error (_, ps) => .next ((ps.filter fun p => !p.ofStall).foldl State.applyPost s)
  else .next s

/-- The walk of a KV stream at a position: its block is pinned (R62, R75). -/
def walkPin (i : Nat) (t : Stream) (pos : Nat) : M Unit := do
  let (_, pins) ← kvFetch i t pos
  M.change (·.setStrm i { t with pins := pins })

/-- `KV_WALK` (R62): a KV stream walks the block of its next position. -/
def execKvWalk (n i : Nat) (s : State) : Host.Outcome State Fault Refusal :=
  streamAgent n (do
    match (← get).strm i with
    | none => pure ()
    | some t => if t.kind = .kv ∧ t.cur + t.ahead.length < t.stop then walkPin i t (t.cur + t.ahead.length) else pure ()) s

/-- `PIN_WAIT_RELEASE` (R62): a walk that waited at PIN = 4,095 raises PIN. -/
def execPinWaitRelease (n i : Nat) (s : State) : Host.Outcome State Fault Refusal :=
  streamAgent n (do
    match (← get).strm i with
    | none => pure ()
    | some t => if t.kind = .kv ∧ t.cur < t.stop then walkPin i t t.cur else pure ()) s

/-- Is a prefetch that ends with a fault kept, to be raised at the pop? A missing block and an absent page are met afresh there. -/
def FaultInfo.kept (f : FaultInfo) : Bool := !([0x12, 0x15, 0x16] : List Nat).contains f.cause

/-- One more element or row read ahead: its value, or the fault that the pop will raise. -/
def Stream.readAhead (t : Stream) (r : Except FaultInfo (BitVec 4096)) : Stream :=
  match r with
  | .ok v => { t with ahead := t.ahead ++ [⟨v, none⟩] }
  | .error f => if f.kept then { t with ahead := t.ahead ++ [⟨0, some f⟩] } else t

/-- `KV_STREAM_PREFETCH` (R321): a KV stream fetches a row beyond CUR; at most 128. -/
def execKvStreamPrefetch (n i : Nat) (s : State) : Host.Outcome State Fault Refusal :=
  streamAgent n (do
    match (← get).strm i with
    | none => pure ()
    | some t =>
      if t.kind = .kv ∧ t.ahead.length < 128 ∧ t.cur + t.ahead.length < t.stop ∧ t.ahead.all (·.bad.isNone) then
        match ← M.attempt (kvFetch i t (t.cur + t.ahead.length)) with
        | .ok (v, pins) => M.change (·.setStrm i ({ t with pins := pins }.readAhead (.ok v)))
        | .error f => M.change (·.setStrm i (t.readAhead (.error f)))
      else pure ()) s

/-- `STREAM_PREFETCH` (R345): a global read stream reads an element ahead; at most 32. -/
def execStreamPrefetch (n i : Nat) (s : State) : Host.Outcome State Fault Refusal :=
  streamAgent n (do
    match (← get).strm i with
    | none => pure ()
    | some t =>
      if t.kind = .global ∧ !t.push ∧ t.ahead.length < 32 ∧ t.ahead.length < t.left ∧ t.ahead.all (·.bad.isNone) then
        match ← M.attempt (globalElement t.asid (t.place (2 ^ 52) (t.index + t.ahead.length)) t.view) with
        | .ok (v, ids) => M.change (·.setStrm i ({ t with view := addIds t.view ids }.readAhead (.ok v)))
        | .error f => M.change (·.setStrm i (t.readAhead (.error f)))
      else pure ()) s

end Sys2Proof.Machine
end

