-- ==== Sys2Proof/Machine/Complete.lean ====
section
/-! DEFINITION. The engines' turns at outstanding commands (R114, R317, R340), and the ends of bounded waits (R41, R72). -/

namespace Sys2Proof.Machine

/-- The work of a command at one turn of its engine, by its opcode: how it ends, or none where it goes on later. -/
def engineBody (c : Cmd) : M (Option CmdRes) :=
  match c.op with
  | 0x04 => some <$> sflushBody c
  | 0x08 => if c.isEgress then some <$> egressBody c else cpyBody c
  | 0x09 => cpy2dBody c
  | 0x0A => mcstBody c
  | 0x40 => some <$> kvnewBody c
  | 0x41 => some <$> kvappBody c
  | 0x42 => some <$> kvtruncBody c
  | 0x43 => some <$> kvforkBody c
  | 0x44 => some <$> kvfreeBody c
  | 0x47 => some <$> kvqryBody c
  | 0x61 => credBody c
  | 0x62 => cbcastBody c
  | _ => some <$> mapBody c

/-- The descriptors of the sequences that a command changes (R76). -/
def State.seqsOf (s : State) (c : Cmd) : List Nat :=
  if 0x40 ≤ c.op ∧ c.op ≤ 0x44 then
    ((if c.op = 0x43 then [bits c.desc.toNat 19 0, bits c.desc.toNat 51 32] else [bits c.desc.toNat 19 0]).filterMap (s.seqPa c.mcid))
  else []

/-- Does another command hold a sequence that this one changes: one that has begun, and waits (R76)? -/
def State.seqHeld (s : State) (c : Cmd) : Bool :=
  c.wait.isNone && s.cmds.any fun q => q.id != c.id && q.wait.isSome && (s.seqsOf q).any (s.seqsOf c).contains

/-- A turn of its engine at a command: racking and migration go block by block and page by page; every other command goes to its end,
or to a wait. A command that has begun to change a sequence ends before another does (R76). -/
def engineTurn (id : Nat) (last : Bool) (s : State) : Host.Outcome State Fault Refusal :=
  match s.cmds.find? (·.id = id) with
  | none => .next s
  | some c =>
    if c.op = 0x45 then workCmd rackTurn id last s
    else if c.op = 0x60 then workCmd (migrTurn false) id last s
    else if s.seqHeld c then .next s
    else runCmd engineBody id last s

/-- `COMMAND_COMPLETION` (R114): an engine carries an outstanding command on, to its completion word where nothing makes it wait. -/
def execCommandCompletion (id : Nat) (s : State) : Host.Outcome State Fault Refusal := engineTurn id false s

/-- Is a block of this package still missing (R62, R72)? -/
def State.blockMissing (s : State) (gbn : Nat) : Bool :=
  match s.gbtPa gbn with
  | none => false
  | some g => [2, 3].contains (s.gbtF g 3 2) && s.gbtF g 5 5 == 0

/-- Is the block that a wait names still missing? Of a block of another package its owner has said so (R61). -/
def State.stillMissing (s : State) (gbn : Nat) (fi : FaultInfo) : Bool := bits fi.info.toNat 67 60 != s.fabId || s.blockMissing gbn

/-- Is a segment still steeping (R41)? -/
def State.segSteeping (s : State) (frame : Nat) : Bool := s.gristF frame 257 256 == 1

/-- The limit of the wait of a task has run out: its fault is raised at the bundle that waits (R41, R72). Where the wait is that of a stop for its
live-mask entry the stop is made with a full image, and no fault is raised (R374). -/
def State.expireCore (s : State) (n : Nat) (fi : FaultInfo) : State :=
  s.at_ n fun s =>
    match s.stopHeader with
    | some h => s.stopTask 0 h.lmi.toNat none false none
    | none => s.takeWait fi

/-- `KVWAIT_EXPIRE` (R72, R318): KVWAIT of a task or of a command has run out on a block that is still missing.
(DESIGN CHOICE, log entry 50) -/
def execKvwaitExpire (h : Holder) (s : State) : Host.Outcome State Fault Refusal :=
  match h with
  | .core n =>
    .next (match (s.coreAt n).run, (s.coreAt n).wait with
      | .running, some (.kv _ _ gbn fi) => if s.stillMissing gbn fi then s.expireCore n fi else s
      | _, _ => s)
  | .cmd id =>
    match (s.cmds.find? (·.id = id)).bind (·.wait) with
    | some (.kv _ _ gbn fi) => if s.stillMissing gbn fi then engineTurn id true s else .next s
    | _ => .next s

/-- `STEEPWAIT_EXPIRE` (R41, R341): STEEPWAIT has run out on a segment that is still steeping. (DESIGN CHOICE, log entry 50) -/
def execSteepwaitExpire (h : Holder) (s : State) : Host.Outcome State Fault Refusal :=
  match h with
  | .core n =>
    .next (match (s.coreAt n).run, (s.coreAt n).wait with
      | .running, some (.steep frame fi) => if s.segSteeping frame then s.expireCore n fi else s
      | _, _ => s)
  | .cmd id =>
    match (s.cmds.find? (·.id = id)).bind (·.wait) with
    | some (.steep frame _) => if s.segSteeping frame then engineTurn id true s else .next s
    | _ => .next s

end Sys2Proof.Machine
end

