-- ==== Sys2Proof/Machine/Lifecycle.lean ====
section
/-! DEFINITION. The lifecycle of a partition (R381 to R386, R391) and the frame boundary (R195, R198). -/

namespace Sys2Proof.Machine

/-- A phase is entered (R381). -/
def State.enterPhase (s : State) (p ph : Nat) : State := s.setCsr (0xCA0 + p) (BitVec.ofNat 64 (ph + 2 ^ 4 * (s.frame % 2 ^ 60)))

/-- The MCs of a partition whose MCB is not FREE. -/
def State.partMcs (s : State) (p : Nat) : List Nat := (s.mcs.filter fun e => s.mcPart e.1 == p).map (·.1)

/-- The MC slots granted to a partition (R280). -/
def State.partSlots (s : State) (p : Nat) : List Nat :=
  (s.grants.filter fun g => g.part = p ∧ g.kind = 2).flatMap fun g => (List.range g.count).map (g.base + ·)

/-- The ASIDs of a partition. -/
def State.partAsids (s : State) (p : Nat) : List Nat := (List.range 1024).filter fun a => s.asidPart a == p

/-! ### DRAIN, PAUSED, ACTIVE (R382, R383, R391) -/

/-- DRAIN is entered: pops are held, and every running group is asked to stop (R383). A request to become ACTIVE that has not yet taken
effect is given up. -/
def State.drain (s : State) (p : Nat) : State :=
  let s := { (s.enterPhase p 1) with hold := if s.hold.contains p then s.hold else p :: s.hold,
                                     staged := s.staged.filter (·.1 ≠ 0xCA0 + p) }
  (s.partMcs p).foldl (fun s m => (s.onCoreGroups m).foldl (fun s g => s.askStop m g .drain) s) s

/-- Has a partition under DRAIN come to rest (R382)? -/
def State.drained (s : State) (p : Nat) : Bool :=
  s.phase p == 1 && (s.partMcs p).all (fun m => s.onCoreGroups m == []) && !(s.plans.any fun q => s.mcPart q.mcid == p) &&
    !(s.cmds.any fun c => c.part == p)

/-- Every TSOFFSET of a partition's MCBs changed (R391). -/
def State.shiftTime (s : State) (p : Nat) (f : Nat → Nat) : State :=
  (s.partMcs p).foldl (fun s m => s.setMcbF m 895 832 (f (s.mcbF m 895 832) % 2 ^ 64)) s

/-- PAUSED is entered: guest time is frozen (R391). -/
def State.pause (s : State) (p : Nat) : State := (s.enterPhase p 2).shiftTime p (· + s.devns)

/-- ACTIVE is entered: pops are no longer held; guest time goes on (R383, R391). -/
def State.activate (s : State) (p : Nat) : State :=
  let s := if s.phase p = 2 then s.shiftTime p (· + 2 ^ 64 - s.devns % 2 ^ 64) else s
  { (s.enterPhase p 0) with hold := s.hold.filter (· ≠ p) }

/-! ### SCRUB and RELEASE (R384, R385) -/

/-- SCRUB is entered, and its steps 1 to 3 (R384): the final usage record; pushes are refused from now on; the jobs end, the records
go, every MCB of the partition's slots becomes DISABLED. (DESIGN CHOICE, log entry 55) -/
def State.scrub (s : State) (p : Nat) : State :=
  let s := { (s.enterPhase p 3).sealUsage p false true with staged := s.staged.filter (·.1 ≠ 0xCA0 + p) }
  let s := (s.partMcs p).foldl State.killJob s
  let s := { s with resume := s.resume.filter (s.mcPart ·.mcid ≠ p), dispq := s.dispq.filter (·.part ≠ p),
                    recs := s.recs.filter (·.part ≠ p), pending := s.pending.filter fun e => s.mcPart e.1 != p }
  (s.partSlots p).foldl (fun s m => s.setMcbF m 3 0 4) s

/-- Every sequence of the tables that the MCBs of a partition's slots name is freed (R384 step 4). -/
def State.freeSequences (s : State) (p : Nat) : State :=
  (s.partSlots p).foldl (init := s) fun s m =>
    (List.range (if s.mcbF m 191 128 = 0 then 0 else 2 ^ s.mcbF m 132 128)).foldl (init := s) fun s q =>
      match s.seqInfo m q with
      | some q => (s.freeSeq q).2
      | none => s

/-- Every GBT entry of a partition that is not FREE becomes FREE (R384 step 4). -/
def State.freeBlocks (s : State) (p : Nat) : State :=
  (List.range 4).foldl (init := s) fun s d =>
    (List.range (s.csrF (0x058 + d) 29 0)).foldl (init := s) fun s i =>
      let g := s.csrF (0x054 + d) 47 0 + 32 * i
      if s.gbtF g 46 42 = p ∧ s.gbtF g 3 2 ≠ 0 then (s.setGbtF g 3 2 0).countBlock (s.gbtF g 41 32) false else s

/-- The grist leaves of a level-3 table go (R384 step 5). -/
def State.dropLeaves (s : State) (t : Nat) : State :=
  (List.range 4096).foldl (init := s) fun s i =>
    let e := s.rd (t + 8 * i) 8
    if bit e 0 ∧ bit e 3 then
      let s := s.wr (t + 8 * i) 0 8
      if s.isGrist (gristFrame e) then s.unrefFrame (gristFrame e) 1 else s
    else s

/-- The tables of a level that an entry list names. -/
def State.subTables (s : State) (p t n : Nat) : List Nat :=
  (List.range n).filterMap fun i =>
    let e := s.rd (t + 8 * i) 8
    if bit e 0 ∧ !bit e 7 ∧ s.frameValid p (bits e 47 15 * 2 ^ 15) then some (bits e 47 15 * 2 ^ 15) else none

/-- Every grist leaf of the page tables that the MCBs of a partition's slots name goes (the entries of the host window are never read, R14),
and its bit of every PGRANT (R384 step 5). -/
def State.dropGrist (s : State) (p : Nat) : State :=
  let s := (s.partSlots p).foldl (init := s) fun s m =>
    let root := s.mcbF m 111 64
    if s.frameValid p root then
      ((s.subTables p root 0xF00).flatMap fun t => s.subTables p t 4096).foldl State.dropLeaves s
    else s
  s.gristPool.foldl (fun s f => s.setGristF f (296 + p) (296 + p) 0) s

/-- Zeros to every granted frame (R384 step 7). -/
def State.zeroGranted (s : State) (p : Nat) : State :=
  let mine (a : Nat) := s.granted p a
  { s with mem := s.mem.filter fun c => !mine c.1, lineTag := s.lineTag.filter fun e => !mine (64 * e.1),
           poison := s.poison.filter fun e => !mine (64 * e.1),
           hist := (s.hist.map fun w => { w with cells := w.cells.filter fun c => !mine c.1 }).filter (·.cells ≠ []),
           cxl := (s.cxl.map fun w => { w with cells := w.cells.filter fun c => !mine c.1 }).filter (·.cells ≠ []) }

/-- Zeros to the scratchpad and the tiles of every owned core (R384 step 7). -/
def State.zeroCores (s : State) (p : Nat) : State :=
  { s with cores := s.cores.map fun e => if s.holds p 0 e.1 then (e.1, { e.2 with sp := .zero, tiles := .zero, spBad := [] }) else e }

/-- Steps 4 to 8 of SCRUB (R384), and its end in REASSIGN (R382). (DESIGN CHOICE, log entry 55) -/
def scrubSteps (p : Nat) : M Unit := do
  M.change fun s => ((s.freeSequences p).freeBlocks p).dropGrist p
  invalidateAsids ((← get).partAsids p)
  M.change fun s =>
    -- the keys are loaded while the MCBs still name their slots: that clears the replay windows
    let s := (s.partAsids p).foldl State.randomKey ((s.zeroGranted p).zeroCores p)
    ((s.partSlots p).foldl (fun s m => s.setMcb m 0) s).enterPhase p 4

/-- Has the root left a partition time for its SCRUB: at every unit a floor, or a weight (R384)? (DESIGN CHOICE, log entry 55) -/
def State.mayScrub (s : State) (p : Nat) : Bool :=
  s.csrF (0x130 + p) 8 0 != 0 || (List.range 8).all fun r => s.csrF (0x170 + p) (8 * r + 7) (8 * r) != 0

/-- `SCRUB_COMPLETE` (R384): every step of SCRUB is done. -/
def execScrubComplete (p : Nat) (s : State) : Host.Outcome State Fault Refusal :=
  if p < 16 ∧ s.phase p = 3 ∧ s.mayScrub p then runAgent (scrubSteps p) s else .next s

/-- RELEASE (R385). -/
def State.releasePart (s : State) (p : Nat) : State :=
  let slots := (List.range 256).filter fun i => s.csrF (0x200 + i) 4 0 == p
  let reset := [0x150 + p, 0x170 + p, 0x190 + p, 0x0D0 + p, 0x0F0 + p]
  let s := { (s.enterPhase p 5) with
    grants := s.grants.filter (·.part ≠ p),
    staged := s.staged.filter (·.1 ≠ 0xCA0 + p) ++ slots.map fun i => (0x200 + i, 0x1F),
    csrs := reset.foldl (fun m n => m.erase n) s.csrs }
  if s.csrF 0x062 4 0 = p then s.setCsr 0x062 (s.csr 0x062 &&& ~~~0x20) else s

/-! ### The frame boundary -/

/-- A staged write takes effect: the phase ACTIVE of a partition (R382), or a CSR (R195, R198, R199, R414). -/
def State.applyStaged (s : State) (n : Nat) (v : Dword) : State :=
  if 0xCA0 ≤ n ∧ n ≤ 0xCB0 then s.activate (n - 0xCA0) else s.setCsr n v

/-- BWFLOOR of every partition follows CAL (R195). -/
def State.setFloors (s : State) : State :=
  (List.range 17).foldl (init := s) fun s p =>
    s.setCsr (0x130 + p) (BitVec.ofNat 64 ((List.range 256).filter fun i => s.csrF (0x200 + i) 4 0 == p).length)

/-- Credit of a partition at a unit at the end of a frame: the owned slots left unused, up to the cap of the frame that ends (R198).
(DESIGN CHOICE, log entry 98) -/
def State.creditOf (s : State) (p : Nat) (e : CalUse) : CalUse :=
  { e with credit := min (min 256 (s.csrF (0x190 + p) 8 0)) (e.credit + (s.csrF (0x130 + p) 8 0 - e.owned)), used := 0, drawn := 0, owned := 0 }

/-- Credit at the end of a frame, at every unit: unit 0 stands for those that have served nobody yet. An account that comes out all zero
stays at a unit of its own. -/
def State.setCredit (s : State) : State :=
  let old := (List.range 17).foldl (fun m p => if (FMap.find? m p).isNone then m.insert p CalUse.zero else m) s.cal
  { s with cal := (old.map fun e => (e.1, s.creditOf (e.1 % 17) e.2)).filter fun e => decide (17 ≤ e.1) || e.2 != CalUse.zero }

/-- A partition under DRAIN that has come to rest enters PAUSED (R382). -/
def State.settleDrain (s : State) (p : Nat) : State := if s.drained p then s.pause p else s

/-- A release without the writes that every agent sees by now. -/
def Rel.recent (s : State) (r : Rel) : Rel := { r with view := s.alive r.view }

/-- What a task knows, without the writes that every agent sees by now. -/
def View.recent (s : State) (v : View) : View :=
  let rels (l : List Rel) := (l.map (·.recent s)).filter fun r => r.view != [] || r.scope == 4
  { v with seen := s.alive v.seen, acq := s.alive v.acq, got := ⟨s.alive v.got.ids, rels v.got.rels⟩, nt := s.alive v.nt, rels := rels v.rels, full := rels v.full }

/-- A write is seen by every agent once the frame after its own has ended (R98); one behind which a page copy in progress may have read is
kept for as long (R110). (DEDUCED, log entry 32) -/
def State.settleWrites (s : State) : State :=
  let open_ := s.cmds.filterMap fun (c : Cmd) => if c.op = 0x60 ∧ c.coll ≠ 0 then some (c.coll - 1) else none
  let s := { s with hist := s.hist.filter fun w => decide (s.frame ≤ w.frame + 1) || open_.any fun i => decide (i ≤ w.id) }
  { s with fences := (s.fences.map (·.recent s)).filter (·.view ≠ []), posted := s.posted.map fun e => (e.1, s.alive e.2),
           seqView := (s.seqView.map fun e => (e.1, s.alive e.2)).filter (·.2 ≠ []),
           cores := s.cores.map fun e => (e.1, { e.2 with view := e.2.view.recent s }) }

/-- The end of a frame: credit, the staged writes, BWFLOOR, DEFER, the phases of partitions, the records that wait (R195, R198, R188,
R382, R364, R393), and the writes that every agent sees from now on. The slices follow (`State.frameBoundary`). -/
def State.frameEnd (s : State) : State :=
  let s := { s.setCredit with frame := s.frame + 1, cycle := 0, defer := [], staged := [] }.settleWrites
    |> fun t => s.staged.foldl (fun t e => t.applyStaged e.1 e.2) t
  let s := (List.range 16).foldl State.settleDrain s.sendDecs.setFloors
  let s := s.retryRecords
  (List.range 17).foldl State.flushSeals (s.allGroups.foldl (fun s g => s.settleParked g.1 g.2) s)

/-- `DRAIN_COMPLETE` (R382): at a frame boundary, a partition under DRAIN that has come to rest enters PAUSED. -/
def execDrainComplete (p : Nat) (s : State) : Host.Outcome State Fault Refusal :=
  .next (if p < 16 ∧ s.cycle = 0 then s.settleDrain p else s)

/-- `USAGE_SEAL` (R393): the record of a partition falls due. -/
def execUsageSeal (p : Nat) (s : State) : Host.Outcome State Fault Refusal :=
  let e := s.sealOf p
  .next (if p ≤ 16 ∧ (p = 16 ∨ s.partExists p) ∧ e.due ≤ s.frame then
    let s := s.sealUsage p false false
    { s with seals := s.seals.insert p { s.sealOf p with due := e.due + 2 ^ 20 } }
  else s)

end Sys2Proof.Machine
end

