-- ==== Sys2Proof/Machine/Schedule.lean ====
section
/-! DEFINITION. Dispatch: the scanner and the hitch (R188 to R194), launches (R153, R421), stops, swaps and parking (R362, R369 to R371), the
calendar (R195 to R199), what the core's units do on their own (R43, R93, R127). -/

namespace Sys2Proof.Machine

/-! ### Cores and blocks (R150, R192) -/

/-- The time-sliced partition, if there is one (R199). -/
def State.sliced (s : State) : Option Nat := if s.csrF 0x062 5 5 = 1 then some (s.csrF 0x062 4 0) else none

/-- May groups of a partition take a core (R192, R196)? -/
def State.mayUse (s : State) (part n : Nat) : Bool :=
  !s.boot.disabled.contains n &&
    (s.holds part 0 n || (s.sliced == some part && !s.grants.any fun g => g.kind = 0 ∧ g.base ≤ n ∧ n < g.base + g.count))

/-- Does a block of `size` cores from a core of a die hold core `n`? -/
def inBlock (die core size n : Nat) : Bool := decide (64 * die + core ≤ n) && decide (n < 64 * die + core + size)

/-- The cores of a group, by its job. -/
def State.sizeOf (s : State) (m : Nat) : Nat := (s.job m).elim 1 (·.size)

/-- Is a core reserved, for a hitch or for a group that returns (R190, R194)? -/
def State.reserved (s : State) (n : Nat) : Bool :=
  (s.plans.any fun p => p.places.any fun q => inBlock q.1 q.2 p.size n) || s.back.any fun b => inBlock b.die b.core (s.sizeOf b.mcid) n

/-- The cores of a block. -/
def blockCores (die core size : Nat) : List Nat := (List.range size).map (64 * die + core + ·)

/-- A free block: every core owned, not running, not reserved (R192). -/
def State.freeBlock (s : State) (part size die core : Nat) : Bool :=
  (blockCores die core size).all fun n => s.mayUse part n && (s.coreAt n).run == .free && !s.reserved n

/-- The lowest free block of a die. (DEDUCED, log entry 79) -/
def State.findFree (s : State) (part size die : Nat) : Option Nat :=
  ((List.range (64 / size)).map (· * size)).find? fun c => s.freeBlock part size die c

/-! ### Victims (R193) -/

/-- The groups on some cores. -/
def State.groupsOn (s : State) (cs : List Nat) : List (Nat × Nat) :=
  ((cs.map s.coreAt).filter fun k => k.run != .free).map (fun k => (k.mcid, k.grp)) |>.eraseDups

/-- May a group be a victim of a group of a partition and a priority, inside a block? One whose tasks have all retired is none, and its block is
no candidate: its cores pass on by R158. (DESIGN CHOICE, log entry 98) -/
def State.victimOk (s : State) (part prio : Nat) (cs : List Nat) (v : Nat × Nat) : Bool :=
  match s.job v.1 with
  | none => false
  | some j => j.part == part && s.mcState v.1 == 2 && decide (s.mcPrio v.1 < prio) && (s.groupCores v.1 v.2).all cs.contains && !(j.ranks v.2).all j.gone

/-- A candidate block with how it ranks: the highest priority of its victims, their number, how late the latest launch, the place. -/
structure Candidate where
  prio : Nat
  count : Nat
  launched : Nat
  die : Nat
  core : Nat
  victims : List (Nat × Nat)
  deriving DecidableEq, Repr

/-- Does a candidate rank before another? -/
def Candidate.before (a b : Candidate) : Bool :=
  if a.prio ≠ b.prio then decide (a.prio < b.prio)
  else if a.count ≠ b.count then decide (a.count < b.count)
  else if a.launched ≠ b.launched then decide (b.launched < a.launched)
  else decide (64 * a.die + a.core < 64 * b.die + b.core)

/-- A block as a candidate, if it is one. -/
def State.candidate (s : State) (part prio size die core : Nat) : Option Candidate :=
  let cs := blockCores die core size
  let vs := s.groupsOn cs
  if cs.all (fun n => s.holds part 0 n && !s.boot.disabled.contains n && !s.reserved n) && vs != [] && vs.all (s.victimOk part prio cs) then
    some ⟨vs.foldl (fun a v => max a (s.mcPrio v.1)) 0, vs.length, vs.foldl (fun a v => max a ((s.job v.1).elim 0 (·.launched))) 0, die, core, vs⟩
  else none

/-- The best candidate on some dies; the time-sliced partition has none. -/
def State.findVictims (s : State) (part prio size : Nat) (dies : List Nat) : Option Candidate :=
  if s.sliced = some part then none
  else
    let all := dies.flatMap fun d => (List.range (64 / size)).filterMap fun i => s.candidate part prio size d (i * size)
    all.foldl (fun b c => match b with
      | none => some c
      | some x => if c.before x then some c else some x) none

/-- A place for a group: a free block in the order of the dies, or a block with its victims. -/
def State.findPlace (s : State) (part prio size : Nat) (dies : List Nat) : Option ((Nat × Nat) × List (Nat × Nat)) :=
  match dies.findSome? fun d => (s.findFree part size d).map fun c => (d, c) with
  | some p => some (p, [])
  | none => (s.findVictims part prio size dies).map fun c => ((c.die, c.core), c.victims)

/-! ### The hitch (R190) -/

/-- The dies that a hitch searches, in order (R192). -/
def State.hitchDies (s : State) (m : Nat) : List Nat := if s.mcbF m 42 42 = 0 then [m / 4096] else (List.range 4).map fun i => (m / 4096 + i) % 4

/-- Places for `n` more groups, reserved in the plan of the MC at the head of the plans; the victims. (DEDUCED, log entry 79) -/
def State.choosePlaces (s : State) (part prio : Nat) (dies : List Nat) : Nat → List (Nat × Nat) → Option (State × List (Nat × Nat))
  | 0, vs => some (s, vs)
  | n + 1, vs =>
    match s.plans with
    | [] => none
    | p :: ps =>
      match s.findPlace part prio p.size dies with
      | none => none
      | some (place, more) => { s with plans := { p with places := p.places ++ [place] } :: ps }.choosePlaces part prio dies n (vs ++ more)

/-- Is DEFER or nothing of a MC left after a hitch that has ended? -/
def State.deferMc (s : State) (m : Nat) : State := { s with defer := s.defer.insert m true }

/-- `hitch(m)` up to its pre-emption requests (R190 steps 1 to 4): DEFERRED, or the plan with the popped record. -/
def State.hitch (s : State) (m : Nat) : State :=
  let plan : HitchPlan := ⟨m, [], 2 ^ s.mcbF m 38 36, 0⟩
  match { s with plans := plan :: s.plans }.choosePlaces (s.mcPart m) (s.mcPrio m) (s.hitchDies m) (s.mcbF m 40 39 + 1) [] with
  | none => s.deferMc m
  | some (s1, victims) =>
    match s.pop m (s.mcbF m 431 416) (s.mcbF m 479 448) with
    | (.popped r, s2) =>
      let s2 := { s2 with plans := s2.plans ++ (s1.plans.take 1).map fun p => { p with record := r } }
      victims.foldl (fun s v => s.askStop v.1 v.2 .victim) s2
    | (_, s2) => s2.deferMc m

/-! ### The scanner (R189) -/

/-- Has a wait condition of a parked group cleared (R74, R50, R41)? Of a block of another package its owner tells (`Outside.kvReady`). -/
def State.cleared (s : State) (r : Ready) : Bool :=
  match r with
  | .always => true
  | .kv chip gbn => if chip = s.fabId then !s.blockMissing gbn else !s.peerUp chip
  | .host fn pasid page => !s.priWaits fn pasid page
  | .steep frame => !s.segSteeping frame

/-- Are the images of a group in their save slots (R367)? -/
def State.allSpilled (s : State) (m g : Nat) : Bool := (s.groupImages m g).all (·.spilled)

/-- Does an MC halt, or is it HALTED? No group of it is restored until `CONTINUE` (R276, R200). -/
def State.halted (s : State) (m : Nat) : Bool := s.mcState m == 5 || (s.job m).any (·.halting)

/-- Is a request of a dispatch queue ready (R275, R276, R367, R383)? Not while a record of its group is still to be written (R364). -/
def State.reqReady (s : State) (r : DispReq) : Bool :=
  r.ready.all s.cleared && s.allSpilled r.mcid r.grp && (s.groupImages r.mcid r.grp).all (·.rec_.isNone) && !s.hold.contains r.part && !s.halted r.mcid

/-- May a group be taken from its resume list (R276, R383)? -/
def State.mayResume (s : State) (m : Nat) : Bool := !s.hold.contains (s.mcPart m) && !s.halted m

/-- What a step of the scanner picks. -/
inductive Pick where
  | nothing
  | restore (r : DispReq) (core : Nat)
  | resume (r : Resumed) (place : Nat) (victims : List (Nat × Nat))
  | job (m c : Nat)
  deriving DecidableEq, Repr

/-- The MC of a mask served next, from a position on (R189). -/
def firstFrom (start : Nat) (ms : List Nat) : Option Nat :=
  match ms.find? fun m => start ≤ m % 4096 with
  | some m => some m
  | none => ms.head?

/-- The key of ROT. -/
def rotKey (die c : Nat) : Nat := 8 * die + c

/-- The candidates of a class on a die, in slot order (R188, R383). -/
def State.candidates (s : State) (die c : Nat) : List Nat :=
  (s.pending.filter fun e => e.1 / 4096 == die && s.mcState e.1 == 1 && s.mcPrio e.1 == c && !FMap.get false s.defer e.1 && !s.hitching e.1 &&
    !s.hold.contains (s.mcPart e.1)).map (·.1)

/-- What the scanner serves of a class (R189). -/
def State.pickClass (s : State) (die c : Nat) : Pick :=
  let restore := (s.dispq.find? fun r => r.die = die ∧ s.mcPrio r.mcid = c ∧ s.reqReady r).bind fun r =>
    (s.findFree r.part (s.sizeOf r.mcid) die).map fun core => Pick.restore r core
  let resume := (s.resume.find? fun r => r.die = die ∧ s.mcPrio r.mcid = c ∧ s.mayResume r.mcid).bind fun r =>
    if s.allSpilled r.mcid r.grp then
      (s.findPlace (s.mcPart r.mcid) c (s.sizeOf r.mcid) [die]).map fun p => Pick.resume r p.1.2 p.2
    else none
  match restore, resume, firstFrom (FMap.get 0 s.rot (rotKey die c)) (s.candidates die c) with
  | some p, _, _ => p
  | none, some p, _ => p
  | none, none, some m => .job m c
  | none, none, none => .nothing

/-- What a step of the scanner of a die picks: the highest class that has work. (DEDUCED, log entry 66) -/
def State.scanPick (s : State) (die : Nat) : Pick :=
  (([7, 6, 5, 4, 3, 2, 1, 0].map (s.pickClass die)).find? (· ≠ .nothing)).getD .nothing

/-- The groups bound to some cores whose tasks have all retired or been terminated, with no command of theirs outstanding (R158). -/
def State.retiredGroups (s : State) (cs : List Nat) : List (Nat × Nat) :=
  (s.groupsOn cs).filter fun v => match s.job v.1 with
    | none => false
    | some j => (j.ranks v.2).all j.gone && !s.cmds.any fun c => c.mcid == v.1 && (j.ranks v.2).contains c.rank

/-- Victims that have retired give their cores to the hitch or the group that waits for them (R158, R191). -/
def State.yieldCores (s : State) (cs : List Nat) : State :=
  (s.retiredGroups cs).foldl (fun s v => if (s.gplace v.1 v.2).2.2 = 1 then s.leaveCores v.1 v.2 3 else s) s

/-- A group that returns to a reserved block is placed once every core of it is free (R191, R193); not while its partition is held or its job
halted (R383, R276). -/
def State.placeBack (s : State) (b : Back) : State :=
  let cs := blockCores b.die b.core (s.sizeOf b.mcid)
  let s := s.yieldCores cs
  if cs.all (fun n => (s.coreAt n).run == .free) && s.mayResume b.mcid then
    { s with back := s.back.filter (· ≠ b) }.restoreGroup b.mcid b.grp b.die b.core
  else s

/-- Does the hitch unit of a die work on a hitch (R194)? -/
def State.hitchBusy (s : State) (die : Nat) : Bool := s.plans.any fun p => p.mcid / 4096 == die

/-- The new job that a step serves: ROT, and the hitch. While the die's hitch unit is busy the step waits. -/
def State.serveJob (s : State) (m c : Nat) : State :=
  let die := m / 4096
  if s.hitchBusy die then s else { s with rot := s.rot.insert (rotKey die c) ((m % 4096 + 1) % 4096) }.hitch m

/-- One step of the scanner of a die (R189). (DEDUCED, log entry 66) -/
def State.scan (s : State) (die : Nat) : State :=
  let s := (s.back.filter (·.die = die)).foldl State.placeBack s
  match s.scanPick die with
  | .nothing => s
  | .restore r core => { s with dispq := s.dispq.filter (· ≠ r) }.restoreGroup r.mcid r.grp die core
  | .resume r core [] => { s with resume := s.resume.filter (· ≠ r) }.restoreGroup r.mcid r.grp die core
  | .resume r core vs =>
    let s := { s with resume := s.resume.filter (· ≠ r), back := s.back ++ [⟨r.mcid, r.grp, die, core⟩] }
    vs.foldl (fun s v => s.askStop v.1 v.2 .victim) s
  | .job m c => s.serveJob m c

/-- `SCAN_STEP` (R189). -/
def execScanStep (die : Nat) (s : State) : Host.Outcome State Fault Refusal := .next (if die < 4 then s.scan die else s)

/-- `HITCH` (R190): the hitch of the MC that its die's scanner serves next. -/
def execHitch (m : Nat) (s : State) : Host.Outcome State Fault Refusal :=
  .next (match s.scanPick (m / 4096) with
    | .job m' c => if m' = m then s.serveJob m c else s
    | _ => s)

/-! ### Launch (R153, R190 steps 5 and 6) -/

/-- The level at which a task of an MC starts (R268). -/
def State.launchLevel (s : State) (m : Nat) : Nat :=
  let p := s.mcPart m
  if p = 16 then 2 else if s.mcAsid m = s.csrF (0x070 + p) 9 0 then 1 else 0

/-- The core of a task at its first bundle (R153): `r` is its job rank, `rec` the popped record. `known` tells that scratchpad and tiles
hold zeros; after a launch by the hitch they are open (R95). `view` are the writes that happen before the launch (R137). -/
def State.launchCore (s : State) (m n g r : Nat) (rec : BitVec 2048) (known : Bool) (view : List Nat := []) : Core :=
  let tg := s.mcbF m 38 36
  let ntg := s.mcbF m 40 39
  let epoch := if known then 0 else s.tick
  let pad : Pad := (⟨[], epoch, n, []⟩ : Pad)
  { Core.reset with
    run := .running, mcid := m, grp := g, rank := r, taskid := mkTaskid (r % 2 ^ tg) g n tg ntg m,
    pl := BitVec.ofNat 2 (s.launchLevel m), part := s.mcPart m, asid := s.mcAsid m,
    x := listMap 1 [BitVec.ofNat 64 m, BitVec.ofNat 64 r, (rec.extractLsb' 144 16).setWidth 64, rec.extractLsb' 192 64],
    pc := BitVec.ofNat 52 (s.mcbF m 243 192), pbound := BitVec.ofNat 32 (s.mcbF m 799 768),
    domset := 0x0F ||| (if s.mcbF m 928 928 = 1 then 0x10 else 0), fused := s.mcbF m 41 41 == 1 && tg != 0, since := s.frame, swapIn := s.time,
    fetchCycle := (s.coreAt n).fetchCycle, sp := pad.writeBytes 0 (toBytes 256 rec.toNat), tiles := ⟨[], epoch, n, 0⟩,
    steepwait := s.mcbF m 511 480, view := { View.none with seen := s.alive view, acq := s.alive view } }

/-- The job of an MC begins on its places (R149, R190 step 6): what an earlier job of the MC left in its domains is gone. -/
def State.startJob (s : State) (m : Nat) (places : List (Nat × Nat)) (rec : BitVec 2048) (known : Bool) (view : List Nat := []) : State :=
  let tg := s.mcbF m 38 36
  let job : Job := ⟨m, s.mcPart m, tg, places.length - 1, s.mcPrio m, s.tick, 0, 0, false, false, false⟩
  let s := { s with jobs := s.jobs ++ [job], bars := s.bars.filter (·.mcid ≠ m), left := s.left.filter (·.mcid ≠ m),
                    ended := s.ended.filter (·.mcid ≠ m) }
  let s := s.setMcbF m 3 0 2
  (places.mapIdx fun g p => (g, p)).foldl (init := s) fun s (g, die, core) =>
    (List.range (2 ^ tg)).foldl (init := s.setGplace m g die core 1) fun s i =>
      let n := 64 * die + core + i
      s.setCoreAt n (s.launchCore m n g (2 ^ tg * g + i) rec known view)

/-- The writes that happen before the launch of the popped record of an MC (R137). -/
def State.takenView (s : State) (m : Nat) : List Nat := (s.recs.find? fun r => r.mcid = m ∧ r.taken).elim [] (·.view)

/-- The record of a launch that does not complete (R421). -/
def State.launchRecord (s : State) (m : Nat) : State :=
  s.recordPrecise (s.queueOf m) (mkRecord ⟨0, 0, false, false, s.mcPart m, m, 0, 0, 0, 0, 0⟩ (.plain 0x22) s.time)

/-- A launch fails after its pop (R421). -/
def State.failLaunch (s : State) (m : Nat) : State := if s.hitching m then (s.endLaunch m).launchRecord m else s

/-- `JOB_LAUNCH` (R190 step 6): once every chosen core is free the job starts; a partition under DRAIN then pre-empts it (R383). An uncorrectable
error in the MCB ends the launch (R421). -/
def execJobLaunch (m : Nat) (s : State) : Host.Outcome State Fault Refusal :=
  .next (match s.plans.find? (·.mcid = m) with
    | none => s
    | some p =>
      let cs := p.places.flatMap fun q => blockCores q.1 q.2 p.size
      let s := s.yieldCores cs
      if (s.poisoned (s.mcbPa m) 256).isSome then s.failLaunch m
      else if cs.all fun n => (s.coreAt n).run == .free then
        let s := { (s.releaseRec m) with plans := s.plans.filter (·.mcid ≠ m) }.startJob m p.places p.record false (s.takenView m)
        if s.phase (s.mcPart m) = 1 then (s.onCoreGroups m).foldl (fun s g => s.askStop m g .drain) s else s
      else s)

/-- `LAUNCH` (R421): an uncorrectable error in the record or in the launch state that is being written. -/
def execLaunch (m : Nat) (s : State) : Host.Outcome State Fault Refusal := .next (s.failLaunch m)

/-! ### Stops (R362, R369 to R371) -/

/-- The stop of a task that is asked to stop, where one of the points of R369 holds. -/
def State.tryStop (s : State) : State :=
  if s.core.run ≠ .running ∨ s.core.preq.isNone then s
  else match fetchBundle s with
    | .ok ((h, _), s1) => (s1.stopPoint h).getD s
    | .error _ => (s.stopPoint ⟨0, 0, false, false, 0⟩).getD s

/-- `TASK_STOP` (R369). (DEDUCED, log entry 27) -/
def execTaskStop (n : Nat) (s : State) : Host.Outcome State Fault Refusal := .next (s.at_ n State.tryStop)

/-- `ROLLBACK` (R370): PBOUND has run out in a restartable region; what the host still owes the task is no longer wanted.
(DEDUCED, log entry 27) -/
def execRollback (n : Nat) (s : State) : Host.Outcome State Fault Refusal :=
  let k := s.coreAt n
  .next (match k.preq with
    | none => s
    | some why =>
      if k.run = .running ∧ k.restart ∧ why ≠ .fault ∧ k.ckpt.isSome then
        (s.forgetRows fun q => q.agent == n).at_ n State.rollBack
      else s)

/-- `GROUP_SWAP_OUT` (R371): every task of a pre-empted group has stopped, and it leaves its cores. -/
def execGroupSwapOut (m g : Nat) (s : State) : Host.Outcome State Fault Refusal :=
  .next (if s.groupStopped m g && (s.groupImages m g).all (·.rec_.isNone) then s.swapOut m g else s)

/-- `SPILL_IMAGE` (R371, R373): the images of a group that has left its cores are in their save slots. -/
def execSpillImage (m g : Nat) (s : State) : Host.Outcome State Fault Refusal :=
  .next (if (s.gplace m g).2.2 = 1 then s else s.spillGroup m g)

/-- `GROUP_PARK` (R362): every task of a group with a fault has stopped, and the group is parked. -/
def execGroupPark (m g : Nat) (s : State) : Host.Outcome State Fault Refusal :=
  .next (if s.groupStopped m g && (s.groupImages m g).any (·.rec_.isSome) then s.parkGroup m g else s)

/-- `PARK_CONDITION_CLEAR` (R74, R50, R41): conditions of a parked group's request that hold no longer are met for good. -/
def execParkConditionClear (m g : Nat) (s : State) : Host.Outcome State Fault Refusal :=
  .next { s with dispq := s.dispq.map fun (r : DispReq) => if r.mcid = m ∧ r.grp = g then { r with ready := r.ready.filter fun c => !s.cleared c } else r }

/-! ### The calendar (R195 to R199) -/

/-- The account of a partition at a unit; a unit that has served nobody yet stands as unit 0. (DESIGN CHOICE, log entry 77) -/
def State.calUse (s : State) (unit p : Nat) : CalUse := (s.cal.find? (17 * unit + p)).getD (FMap.get .zero s.cal p)

/-- An account replaced. (DESIGN CHOICE, log entry 77) -/
def State.setCal (s : State) (unit p : Nat) (e : CalUse) : State := { s with cal := s.cal.insert (17 * unit + p) e }

/-- The ceiling of a partition in a class (R198). -/
def State.ceiling (s : State) (cls p : Nat) : Nat := max (s.csrF (0x130 + p) 8 0) (s.csrF (0x150 + p) (8 * cls + 7) (8 * cls) + 1)

/-- The weight of a partition in a class. -/
def State.weight (s : State) (cls p : Nat) : Nat := s.csrF (0x170 + p) (8 * cls + 7) (8 * cls)

/-- `rotate(Q)` (R197): the partition served, and the counts after. -/
def State.rotate (s : State) (cls unit : Nat) (q : List Nat) : Option (Nat × State) :=
  let s := q.foldl (fun s p => let e := s.calUse unit p; s.setCal unit p { e with rot := e.rot + (s.weight cls p : Int) }) s
  let total : Int := q.foldl (fun (a : Int) p => a + (s.weight cls p : Int)) 0
  let best := q.foldl (init := (none : Option Nat)) fun b p =>
    match b with
    | none => some p
    | some x =>
      if (s.calUse unit x).rot < (s.calUse unit p).rot ∨ ((s.calUse unit p).rot = (s.calUse unit x).rot ∧ p < x) then some p else some x
  best.map fun w => let e := s.calUse unit w; (w, s.setCal unit w { e with rot := e.rot - total })

/-- One slot at a unit: the partition that is served among those that wait (R197). (DEDUCED, log entry 72) -/
def State.slotServe (s : State) (cls unit : Nat) (waiting : List Nat) : State :=
  let owner := s.csrF (0x200 + s.cycle / 8) 4 0
  let use (p : Nat) := s.calUse unit p
  let under (p : Nat) := decide ((use p).used < s.ceiling cls p)
  if waiting.contains owner then
    let e := use owner
    s.setCal unit owner { e with used := e.used + 1, owned := e.owned + 1 }
  else
    let q2 := waiting.filter fun p => decide (0 < (use p).credit) && under p && decide ((use p).drawn < s.ceiling cls p - s.csrF (0x130 + p) 8 0)
    match s.rotate cls unit q2 with
    | some (w, s) =>
      let e := s.calUse unit w
      s.setCal unit w { e with used := e.used + 1, drawn := e.drawn + 1, credit := e.credit - 1 }
    | none =>
      match s.rotate cls unit (waiting.filter fun p => under p && decide (0 < s.weight cls p)) with
      | some (w, s) =>
        let e := s.calUse unit w
        s.setCal unit w { e with used := e.used + 1 }
      | none => s

/-- The calendar slot, counted from reset (R195). -/
def State.slotNo (s : State) : Nat := 256 * s.frame + s.cycle / 8

/-- `CALENDAR_SLOT` (R197): a unit of a class serves one of the partitions that wait at it, once in a slot. A pseudo-channel that a partition
owns serves its owner in every slot (R196). (DEDUCED, log entry 72) -/
def execCalendarSlot (cls unit : Nat) (waiting : List Nat) (s : State) : Host.Outcome State Fault Refusal :=
  let owned := cls == 0 && (List.range 16).any fun p => s.holds p 1 unit
  let u := 1 + cls + 8 * unit
  .next (if 8 ≤ cls ∨ owned ∨ s.calSlot.find? u = some s.slotNo then s
  else { s.slotServe cls u ((waiting.filter (· ≤ 16)).eraseDups) with calSlot := s.calSlot.insert u s.slotNo })

/-! ### Slices (R199) -/

/-- SLICE of TSPART; 0 is taken as 1. -/
def State.sliceLength (s : State) : Nat := max 1 (s.csrF 0x062 31 16)

/-- Has the time-sliced partition work that waits for cores (R199)? -/
def State.sliceWanted (s : State) : Bool :=
  match s.sliced with
  | none => false
  | some part =>
    s.resume.any (fun r => s.mcPart r.mcid == part) || s.dispq.any (fun r => r.part == part && s.reqReady r) ||
      s.pending.any fun e => s.mcPart e.1 == part && s.mcState e.1 == 1 && !FMap.get false s.defer e.1

/-- Does a core run a group of the time-sliced partition? Every group of it leaves its cores at slice ends, whoever owns them (R193, R199).
(DEDUCED, log entry 72) -/
def State.runsSliced (s : State) (k : Core) : Bool := k.run == .running && s.sliced == some k.part

/-- The slices of the groups that were swapped in before this frame boundary start, of the length that TSPART gives now (R199, R279). -/
def State.startSlices (s : State) : State :=
  { s with cores := s.cores.map fun e =>
      (e.1, if s.runsSliced e.2 ∧ e.2.slice = 0 ∧ e.2.since + 1 ≤ s.frame then { e.2 with slice := s.sliceLength } else e.2) }

/-- The running cores of a group. -/
def State.groupRunning (s : State) (m g : Nat) : List Nat := (s.groupCores m g).filter fun n => (s.coreAt n).run == .running

/-- Has the slice of a group ended (R199)? -/
def State.sliceDue (s : State) (m g : Nat) : Bool :=
  let cs := s.groupRunning m g
  cs != [] && cs.all fun n => (s.coreAt n).slice != 0 && decide ((s.coreAt n).since + 1 + (s.coreAt n).slice ≤ s.frame)

/-- A slice ends: the group is pre-empted where others wait, or gets another slice (R199). A group of a partition that TSPART has named before
keeps its slice: it is pre-empted for the work of the partition that TSPART names now, and runs on while V = 0; one that has no slice yet then
gets none. (DESIGN CHOICE, log entry 98) -/
def State.endSlice (s : State) (m g : Nat) : State :=
  if s.sliceWanted then s.askStop m g .slice
  else (s.groupRunning m g).foldl (fun s n => s.setCoreAt n { s.coreAt n with since := s.frame - 1, slice := s.sliceLength }) s

/-- `SLICE_END` (R199): the slice of a group has ended. -/
def execSliceEnd (m g : Nat) (s : State) : Host.Outcome State Fault Refusal := .next (if s.sliceDue m g then s.endSlice m g else s)

/-- The frame boundary (R195): the end of the frame, in which DEFER is cleared, then the ends of slices, which find it clear, and the slices
that start (R199). (DESIGN CHOICE, log entry 98) -/
def State.frameBoundary (s : State) : State :=
  let s := s.frameEnd
  let due := s.allGroups.filter fun g => s.sliceDue g.1 g.2
  (due.foldl (fun s g => s.endSlice g.1 g.2) s).startSlices

/-- `FRAME_BOUNDARY` (R195). -/
def execFrameBoundary (s : State) : Host.Outcome State Fault Refusal := .next s.frameBoundary

/-! ### What a core's units do on their own -/

/-- `GRANULE_FILL` (R43): the map unit fills an INVALID granule of a running task. -/
def execGranuleFill (n map gran : Nat) (s : State) : Host.Outcome State Fault Refusal :=
  streamAgent n (do
    let k := (← get).core
    match k.maps[map]? with
    | none => pure ()
    | some m =>
      if 256 * gran < m.len ∧ !k.windowHolds (m.off + 256 * gran) 256 then needGranule (m.off + 256 * gran) else pure ()) s

/-- `BACKGROUND_BANK_TAKE` (R93): a background access takes its bank. What it delays is the bundle that would issue in that cycle, by one
cycle; the cycle passes and the fetches hold still. A gather or scatter window of its bank group holds it off (R300). Banks 0 to 15 are
those of SPA. -/
def execBackgroundBankTake (n bank : Nat) (s : State) : Host.Outcome State Fault Refusal :=
  .next (if n < 256 ∧ bank < 32 ∧ (s.coreAt n).run = .running ∧ !(s.coreAt n).windowHolds (bank / 16 * 2 ^ 20) 64 then { s with cycle := min 2047 (s.cycle + 1) } else s)

/-- `REGION_HOLD_EXPIRE` (R127): the held stores leave the buffer, and the region is no longer restartable. -/
def execRegionHoldExpire (n : Nat) (s : State) : Host.Outcome State Fault Refusal :=
  .next (if (s.coreAt n).held ≠ [] ∨ s.cmds.any (fun c => c.core == n && c.held) then s.at_ n State.endRegion else s)

end Sys2Proof.Machine
end

