-- ==== Sys2Proof/Machine/Package.lean ====
section
/-! DEFINITION. Errors (R415, R416), links (R80, R140, R163) and peers (R61, R139, R171). -/

namespace Sys2Proof.Machine

/-! ### Errors (R415, R416) -/

/-- What a scalar operation of the executing core reads in memory: a load, an atomic, a WAITA; of a store, its page tables. -/
def State.readsOf (s : State) (i : Instr) : M Unit :=
  let load (o : SM) (n : Nat) : M Unit := do
    let _ ← loadEvent (s.smAddr o) n
    pure ()
  let store (o : SM) (n : Nat) : M Unit := do
    let _ ← xlatePages (s.smAddr o) n .write
    pure ()
  let atomic (o : SA) : M Unit := do
    match ← xlateTask (← atomicAddr o) .write with
    | .dev pa _ => needClean pa (atomicBytes o)
    | .host _ _ _ _ => pure ()
  match i with
  | .ldb _ o => load o 1
  | .ldbu _ o => load o 1
  | .ldh _ o => load o 2
  | .ldhu _ o => load o 2
  | .ldw _ o => load o 4
  | .ldwu _ o => load o 4
  | .ldd _ o => load o 8
  | .stb _ o => store o 1
  | .sth _ o => store o 2
  | .stw _ o => store o 4
  | .std _ o => store o 8
  | .stnt _ o => store o 8
  | .amo _ o => atomic o
  | .cas _ o => atomic o
  | .red _ o => atomic o
  | .waita _ o => do
    let _ ← waitWord o
    pure ()
  | _ => pure ()

/-- Does an operation that a slot of the executing core issues consume a poisoned line (R416): in memory, on its walk, or in a chunk of the
scratchpad that holds its data? -/
def State.consumes (s : State) (line : Nat) (o : SlotOp) : Bool :=
  let p := s.onIssue fun r => { r with slot := o.slot, explicit := o.explicit }
  let m := s.slotPred o
  m != 0 && ((faultOf (p.readsOf o.op) p).contains (uncorrectable line) ||
    (p.survey m o.op).acc.any fun a => !a.2 && (s.core.spBad.find? a.1).any fun pa => pa / 64 * 64 == line)

/-- Does the bundle at which the executing task stands consume a poisoned line? The slots that do, none of them where its own fetch does. -/
def State.consuming (s : State) (line : Nat) : Option (List SlotFault) :=
  match fetchBundle s with
  | .error (.fault fi, _) => if fi = uncorrectable line then some [] else none
  | .error _ => none
  | .ok ((h, b), s1) =>
    match ((s1.core.slotOps (decodeSlots h.pm b)).filter (s1.consumes line)).map fun o => ⟨o.slot, uncorrectable line⟩ with
    | [] => none
    | fs => some fs

/-- The task on the executing core consumes a poisoned line, if its bundle does; the condition is ranked with the others of its issue (R358). -/
def State.consume (s : State) (line : Nat) : State :=
  match s.consuming line with
  | none => s
  | some fs => s.eventFault fs (uncorrectable line)

/-- `UNCORRECTABLE` (R416, R363): the bundle of a running task consumes poisoned data. -/
def execUncorrectable (n pa : Nat) (s : State) : Host.Outcome State Fault Refusal :=
  .next (if (s.coreAt n).run = .running then s.at_ n (·.consume (pa / 64 * 64)) else s)

/-- `POISON` (R416): an uncorrectable error in a line of a memory tier. -/
def execPoison (pa : Nat) (s : State) : Host.Outcome State Fault Refusal := .next (if s.frameOk pa then s.poisonLine (pa / 64) else s)

/-- `SOFT_ERROR_CORRECT` (R415): CORR counts it, saturating. (DEDUCED, log entry 73) -/
def execSoftErrorCorrect (s : State) : Host.Outcome State Fault Refusal :=
  let v := s.csrN 0xCFA
  .next (s.setCsr 0xCFA (BitVec.ofNat 64 (setBits v 31 0 (min (bits v 31 0 + 1) (2 ^ 32 - 1)))))

/-- `PATROL_SCRUB` (R415): the scrubber has read a line of the memory tiers. (DEDUCED, log entry 73) -/
def execPatrolScrub (line : Nat) (s : State) : Host.Outcome State Fault Refusal := .next (if s.frameOk (64 * line) then { s with patrol := line } else s)

/-! ### Links (R80, R140, R163) -/

/-- A link under one name, whichever of its ends is named first. -/
def normLink (l : Link) : Link :=
  match l with
  | .die a b => if a ≤ b then .die a b else .die b a
  | .peer f => .peer f

/-- The dies on which a job has groups that have not retired. -/
def State.jobDies (s : State) (j : Job) : List Nat :=
  ((List.range (j.ntg + 1)).filter fun g => (s.gplace j.mcid g).2.2 != 3).map fun g => (s.gplace j.mcid g).1

/-- Do the tasks of a job on a die use memory that another die homes: their page tables, or a page that a translation of theirs names? -/
def State.usesHome (s : State) (m die home : Nat) : Bool :=
  homeDie (s.mcbF m 111 64) == home || s.tlb.any fun e =>
    e.die == die && e.asid == s.mcAsid m && homeDie (leafPa e.leaf.toNat e.level (e.page * 65536)) == home

/-- Does a job depend on a link (R163, R140): tasks, the die that holds its level-3 barrier (R154) or memory that its tasks use on both sides; a
request of a task that the peer has not acknowledged, or of a command whose release waits for it; a level-4 barrier that the peer holds, or that is
held here and has a member there?
(DEDUCED, log entry 67) -/
def State.dependsOn (s : State) (j : Job) (l : Link) : Bool :=
  match l with
  | .die a b =>
    let live := s.jobDies j
    let dies := (s.gplace j.mcid 0).1 :: live
    (live.contains a && (dies.contains b || s.usesHome j.mcid a b)) || (live.contains b && (dies.contains a || s.usesHome j.mcid b a))
  | .peer f =>
    (s.peerReqs.any fun q => q.fab == f &&
      ((decide (q.agent < 256) && (s.coreAt q.agent).run == .running && (s.coreAt q.agent).mcid == j.mcid) ||
        s.cmds.any fun c => c.agent == q.agent && c.mcid == j.mcid && !c.orphan && (complOf c.op c.desc.toNat).rel)) ||
      (s.mcbF j.mcid 928 928 == 1 && f != s.fabId && (s.mcbF j.mcid 919 912 == f ||
        (s.mcbF j.mcid 919 912 == s.fabId && s.xidHosts.contains (s.mcbF j.mcid 911 896, f))))

/-- A job ends because a link was lost: the record with its task bitmap, and the end of every task (R163). (DEDUCED, log entry 67) -/
def State.cutJob (s : State) (m : Nat) : State :=
  match s.job m with
  | none => s
  | some j =>
    let info : BitVec 192 := j.retired.setWidth 192
    (s.recordPrecise (s.queueOf m) (mkRecord ⟨0, 0, false, false, j.part, m, 0, 0, 0, 0, 0⟩ ⟨0x21, 0, 0, info⟩ s.time)).killJob m

/-- The launches in progress that a die-to-die link cuts (R421). -/
def State.cutPlans (s : State) (l : Link) : List Nat :=
  match l with
  | .die a b => (s.plans.filter fun p => p.places.any fun q => (p.mcid / 4096 == a && q.1 == b) || (p.mcid / 4096 == b && q.1 == a)).map (·.mcid)
  | .peer _ => []

/-- Requests to a lost peer are not answered any more; a release that waited for one is never performed: the word of its command carries
nothing (R140). (DEDUCED, log entry 67) -/
def State.dropPeer (s : State) (l : Link) : State :=
  match l with
  | .die _ _ => s
  | .peer f =>
    let waits (c : Cmd) : Bool := (complOf c.op c.desc.toNat).rel && s.peerReqs.any fun q => q.fab == f && q.agent == c.agent
    { s with peerReqs := s.peerReqs.filter (·.fab ≠ f), cmds := s.cmds.map fun c => if waits c then { c with before := [], view := [] } else c }

/-- `LINK_DOWN` (R163, R140, R421). -/
def execLinkDown (l : Link) (s : State) : Host.Outcome State Fault Refusal :=
  let l := normLink l
  if s.linksDown.contains l then .next s
  else
    let s := { s with linksDown := l :: s.linksDown }
    let js := (s.jobs.filter fun j => s.dependsOn j l).map (·.mcid)
    let s := (js.foldl State.cutJob s).dropPeer l
    .next ((s.cutPlans l).foldl State.failLaunch s)

/-- `TASK_TERMINATE` (R363): UNCORRECTABLE ends the task of a core whose bundle consumes poisoned data, LINK_DOWN the whole job of one whose
job depends on a link that is lost. -/
def execTaskTerminate (n : Nat) (cause : BitVec 8) (s : State) : Host.Outcome State Fault Refusal :=
  let k := s.coreAt n
  .next (if k.run ≠ .running then s
  else if cause = 0x20 then
    s.at_ n fun s =>
      let lines := s.poison.map (64 * ·.1) ++ s.core.spBad.map fun e => e.2 / 64 * 64
      match lines.find? fun l => (s.consuming l).isSome with
      | none => s
      | some l => s.consume l
  else if cause = 0x21 ∧ (s.job k.mcid).any (fun j => s.linksDown.any (s.dependsOn j)) then s.cutJob k.mcid
  else s)

/-- `LINK_RESTORE` (R80): the decrements held for a peer are sent, in order. -/
def execLinkRestore (l : Link) (s : State) : Host.Outcome State Fault Refusal :=
  .next ({ s with linksDown := s.linksDown.filter (· ≠ normLink l) }.sendDecs)

/-! ### Peers (R61, R139, R171) -/

/-- The agent number of a peer's accesses (`Given`). -/
def peerAgent (fab : Nat) : Nat := 2 ^ 67 + fab

/-- The writes that a release of a peer at `.SYS` carries: its own, and those that a read of it at `.SYS` has returned or learnt of (R139). -/
def State.peerView (s : State) (fab : Nat) : List Nat := FMap.get [] s.posted (32 + fab)

/-- What a write of a peer carries: at `.SYS` what is before it; between two packages there is no other order (R139). -/
def State.peerRels (s : State) (fab : Nat) (sys : Bool) : List Rel := if sys then [⟨.peer fab, 4, s.alive (s.peerView fab)⟩] else []

/-- A peer has made some writes, or learnt of them. -/
def State.peerWrote (s : State) (fab : Nat) (ids : List Nat) : State :=
  if ids = [] then s else { s with posted := s.posted.insert (32 + fab) (addIds (s.peerView fab) ids) }

/-- What a peer reads in an ASID, and whether some of it is poisoned (R416). A read at `.SYS` is an acquire there: what it has returned, and what
the releases carry with which it synchronises, is before the peer's later writes at `.SYS` (R123, R139). -/
def peerRead (fab asid va n : Nat) (sys : Bool) : M (List Byte × Bool) := do
  let who := peerAgent fab
  let ps ← (pieces 4096 (n / 4096 + 2) va n).mapM fun (a, m) => do
    let x ← srcOf who asid a m (xlateEng who 0 asid (a % 2 ^ 52) .read)
    x.read who asid a m (fun pa t => do
      let s ← get
      let g := s.gotHome t pa m
      if sys then set (s.peerWrote fab (s.alive (g.ids ++ (g.rels.filter (·.meets (.peer fab) 4)).flatMap (·.view))))
      pure (s.rdBytes t pa m, (s.poisoned pa m).isSome)) fun bs => (bs, false)
  pure ((ps.map (·.1)).flatten, ps.any (·.2))

/-- A peer's write to a place; poison travels with it (R416). -/
def State.peerPut (s : State) (fab : Nat) (l : Loc) (bs : List Byte) (rels : List Rel) (bad : Bool) : State :=
  let s1 := s.engStore 3 fab 0 l bs rels
  let s1 := s1.peerWrote fab (s1.madeSince s)
  match l with
  | .dev pa _ => if bad then s1.poisonLines pa bs.length else s1
  | .host _ _ _ _ => s1

/-- What a peer writes in an ASID. -/
def peerStore (fab asid va : Nat) (data : List Byte) (ep sys : Bool) : M Unit := do
  let ls ← (pieces 4096 (data.length / 4096 + 2) va data.length).mapM fun (a, m) => do
    pure (← xlateEng (peerAgent fab) 0 asid (a % 2 ^ 52) .write, m)
  let rels := (← get).peerRels fab sys
  let _ ← ls.foldlM (init := data) fun bs (l, m) => do
    M.change (·.peerPut fab l (bs.take m) rels ep)
    pure (bs.drop m)
  pure ()

/-- Each element of a peer's reduction is reduced at its home (R349). -/
def peerReduce (fab asid rop va : Nat) (data : List Byte) (ep sys : Bool) : M Unit := do
  let n := ropBytes rop
  M.need (decide (1 ≤ rop ∧ rop ≤ 7) && va % n == 0 && data.length % n == 0 && !inHost va) (.fault illegalSlot)
  let rels := (← get).peerRels fab sys
  let _ ← (List.range (data.length / n)).mapM fun i => do
    match ← xlateEng (peerAgent fab) 0 asid ((va + n * i) % 2 ^ 52) .write with
    | .dev pa t => do
      let s ← get
      let bad := ep || (s.poisoned pa n).isSome
      set (s.peerPut fab (.dev pa t) (toBytes n (ropNew rop (s.rdLE t pa n) (ofBytes ((data.drop (n * i)).take n)))) (rels ++ (s.gotHome t pa n).rels) bad)
    | .host _ _ _ _ => pure ()
  pure ()

/-- A peer's access in the supervisor ASID of the partition that the root has paired with the peer's (R339): a read of as many bytes (0), a
write (1), or a reduction (2 and its operator); `sys` tells that it is ordered at `.SYS` (R139).
(DEDUCED, log entry 41) -/
def peerServe (fab p op va : Nat) (data : List Byte) (ep sys : Bool) : M Unit := do
  let asid := (← get).csrF (0x070 + p) 9 0
  let va := va % 2 ^ 52
  let r ← M.attempt (match op with
    | 0 => peerRead fab asid va data.length sys
    | 1 => do
      peerStore fab asid va data ep sys
      pure ([], false)
    | n => do
      peerReduce fab asid (n - 2) va data ep sys
      pure ([], false))
  M.change fun s =>
    match r with
    | .ok (bs, bad) => ((s.answerPeer fab (if bad then 3 else 1) bs).dropGiven (peerAgent fab)).forgetAsks (· == peerAgent fab)
    | .error _ => ((s.answerPeer fab 0 []).dropGiven (peerAgent fab)).forgetAsks (· == peerAgent fab)

/-- `PEER_ACCESS` (R139, R339): an unpaired peer is refused. (DESIGN CHOICE, log entry 39; DEDUCED, log entry 41) -/
def execPeerAccess (fab part op va : Nat) (data : List (BitVec 8)) (attr : PeerAttr) (s : State) : Host.Outcome State Fault Refusal :=
  if !s.peerUp fab then .next s
  else match s.paired fab part with
    | none => .next (s.answerPeer fab 0 [])
    | some p => runAgent (peerServe fab p op va data attr.ep attr.sys) s

/-- `PEER_ENQ` (R171, R335): a packet of a peer reaches the MCs of the partition paired with it. -/
def execPeerEnq (fab part : Nat) (pkt : BitVec 512) (s : State) : Host.Outcome State Fault Refusal :=
  .next (if !s.peerUp fab then s
  else
    let m := packetMc pkt
    let reach := match s.paired fab part with
      | some p => s.mcPart m == p
      | none => false
    let (st, s) := s.push m reach (withSrc pkt 3) (s.alive (s.peerView fab))
    s.answerPeer fab 1 (toBytes 1 st))

/-- What a peer answers to a request for a row of a KV stream (R61, R321): the row, for which it has pinned the block where the stream did not
hold it yet (R75); or an outcome, of which a missing block makes the task wait under R72 and every other is the fault of the pop. -/
def State.rowAnswer (s : State) (q : PeerReq) (ok ep : Bool) (data : List Byte) : State :=
  s.at_ q.agent fun s =>
    match s.strm q.key with
    | none => s
    | some t =>
      let gbn := ofBytes ((q.data.drop 1).take 8)
      let pos := ofBytes ((q.data.drop 9).take 8)
      let at_ : Stream := { t with cur := pos }
      let code := (data.head?.getD 0x14).toNat
      let (len, bsz) := (s.seqInfo s.core.mcid t.seq).elim (0, 0) fun i => (i.len, i.bsz)
      let pin : Pin := ⟨pos / 64, gbn, len, 0, 0, bsz, some q.fab, []⟩
      let t := if ok ∧ q.data.head? = some 0 then { t with pins := t.pins ++ [pin] } else t
      if ok && ep then s.setStrm q.key { t with ahead := t.ahead ++ [⟨0, some (uncorrectable peerLine)⟩] }
      else if ok then
        (if data.length ≠ rowBytes bsz then s.setStrm q.key t
         else s.setStrm q.key (t.readAhead (if t.fits (rowBytes bsz) then .ok (BitVec.ofNat 4096 (ofBytes data)) else .error (at_.kvFault 0x12 0 gbn))))
      else if code = 0x15 ∧ s.core.kvwait ≠ 0 then
        s.onCore fun k => if k.wait.isSome ∧ k.issue.slot ≤ 6 then { k with wait := some (.kv q.key pos gbn (at_.kvFault code q.fab gbn)) } else k
      else s.setStrm q.key { t with ahead := t.ahead ++ [⟨0, some (at_.kvFault code q.fab gbn)⟩] }

/-- `PEER_ACKNOWLEDGEMENT` (R139): a peer answers a request. A pin that it has taken for a row which nobody wants any more is released (R75), and
so is a reference that a fork which has failed had asked for (R81).
(DESIGN CHOICE, log entries 3, 39) -/
def execPeerAcknowledgement (req : Nat) (ok ep : Bool) (data : List (BitVec 8)) (s : State) : Host.Outcome State Fault Refusal :=
  .next (match s.peerReqs.find? (·.id = req) with
    | none => s
    | some q =>
      let s := { s with peerReqs := s.peerReqs.filter (·.id ≠ req) }
      if q.agent = nobody then
        (let gbn := ofBytes ((q.data.drop 1).take 8)
        if ok ∧ q.key < 16 ∧ q.data.head? = some 0 then s.sendOwner q.fab (.peerUnpin q.fab gbn)
        else if ok ∧ q.data.head? = some 3 ∧ q.data.length = 17 then s.sendOwner q.fab (.peerDec q.fab gbn)
        else s)
      else if q.agent < 256 ∧ q.key < 16 then s.rowAnswer q ok ep data
      else { s with given := s.given ++ [⟨q.agent, q.key, BitVec.ofNat 8 (ok.toNat + 2 * (ok && ep).toNat) :: data⟩] })

end Sys2Proof.Machine
end

