-- ==== Sys2Proof/Machine/Host.lean ====
section
/-! DEFINITION. What the host does: translation answers and invalidations (R49 to R51, R387), writes into device memory (R142), the
completions of reads and AtomicOps (R141); the watchpoint rows (R378). -/

namespace Sys2Proof.Machine

/-! ### Translation answers (R49, R50) -/

/-- Is a translation request held by an invalidation in progress (R51 step 2)? -/
def State.atsHeld (s : State) (fn pasid page : Nat) : Bool := s.invals.any fun i => i.covers fn pasid page

/-- The first `n` entries of a die; those of the other dies stay. (DESIGN CHOICE, log entry 68) -/
def capDie (die : Nat) : Nat → List DtcEntry → List DtcEntry
  | _, [] => []
  | n, e :: es => if e.die ≠ die then e :: capDie die n es else if n = 0 then capDie die n es else e :: capDie die (n - 1) es

/-- Do two entries of a DTC translate a common page? -/
def DtcEntry.meets (a b : DtcEntry) : Bool := a.die == b.die && a.fn == b.fn && a.pasid == b.pasid && runsMeet a.page a.pages b.page b.pages

/-- A granted translation fills the DTC of its die, which holds 4,096 entries (R49). (DESIGN CHOICE, log entry 68) -/
def State.fillDtc (s : State) (e : DtcEntry) : State :=
  { s with dtc := capDie e.die 4096 (e :: s.dtc.filter fun x => !e.meets x) }

/-- The entry that a completion makes: the translation of the aligned range of `pages` pages that holds the page (R49). -/
def grantedEntry (die fn pasid page : Nat) (rd wr : Bool) (xpage pages : Nat) : DtcEntry :=
  let n := max 1 pages
  ⟨die, fn, pasid, page / n * n, n, xpage / n * n, rd, wr⟩

/-- An agent's page is found absent: a page request is to be sent for it; after one that has succeeded the access fails (R50). -/
def State.pageAbsent (s : State) (r : AtsReq) : State :=
  let put (st : PriState) : State :=
    let t := s.priDone r.fn r.pasid r.page r.who
    { t with pri := t.pri ++ [⟨r.die, r.fn, r.pasid, r.page, r.who, st⟩] }
  match s.priState r.fn r.pasid r.page r.who with
  | none => put .absent
  | some .succeeded => put .again
  | some _ => s

/-- The access of an agent is refused (R49). -/
def State.refuse (s : State) (r : AtsReq) : State :=
  if s.isBad r.die r.fn r.pasid r.page r.who then s else { s with atsBad := s.atsBad ++ [⟨r.die, r.fn, r.pasid, r.page, r.who⟩] }

/-- The agents' requests that a completion for a page of a die answers. -/
def State.askedFor (s : State) (die fn pasid page : Nat) : List AtsReq :=
  s.ats.filter fun r => r.die = die ∧ r.fn = fn ∧ r.pasid = pasid ∧ r.page = page

/-- `ATS_COMPLETION` (R49): the answer to an outstanding translation request, for every access that waits for it. One that an invalidation in
progress overlaps is held. -/
def execAtsCompletion (die fn pasid page : Nat) (res : AtsResult) (s : State) : Host.Outcome State Fault Refusal :=
  let rs := s.askedFor die fn pasid page
  .next (if rs = [] ∨ s.atsHeld fn pasid page then s
  else
    let s := { s with ats := s.ats.filter fun r => !rs.contains r }
    match res with
    | .unsupported => rs.foldl State.refuse s
    | .granted false false _ _ => rs.foldl State.pageAbsent s
    | .granted rd wr xpage pages => s.fillDtc (grantedEntry die fn pasid page rd wr xpage pages))

/-- `PRG_RESPONSE` (R50): the answer to a page request. -/
def execPrgResponse (fn pasid page : Nat) (res : PrgResult) (s : State) : Host.Outcome State Fault Refusal :=
  let st : PriState := match res with
    | .success => .succeeded
    | .invalid => .failed
    | .failure => .failed
  .next { s with pri := s.pri.map fun (r : PriReq) =>
    if r.fn = fn ∧ r.pasid = pasid ∧ r.page = page ∧ r.st = .waiting then { r with st := st } else r }

/-! ### Invalidations (R51, R387) -/

/-- Does an invalidation cover some pages of a function and PASID? -/
def Inval.meets (i : Inval) (fn pasid page n : Nat) : Bool :=
  i.fn == fn && (i.pasid.isNone || i.pasid == some pasid) && runsMeet i.page i.pages page n

/-- Step 4 of R51 for the invalidations whose requests have all completed. -/
def State.endInvals (s : State) : State :=
  let ready := s.invals.filter fun (i : Inval) => i.reqs = []
  { s with invals := s.invals.filter fun (i : Inval) => i.reqs ≠ [],
           out := (ready.filter (·.reply)).foldl (fun o i => .invalDone i.fn i.page :: o) s.out }

/-- Steps 1 to 3 of R51: the entries go, posted writes that used one are sent ahead, requests that may have used one, on whichever of its pages,
are waited for. Translation requests under way that overlap the range are given up: what they bring is not entered, and their accesses, like those
that an earlier answer has refused or sent on to a page request, ask anew after step 4. (DEDUCED, log entry 69) -/
def State.beginInval (s : State) (i : Inval) : State :=
  let gone := s.hostGone i.meets
  let t := s.settleWhere fun h => h.host.any fun p => gone p.fn p.pasid p.page
  let used := t.hostReqs.filter fun r => gone r.fn r.pasid r.page
  { t.dropHost i.meets with ats := t.ats.filter fun r => !i.covers r.fn r.pasid r.page,
                            invals := t.invals ++ [{ i with reqs := used.map HostReq.id }] }.endInvals

/-- `ATS_INVALIDATION` (R51, R48): of a range of a PASID, or of a range whatever the PASID. (DEDUCED, log entry 69) -/
def execAtsInvalidation (fn : Nat) (pasid : Option Nat) (page pages : Nat) (s : State) : Host.Outcome State Fault Refusal :=
  .next (s.beginInval ⟨fn, pasid, page, pages, [], true⟩)

/-- `VF_FLR` (R387): V of HPASID is cleared for every ASID of the VF, and its DTC entries go; no completion is sent.
(DESIGN CHOICE, log entry 71) -/
def execVfFlr (fn : Nat) (s : State) : Host.Outcome State Fault Refusal :=
  .next (if 1 ≤ fn ∧ fn ≤ 16 then
    let s := { s with csrs := s.csrs.map fun (e : Nat × Dword) =>
      if 0x400 ≤ e.1 ∧ e.1 < 0x800 ∧ bits e.2.toNat 35 32 = fn then (e.1, e.2 &&& ~~~(BitVec.ofNat 64 (2 ^ 31))) else e }
    s.beginInval ⟨fn, none, 0, 2 ^ 36, [], false⟩
  else s)

/-! ### The host and device memory (R141, R142) -/

/-- A write under the key that each of its lines bears. -/
def State.writeInPlace (s : State) (kind who wmc : Nat) (rels : List Rel) (pa : Nat) (bs : List Byte) : State :=
  ((pieces 64 (bs.length / 64 + 2) pa bs.length).foldl (init := (s, bs)) fun (s, bs) (a, m) =>
    (s.payWrite kind who wmc rels (s.lineTagOf a) a (bs.take m), bs.drop m)).1

/-- May a function write a range of device memory: the PF all of it, a VF the memory of its partition (R387, R380)?
(DEDUCED, log entry 70) -/
def State.fnMay (s : State) (fn pa n : Nat) : Bool :=
  if fn = 0 then s.rangeValid 16 pa n
  else match (List.range 16).find? fun p => s.holds p 10 fn with
    | some p => s.rangeValid p pa n
    | none => false

/-- A write of a host function that does not carry Relaxed Ordering: an acquire at `.SYS` that returns it observes the function's earlier ones
(R142). -/
def State.hostPosted (s : State) (fn pa : Nat) (data : List Byte) : State :=
  let old := FMap.get [] s.posted fn
  let t := s.writeInPlace 4 fn 0 [⟨.host fn, 4, s.alive old⟩] pa data
  { t with posted := t.posted.insert fn (addIds old (t.madeSince s)) }

/-- `HOST_WRITE` (R142): a posted write into device memory is applied at its home, in arrival order unless it carries Relaxed Ordering; with the
EP bit it poisons its lines (R416). (DEDUCED, log entry 70) -/
def execHostWrite (fn pa : Nat) (data : List (BitVec 8)) (attr : PostAttr) (s : State) : Host.Outcome State Fault Refusal :=
  .next (if data = [] ∨ s.fnMay fn pa data.length = false then s
  else
    let s := if attr.ro then s.writeInPlace 4 fn 0 [] pa data else s.hostPosted fn pa data
    if attr.ep then s.poisonLines pa data.length else s)

/-- `HOST_COMPLETION` (R141): the data of a read or an AtomicOp reaches the access that asked; an invalidation that waited for it can
go on (R51). (DESIGN CHOICE, log entry 3) -/
def execHostCompletion (req : Nat) (data : List (BitVec 8)) (s : State) : Host.Outcome State Fault Refusal :=
  .next (match s.hostReqs.find? (·.id = req) with
    | none => s
    | some q =>
      if data.length ≠ q.len then s
      else
        let s := { s with hostReqs := s.hostReqs.filter (·.id ≠ req),
                          invals := s.invals.map fun (i : Inval) => { i with reqs := i.reqs.filter (· ≠ req) } }.endInvals
        if q.core < 256 then s.at_ q.core fun s => s.onIssue fun i => { i with given := i.given ++ [(q.key, data)] }
        else if q.core = nobody then s
        else { s with given := s.given ++ [⟨q.core, q.key, data⟩] })

/-! ### Watchpoints (R378) -/

/-- The VA and the length that an operation of the executing core stores to, if it is a scalar store that is enabled. -/
def State.storeVa (s : State) (i : Instr) : Option (Nat × Nat) :=
  let at_ (c : Ctl) (o : SM) (n : Nat) : Option (Nat × Nat) :=
    if s.enabled c then some (s.smAddr o, n) else none
  match i with
  | .stb c o => at_ c o 1
  | .sth c o => at_ c o 2
  | .stw c o => at_ c o 4
  | .std c o => at_ c o 8
  | .stnt c o => at_ c o 8
  | _ => none

/-- `WATCH` (R378): the bundle at which the task of a core stands stores to a watched byte of its own MC; it faults, its condition ranked
with the others of its issue (R358), and the write is not performed. -/
def execWatch (n va : Nat) (s : State) : Host.Outcome State Fault Refusal :=
  .next (if (s.coreAt n).run ≠ .running then s
  else s.at_ n fun s =>
    match fetchBundle s with
    | .error _ => s
    | .ok ((h, b), _) =>
      let ops := s.core.slotOps (decodeSlots h.pm b)
      match ops.findSome? fun o => s.storeVa o.op with
      | none => s
      | some (a, n) =>
        match s.xlate s.asker s.die s.core.asid a .write with
        | (.hit (.dev pa _), _) =>
          if a = va ∧ (s.watchHits pa n).any fun w => s.watchMc w == s.core.mcid then
            let fi : FaultInfo := ⟨0x30, 0, 0, vaInfo va true false⟩
            s.eventFault [⟨0, fi⟩] fi
          else s
        | _ => s)

/-- `WATCHEV` (R378): another writer's write to a watched byte is performed, and recorded. -/
def execWatchev (kind who writerMc pa : Nat) (data : List (BitVec 8)) (s : State) : Host.Outcome State Fault Refusal :=
  .next (if s.rangeValid 16 pa data.length ∧ s.watchHits pa data.length ≠ [] then s.writeInPlace kind who writerMc [] pa data else s)

end Sys2Proof.Machine
end

