-- ==== Sys2Proof/Machine/Boot.lean ====
section
/-! DEFINITION. Reset and bring-up (R411, R413). -/

namespace Sys2Proof.Machine

/-- BOOTSTAT (R413). -/
def Boot.stat (b : Boot) : Dword := BitVec.ofNat 64 (b.step + 8 * b.fail.toNat + 16 * b.code)

/-- The cores that a configuration record does not enable: CORES has a bit for each core, from byte 64 on (R395). -/
def disabledBy (record : List Byte) : List Nat :=
  let v := ofBytes ((record.drop 64).take 32)
  (List.range 256).filter fun n => !bit v n

/-- The core of the root: core 63 of CD3, or the highest of CD3 that is enabled (R413 step 5). -/
def rootCoreOf (disabled : List Nat) : Option Nat :=
  ((List.range 64).map fun i => 255 - i).find? fun n => !disabled.contains n

/-- Does the IDHASH of a configuration record, bytes 32 to 63, name the identity key (R395)? -/
def idHashOk (record : List Byte) : Bool := (record.drop 32).take 32 == toBytes 32 Config.idHash.toNat

/-- Bring-up stops after step `step` with a code: the cores stay in reset, and FAULT# is asserted (R413). -/
def State.bootFail (s : State) (step code : Nat) : State :=
  { s with boot := { s.boot with step := step, fail := true, code := code }, out := .faultPin :: s.out }

/-- The MCB of the root (R413 step 5): PART 16, ASID 0, SPAN 1, PT_ROOT and ENTRY; every other field zero. -/
def rootMcb (ptRoot entry : Nat) : Nat := 16 * 2 ^ 8 + 2 ^ 42 + ptRoot * 2 ^ 64 + entry * 2 ^ 192

/-- Step 5 of R413, once the cores and the memories are there. -/
def State.launchRoot (s : State) (n mcbtab ptRoot entry : Nat) : State :=
  let s := { (s.setCsr 0x050 (BitVec.ofNat 64 mcbtab)).setCsr 0x080 0x8000000000000000 with
             grants := s.grants ++ [(⟨16, 0, n, 1, 0⟩ : Grant)], boot := { s.boot with rootCore := n } }
  let s := (s.setMcb 0 (rootMcb ptRoot entry)).startJob 0 [(n / 64, n % 64)] 0 true
  { s with boot := { s.boot with step := 5, inReset := false } }

/-- `BRING_UP` (R413): PERST# is released, and the security engine carries out the steps; the first that fails stops it.
(DEDUCED, log entry 24; DESIGN CHOICE, log entry 25) -/
def execBringUp (b : BootRecord) (s : State) : Host.Outcome State Fault Refusal :=
  let gone := disabledBy b.record
  .next (if s.boot.inReset = false ∨ s.boot.fail then s
  else if !b.signatureOk then s.bootFail 0 1
  else
    let s := { s with boot := { s.boot with fwMeas := sha256 b.image } }
    if !b.certificateOk then s.bootFail 1 2
    else if !b.recordOk || !idHashOk b.record then s.bootFail 1 3
    else match rootCoreOf gone with
      | none => s.bootFail 1 3
      | some n =>
        let s := { s with boot := { s.boot with cfgHash := sha256 b.record, disabled := gone } }
        if !b.trainingOk then s.bootFail 3 4
        else
          let s := { s with mem := b.cells.foldl (fun (m : Memory) (c : Host.Cell) => m.write c.1 c.2) [] }
          s.launchRoot n b.mcbtab b.ptRoot.toNat b.entry.toNat)

/-- Every reset value applies again; what has left the package, the step counter and the storage behind the package stay (R413).
(DESIGN CHOICE, log entry 26) -/
def State.enterReset (s : State) : State := { State.reset with tick := s.tick, turns := s.turns, out := s.out, nvme := s.nvme }

/-- `THERMTRIP` (R411): THERMTRIP# and FAULT# are asserted, and no state survives. -/
def execThermtrip (s : State) : Host.Outcome State Fault Refusal := .next { s.enterReset with out := .faultPin :: .therm :: s.out }

/-- `PERST_ASSERT` (R413): every core is held, and all state is lost. (DESIGN CHOICE, log entry 26) -/
def execPerstAssert (s : State) : Host.Outcome State Fault Refusal := .next s.enterReset

end Sys2Proof.Machine
end

