-- ==== Sys2Proof/Machine/Outside.lean ====
section
/-! DEFINITION. What the outside does that is no row of the opcode table: other CXL requesters (R144), host reads of notify words and of BOOTSTAT
(R178, R413), the member jobs of other packages (R154, R155, R354, R356), peers at this package's blocks (R61, R74). (DESIGN CHOICE, log entry 31) -/

namespace Sys2Proof.Machine

/-! ### Other CXL requesters (R144) -/

/-- A write of another requester to the pooled device, line by line: this package sees it when its home slice reads the line again. -/
def State.cxlWrite (s : State) (pa : Nat) (bs : List Byte) : State :=
  ((pieces 64 (bs.length / 64 + 2) pa bs.length).foldl (init := (s, bs)) fun (s, bs) (a, m) =>
    ({ s with cxl := s.cxl ++ [⟨cellsAt a (bs.take m)⟩] }, bs.drop m)).1

/-- Bytes of the pooled device, with what every requester has written. -/
def State.cxlBytes (s : State) (pa n : Nat) : List Byte :=
  let was := s.rdBytes (s.lineTagOf pa) pa n
  s.cxl.foldl (fun bs w => bs.mapIdx fun i b => (w.cells.find? fun c => c.1 = pa + i).elim b (·.2)) was

/-- Does a run lie in the pooled memory that is there? -/
def State.inPooled (s : State) (pa n : Nat) : Bool :=
  decide (0 < n) && tierOf pa == 3 && tierOf (pa + n - 1) == 3 && s.frameOk pa && s.frameOk (pa + n - 1)

/-- A device-side atomic of another requester: 0 add, 1 swap, 2 compare and swap. -/
def State.cxlAtomic (s : State) (pa n kind : Nat) (a b : Dword) : State :=
  let old := ofBytes (s.cxlBytes pa n)
  let w := 2 ^ (8 * n)
  match kind with
  | 0 => s.cxlWrite pa (toBytes n ((old + a.toNat) % w))
  | 1 => s.cxlWrite pa (toBytes n (a.toNat % w))
  | _ => if old = a.toNat % w then s.cxlWrite pa (toBytes n (b.toNat % w)) else s

/-! ### Members of other packages (R154, R354) -/

/-- A member job of another package leaves the domain of an XID; where it was the last the XID's barrier starts anew. -/
def State.memberLeaves (s : State) (fab xid job : Nat) : State := (s.outerLeave fab xid job).endRound xid

/-- The packages of a collective have made their exchange. -/
def State.collExchange (s : State) (x : Exchange) : State :=
  if s.exchanges.any fun y => y.xid == x.xid && y.op == x.op && y.coll == x.coll then s
  else { x.fabs.foldl (fun s f => s.hostKnown x.xid f.1) s with
         exchanges := s.exchanges ++ [{ x with flits := [], data := [], dataBad := [], sent := [] }] }

/-- Something arrives for a collective. -/
def State.onExchange (s : State) (op xid coll : Nat) (f : Exchange → Exchange) : State :=
  { s with exchanges := s.exchanges.map fun x => if x.op = op ∧ x.xid = xid ∧ x.coll = coll then f x else x }

/-! ### What happens -/

/-- What the outside does. -/
def State.outsideMove (s : State) : Outside → State
  | .cxlWrite pa data => if s.inPooled pa data.length then s.cxlWrite pa data else s
  | .cxlAtomic pa n kind a b =>
    if Config.cxlAtomics ∧ (n = 4 ∨ n = 8) ∧ pa % n = 0 ∧ s.inPooled pa n then s.cxlAtomic pa n kind a b else s
  | .notifyRead fn m =>
    if m < 16384 ∧ fn ≤ 16 then { s with out := .notify fn m (BitVec.ofNat 64 (s.mcbF m 351 320)) :: s.out } else s
  | .bootRead => { s with out := .bootstat s.boot.stat :: s.out }
  | .barArrive fab xid job c => if s.peerUp fab then s.outerArrive fab xid job c (s.alive (s.peerView fab)) else s
  | .barLanded fab xid phase n => if s.peerUp fab then s.countBytes (2 ^ 14) 4 xid phase n (s.alive (s.peerView fab)) else s
  | .barLeave fab xid job => s.memberLeaves fab xid job
  | .collExchange x =>
    if (x.fabs.all fun f => s.peerUp f.1 && f.1 != s.fabId && f.2 != 0) ∧ (x.fabs.map (·.1)).Nodup then s.collExchange x else s
  | .collFlit xid coll flit bad => s.onExchange 0x61 xid coll fun x => { x with flits := x.flits ++ [(flit, bad)] }
  | .collData xid coll data bad => s.onExchange 0x62 xid coll fun x =>
    { x with data := x.data ++ data, dataBad := x.dataBad ++ if bad then [(x.data.length, data.length, peerLine)] else [] }
  | .peerKv fab part gbn op => s.servePeerKv fab part gbn op
  | .kvReady fab gbn =>
    if s.peerUp fab ∧ fab ≠ s.fabId then
      { s with dispq := s.dispq.map fun (r : DispReq) => { r with ready := r.ready.filter (· ≠ .kv fab gbn) } }
    else s

end Sys2Proof.Machine
end

