-- ==== Sys2Proof/Machine/Report.lean ====
section
/-! DEFINITION. Attestation reports of the security engine (R396). -/

namespace Sys2Proof.Machine

/-- The grants of a partition with the ASID of CREATE as an entry of KIND 3 (R396). -/
def State.grantEntries (s : State) (p : Nat) : List Grant :=
  let own := s.csr (0x070 + p)
  (s.grants.filter (·.part == p)) ++ (if own.getLsbD 63 then [⟨p, 3, bits own.toNat 9 0, 1, 0⟩] else [])

/-- Insert a grant in the order of KIND, then BASE. -/
def insertGrant (g : Grant) : List Grant → List Grant
  | [] => [g]
  | h :: l => if g.kind < h.kind ∨ (g.kind = h.kind ∧ g.base < h.base) then g :: h :: l else h :: insertGrant g l

/-- Merge abutting ranges of one KIND with equal AUX, in a sorted list. -/
def mergeGrants : List Grant → List Grant
  | [] => []
  | g :: l =>
    match mergeGrants l with
    | [] => [g]
    | h :: m =>
      if g.kind = h.kind ∧ g.aux = h.aux ∧ g.base + g.count = h.base then { g with count := g.count + h.count } :: m else g :: h :: m

/-- The canonical grant list (R396). -/
def State.layoutBytes (s : State) (p : Nat) : List Byte :=
  (mergeGrants ((s.grantEntries p).foldr insertGrant [])).flatMap fun g =>
    toBytes 8 g.kind ++ toBytes 8 g.base ++ toBytes 8 g.count ++ toBytes 8 g.aux

/-- The 512 bytes of a report (R396). -/
def State.reportBytes (s : State) (p : Nat) (nonce : List Byte) : List Byte :=
  let e := s.sealOf p
  toBytes 2 1 ++ toBytes 1 p ++ toBytes 1 (s.csrF (0xCA0 + p) 2 0) ++ toBytes 4 0 ++ toBytes 8 s.frame ++ nonce ++
    toBytes 32 s.boot.fwMeas.toNat ++ toBytes 32 s.boot.cfgHash.toNat ++ toBytes 32 Config.idHash.toNat ++
    toBytes 32 (sha256 (s.layoutBytes p)).toNat ++
    toBytes 32 (digits 1 (fun i => if s.csrF (0x200 + i) 4 0 = p then 1 else 0) 0 256) ++
    toBytes 8 (s.csrN (0x150 + p)) ++ toBytes 8 (s.csrN (0x170 + p)) ++ toBytes 8 (s.csrN (0x190 + p)) ++ toBytes 8 (s.csrN (0x0D0 + p)) ++
    toBytes 8 (e.seqno - 1) ++ toBytes 32 e.prev.toNat ++ List.replicate 232 0

/-! ### The engine's work on a request -/

/-- The engine has ended its work: BUSY clear, FAIL as given (R396). -/
def State.attDone (s : State) (fail : Bool) : State := { s.setCsr 0xCF8 (if fail then 2 else 0) with att := none }

/-- The agent number of the attestation engine (`Given`). -/
def attAgent : Nat := 2 ^ 70

/-- The head of an attestation buffer, with the nonce; none where it is poisoned (R416). -/
def attHead (r : AttReq) (l : Loc) : M (Option (List Byte)) := do
  let x ← srcOf attAgent r.asid r.va 64 (pure l)
  x.read attAgent r.asid r.va 64 (fun pa t => do
    let s ← get
    pure (if (s.poisoned pa 48).isSome then none else some (s.rdBytes t pa 48))) fun bs => some (bs.take 48)

/-- The partition that a request names, with the nonce of its buffer: at PL2 byte 2 says which, and it must be one. -/
def AttReq.names (r : AttReq) (buf : List Byte) : Option Nat :=
  let p := if r.pl = 2 then ((buf[2]?).getD 0).toNat else r.part
  if p ≤ 16 then some p else none

/-- The report of a partition is written, and then its signature, with release at `.SYS` (R396). -/
def attWrite (ls : List (Loc × Nat)) (p : Nat) (nonce : List Byte) : M Unit := do
  let s ← get
  let rep := s.reportBytes p nonce
  writePlaces [] ls rep
  let made := (← get).madeSince s
  writePlaces [⟨.engine, 4, made⟩] (dropPlaces 512 ls) (toBytes 384 (pssSign rep (Config.free 256 s.tick .salt p 0)).toNat)

/-- The engine's work on a request: the buffer is translated as a WRITE, page by page; what fails sets FAIL and writes nothing.
(DEDUCED, log entry 47) -/
def attWork (r : AttReq) : M Unit := do
  if r.va % 64 ≠ 0 ∨ 2 ^ 52 ≤ r.va then M.change (·.attDone true)
  else match ← xlateRun attAgent r.die r.asid r.va 1024 with
    | some ((l, n) :: ls) =>
      match (← attHead r l).bind fun buf => (r.names buf).map fun p => (p, buf.drop 16) with
      | none => M.change fun s => (s.attDone true).dropGiven attAgent
      | some (p, nonce) => do
        attWrite ((l, n) :: ls) p nonce
        M.change fun s => (s.attDone false).dropGiven attAgent
    | _ => M.change (·.attDone true)

/-- The engine moves on the request that it has taken. -/
def State.attMove (s : State) : Host.Outcome State Fault Refusal :=
  match s.att with
  | none => .next s
  | some r => runAgent (attWork r) s

end Sys2Proof.Machine
end

