-- ==== Sys2Proof/Machine/Control.lean ====
section
/-! DEFINITION. Control operations (R259 to R263), `NOP` and `IDLE` (R242). -/

namespace Sys2Proof.Machine

/-- The next bundle is at a target (R220, R259). -/
def State.goTo (s : State) (t : BitVec 52) : State := s.onIssue fun i => { i with target := some t }

/-- The target of an offset in 4-byte units, modulo 2^52 (R259). -/
def State.relative (s : State) (o : SJ) : BitVec 52 := s.core.pc + (o.off.signExtend 52 <<< 2)

/-- A transfer to a register's value: bits 1 and 0 and bits 63 to 52 must be clear (R259). -/
def jumpTo (t : Dword) : M Unit := do
  M.need (t.toNat % 4 == 0 && decide (t.toNat < 2 ^ 52)) (.fault illegalSlot)
  M.change (·.goTo (t.setWidth 52))

/-- x63 := next_pc (R259). -/
def State.link (s : State) : State := s.putX 63 (s.core.issue.nextPc.setWidth 64) 1

/-- `NOP` does nothing (R242). -/
def execNop (s : State) : Host.Outcome State Fault Refusal := .next s

/-- `IDLE` issues nothing and disarms its slot (R242, R229). -/
def execIdle (s : State) : Host.Outcome State Fault Refusal :=
  .next (s.onCore fun k => { k with slots := setAt k.slots (k.issue.slot - 1) .off })

/-- `BR` (R259). -/
def execBr (c : Ctl) (o : SJ) : State → Host.Outcome State Fault Refusal := scalarOp c fun s => s.goTo (s.relative o)

/-- `JMP` (R259): PC[51:48], OFF and two zero bits. -/
def execJmp (c : Ctl) (o : SJ) : State → Host.Outcome State Fault Refusal :=
  scalarOp c fun s => s.goTo (s.core.pc.extractLsb' 48 4 ++ o.off ++ (0 : BitVec 2) : BitVec 52)

/-- `JMPX` (R259). -/
def execJmpx (c : Ctl) (o : SR) : State → Host.Outcome State Fault Refusal :=
  slotOp c do jumpTo ((← get).getX o.xa.toNat)

/-- `CALL` (R259). -/
def execCall (c : Ctl) (o : SJ) : State → Host.Outcome State Fault Refusal := scalarOp c fun s => s.link.goTo (s.relative o)

/-- `CALLX` (R259): the target is read before x63 is written. -/
def execCallx (c : Ctl) (o : SR) : State → Host.Outcome State Fault Refusal :=
  slotOp c do
    jumpTo ((← get).getX o.xa.toNat)
    M.change State.link

/-- `RET` (R259). -/
def execRet (c : Ctl) (_ : SR) : State → Host.Outcome State Fault Refusal := slotOp c do jumpTo ((← get).getX 63)

/-- `LOOP.C` (R260). -/
def execLoopC (c : Ctl) (o : SJ) : State → Host.Outcome State Fault Refusal :=
  scalarOp c fun s =>
    if s.core.lc = 0 then s else (s.onCore fun k => { k with lc := k.lc - 1 }).goTo (s.relative o)

/-- The stage gates after `LOOP.M`, in the SGATE that keeps DEPTH (R261). -/
def nextGates (sgate : BitVec 11) (g : Nat) : BitVec 11 :=
  let n := sgate.toNat
  BitVec.ofNat 11 (setBits n 7 0 ((bits n 7 0 * 2 + g) % 2 ^ (bits n 10 8 + 1)))

/-- `LOOP.M` (R261). -/
def execLoopM (c : Ctl) (o : SJ) : State → Host.Outcome State Fault Refusal :=
  scalarOp c fun s =>
    let s1 := s.onCore fun k =>
      { k.rotate with lc := if k.lc = 0 then 0 else k.lc - 1, sgate := nextGates k.sgate (if k.lc = 0 then 0 else 1) }
    if bits s1.core.sgate.toNat 7 0 = 0 then s1 else s1.goTo (s.relative o)

/-- `SETLC` (R262). -/
def execSetlc (c : Ctl) (o : SI) : State → Host.Outcome State Fault Refusal :=
  scalarOp c fun s =>
    let v := s.getX o.xa.toNat + o.imm.signExtend 64
    s.onCore fun k => { k with lc := v.setWidth 32 }

/-- `SETSG` (R262). -/
def execSetsg (c : Ctl) (o : SI) : State → Host.Outcome State Fault Refusal :=
  scalarOp c fun s =>
    let v := s.getX o.xa.toNat + o.imm.signExtend 64
    s.onCore fun k => { k with sgate := v.setWidth 11 }

/-- `HALT` commits, and BREAK is raised before the next bundle (R263). -/
def execHalt (c : Ctl) (_ : ST) : State → Host.Outcome State Fault Refusal :=
  scalarOp c fun s => s.onIssue fun i => { i with after := .halt }

end Sys2Proof.Machine
end

