-- ==== Sys2Proof/Machine/Pcfg.lean ====
section
/-! DEFINITION. `PCFG` (R279, R280): partitions, grants, the calendar, bands, slices, phases, grist mappings. -/

namespace Sys2Proof.Machine

/-- A parameter block of which only some fields are named (R279). -/
def blockOk (named : List (Nat × Nat)) (d : Nat) : Bool := copyFields named 0 d == d

/-- A `PCFG` operation with its level, the fields its block names, and its work (R279). -/
def pcfgOp (level : Nat) (named : List (Nat × Nat)) (c : Ctl) (o : SR) (f : Nat → M PrivRes) : State → Host.Outcome State Fault Refusal :=
  privOp level c o fun xa xb _ => do
    if xa ≥ 2 ^ 4 ∨ 8 ≤ bits xa 3 0 ∨ xb ≥ 2 ^ 52 ∨ xb % 64 ≠ 0 then pure (0x01, 0)
    else
      let d := ofBytes (← loadBytes xb 64)
      if blockOk named d then f d else pure (0x01, 0)

/-- The work of an operation that is a status and a new state. -/
def statusOf (f : State → Nat × State) : M PrivRes := do
  let (st, s) := f (← get)
  set s
  pure (st, 0)

/-- Does a partition exist (R280)? The root does. -/
def State.isPart (s : State) (p : Nat) : Bool := p == 16 || (decide (p < 16) && s.partExists p)

/-- Does a root MCB other than FREE name an ASID (R15)? -/
def State.rootNames (s : State) (a : Nat) : Bool := s.mcs.any fun e => s.mcPart e.1 == 16 && s.mcAsid e.1 == a

/-! ### CREATE and DESTROY -/

/-- CREATE (R279): the status. -/
def State.createPart (s : State) (p a : Nat) : Nat × State :=
  if p > 15 then (0x01, s)
  else if s.partExists p then (0x07, s)
  else if a = 0 ∨ s.asidPart a ≠ 16 ∨ s.rootNames a then (0x06, s)
  else
    let s := (s.setCsr (0x070 + p) (BitVec.ofNat 64 (a + 2 ^ 63))).randomKey a
    let old := s.sealOf p
    (0x00, { (s.enterPhase p 0) with
      hold := s.hold.filter (· ≠ p),
      seals := s.seals.insert p ⟨0, s.frame, 0, old.held, s.frame + 2 ^ 20⟩,
      totals := s.totals.filter fun t => !(decide (16 * p ≤ t.1) && decide (t.1 < 16 * p + 16)) })

/-- `PCFG` CREATE (R279); also what answers a sub-operation that is none. -/
def execPcfgCreate (c : Ctl) (o : SR) : State → Host.Outcome State Fault Refusal :=
  pcfgOp 2 [(4, 0), (25, 16)] c o fun d => statusOf (·.createPart (bits d 4 0) (bits d 25 16))

/-- DESTROY (R279, R382): the status. -/
def State.destroyPart (s : State) (p : Nat) : Nat × State :=
  if p > 15 then (0x01, s)
  else if !s.partExists p ∨ s.phase p ≠ 5 ∨ s.grants.any (·.part == p) ∨ s.csrF (0x0D0 + p) 15 0 ≠ 0 ∨ s.partMcs p ≠ [] then (0x07, s)
  else (0x00, s.setCsr (0x070 + p) (BitVec.ofNat 64 (setBits (s.csrN (0x070 + p)) 63 63 0)))

/-- `PCFG` DESTROY (R279). -/
def execPcfgDestroy (c : Ctl) (o : SR) : State → Host.Outcome State Fault Refusal :=
  pcfgOp 2 [(4, 0)] c o fun d => statusOf (·.destroyPart (bits d 4 0))

/-! ### QUOTA (R280) -/

/-- The unit in which a kind's BASE and COUNT are kept: bytes of memory and frames of 2 MiB count in the unit of COUNT. -/
def kindUnit (kind : Nat) : Nat := if kind = 9 then 2 ^ 21 else 1

/-- The span of a grant, in the unit of COUNT. -/
def Grant.span (g : Grant) : Nat × Nat := (g.base / kindUnit g.kind, g.base / kindUnit g.kind + g.count)

/-- Are BASE, COUNT and AUX in range for a kind? -/
def State.quotaOk (s : State) (p kind base count aux : Nat) : Bool :=
  (aux == 0 || kind == 8) && (count != 0 || kind == 5) && match kind with
  | 0 => [1, 2, 4, 8, 16, 32, 64].contains count && base % count == 0 && decide (base + count ≤ 256)
  | 1 => decide (base + count ≤ 512)
  | 2 => decide (base + count ≤ 16384) && base / 4096 == (base + count - 1) / 4096
  | 3 => decide (base + count ≤ 1024)
  | 4 => decide (base + count ≤ 2 ^ 32)
  | 5 => base == 0
  | 6 => base % 65536 == 0 && count % 65536 == 0 && s.frameOk base && s.frameOk (base + count - 1) && tierOf base == tierOf (base + count - 1)
  | 7 => count == 1 && decide (base < 2 ^ 32)
  | 8 => count == 1 && decide (base < 256) && decide (aux ≤ 16)
  | 9 => p == 16 && base % 2 ^ 21 == 0 && decide (tierOf base < 3) && s.frameOk base && s.frameOk (base + count * 2 ^ 21 - 1) &&
      tierOf base == tierOf (base + count * 2 ^ 21 - 1)
  | 10 => count == 1 && decide (1 ≤ base) && decide (base ≤ 16)
  | _ => false

/-- Do two spans meet? -/
def meets (a b : Nat × Nat) : Bool := decide (a.1 < b.2) && decide (b.1 < a.2)

/-- The bytes of memory that a grant of KIND 6 or 9 names. -/
def Grant.bytes (g : Grant) : Nat × Nat := (g.base, g.base + g.count * kindUnit g.kind)

/-- Is some part of a resource held by another partition, or withheld from every grant (R280, R379, R15)? -/
def State.quotaTaken (s : State) (q : Grant) : Bool :=
  let range := (List.range q.count).map (q.base + ·)
  (s.grants.any fun g => g.part != q.part && g.kind == q.kind && g.aux == q.aux && meets g.span q.span) ||
    (q.kind == 0 && range.any fun n => s.boot.disabled.contains n || s.boot.rootCore == n) ||
    (q.kind == 3 && range.any fun a => a == 0 || s.rootNames a || (s.asidPart a != 16 && s.asidPart a != q.part)) ||
    ((q.kind == 6 || q.kind == 9) && s.grants.any fun g =>
      g.part != q.part && (g.kind == 6 || g.kind == 9) && meets g.bytes q.bytes)

/-- A span without another. -/
def cutSpan (a b : Nat × Nat) : List (Nat × Nat) :=
  if meets a b then [(a.1, b.1), (b.2, a.2)].filter fun x => x.1 < x.2 else [a]

/-- The grants of a partition without a span of a kind. -/
def cutGrants (q : Grant) (gs : List Grant) : List Grant :=
  gs.flatMap fun g =>
    if g.part = q.part ∧ g.kind = q.kind ∧ g.aux = q.aux then
      (cutSpan g.span q.span).map fun x => { g with base := x.1 * kindUnit g.kind, count := x.2 - x.1 }
    else [g]

/-- What of a resource no `QUOTA` has granted to a partition. -/
def State.ungranted (s : State) (q : Grant) : List (Nat × Nat) :=
  (s.grants.filter fun g => g.part = q.part ∧ g.kind = q.kind ∧ g.aux = q.aux).foldl
    (fun xs g => xs.flatMap fun x => cutSpan x g.span) [q.span]

/-- What of a resource a partition does not hold yet: it also holds the ASID of its `CREATE` (R379). -/
def State.missing (s : State) (q : Grant) : List (Nat × Nat) :=
  if q.kind = 3 ∧ q.part < 16 ∧ s.partExists q.part then
    let own := s.csrF (0x070 + q.part) 9 0
    (s.ungranted q).flatMap fun x => cutSpan x (own, own + 1)
  else s.ungranted q

/-- The sum of SPLQUOTA without a partition's own. -/
def State.splOthers (s : State) (p : Nat) : Nat := ((List.range 17).map fun i => if i = p then 0 else s.csrF (0x0D0 + i) 15 0).foldl (· + ·) 0

/-- A grant (R280): the status. (DEDUCED, log entry 53) -/
def State.grant (s : State) (q : Grant) : Nat × State :=
  if q.kind = 9 ∧ s.csrF 0x065 0 0 = 0 then (0x07, s)
  else if q.kind = 5 then
    (if s.splOthers q.part + q.count > 32768 then (0x06, s) else (0x00, s.setCsr (0x0D0 + q.part) (BitVec.ofNat 64 q.count)))
  else if s.quotaTaken q then (0x06, s)
  else if q.part = 16 ∧ (q.kind = 3 ∨ q.kind = 6) then (0x00, s)
  else
    let new := s.missing q
    let s := { s with grants := s.grants ++ new.map fun x => { q with base := x.1 * kindUnit q.kind, count := x.2 - x.1 } }
    let keys := if q.kind = 3 then new.flatMap fun x => (List.range (x.2 - x.1)).map (x.1 + ·) else []
    (0x00, keys.foldl State.randomKey s)

/-- A revoke (R280): the status. The ASID of a `CREATE` is no grant of `QUOTA` (R385). (DEDUCED, log entry 53) -/
def State.revoke (s : State) (q : Grant) : Nat × State :=
  if q.part ≠ 16 ∧ s.phase q.part ≠ 4 then (0x07, s)
  else if q.kind = 5 then
    (if s.csrF (0x0D0 + q.part) 15 0 = 0 then (0x03, s) else (0x00, { s with csrs := s.csrs.erase (0x0D0 + q.part) }))
  else if q.part = 16 ∧ (q.kind = 6 ∨ (q.kind = 3 ∧ (List.range q.count).all fun i => s.asidPart (q.base + i) == 16)) then (0x00, s)
  else if s.ungranted q ≠ [] then (0x03, s)
  else (0x00, { s with grants := cutGrants q s.grants })

/-- The resource that a QUOTA block names, or the status that refuses it. -/
def State.quotaBlock (s : State) (d : Nat) : Except Nat Grant :=
  let p := bits d 4 0
  let kind := bits d 15 12
  let q : Grant := ⟨p, kind, bits d 127 64, bits d 191 128, bits d 255 192⟩
  if p > 16 ∨ !s.quotaOk p kind q.base q.count q.aux then .error 0x01 else if !s.isPart p then .error 0x07 else .ok q

/-- The fields of a QUOTA block (R279). -/
def quotaFields : List (Nat × Nat) := [(4, 0), (8, 8), (15, 12), (127, 64), (191, 128), (255, 192)]

/-- `PCFG` QUOTA with REVOKE = 0 (R280). (DEDUCED, log entry 54) -/
def execPcfgQuotaGrant (c : Ctl) (o : SR) : State → Host.Outcome State Fault Refusal :=
  pcfgOp 2 quotaFields c o fun d => statusOf fun s =>
    match s.quotaBlock d with
    | .error st => (st, s)
    | .ok q => s.grant q

/-- `PCFG` QUOTA with REVOKE = 1 (R280). (DEDUCED, log entry 54) -/
def execPcfgQuotaRevoke (c : Ctl) (o : SR) : State → Host.Outcome State Fault Refusal :=
  pcfgOp 2 quotaFields c o fun d => statusOf fun s =>
    match s.quotaBlock d with
    | .error st => (st, s)
    | .ok q => s.revoke q

/-! ### CAL, BAND, SLICE -/

/-- A write staged to the next frame boundary (R195). -/
def State.stage (s : State) (n v : Nat) : State := { s with staged := s.staged ++ [(n, BitVec.ofNat 64 v)] }

/-- `PCFG` CAL (R279, R195): the result is the frame at which the change takes effect. -/
def execPcfgCal (c : Ctl) (o : SR) : State → Host.Outcome State Fault Refusal :=
  pcfgOp 2 [(7, 0), (16, 8), (28, 24)] c o fun d => do
    let first := bits d 7 0
    let n := bits d 16 8
    let own := bits d 28 24
    let s ← get
    if n = 0 ∨ n > 256 ∨ first + n > 256 ∨ (17 ≤ own ∧ own ≤ 30) then pure (0x01, 0)
    else if own ≠ 0x1F ∧ !s.isPart own then pure (0x07, 0)
    else
      set ((List.range n).foldl (fun s i => s.stage (0x200 + first + i) own) s)
      pure (0, s.frame + 1)

/-- `PCFG` BAND (R279, R198). -/
def execPcfgBand (c : Ctl) (o : SR) : State → Host.Outcome State Fault Refusal :=
  pcfgOp 2 [(4, 0), (127, 64), (191, 128), (255, 192)] c o fun d => statusOf fun s =>
    let p := bits d 4 0
    if p > 16 then (0x01, s)
    else if !s.isPart p then (0x07, s)
    else (0x00, ((s.stage (0x150 + p) (bits d 127 64)).stage (0x170 + p) (bits d 191 128)).stage (0x190 + p) (bits d 200 192))

/-- `PCFG` SLICE (R279, R199): PART is 0 to 15; the reserved bits of TSPART are ignored (R8). -/
def execPcfgSlice (c : Ctl) (o : SR) : State → Host.Outcome State Fault Refusal :=
  pcfgOp 2 [(63, 0)] c o fun d => statusOf fun s =>
    if 15 < bits d 4 0 then (0x01, s) else (0x00, s.stage 0x062 (copyFields [(5, 0), (31, 16)] 0 d))

/-! ### STATE (R382) -/

/-- A request for a phase: its checks; `from_` are the phases that allow it, and the result is the phase after the request. -/
def phaseOp (from_ : List Nat) (f : State → Nat → State) (c : Ctl) (o : SR) : State → Host.Outcome State Fault Refusal :=
  pcfgOp 2 [(4, 0), (10, 8)] c o fun d => do
    let p := bits d 4 0
    let ph := bits d 10 8
    let s ← get
    if p > 15 ∨ ph > 5 then pure (0x01, 0)
    else if ph = 2 ∨ ph = 4 ∨ !s.partExists p ∨ !from_.contains (s.phase p) then pure (0x07, 0)
    else
      set (f s p)
      pure (0, (f s p).phase p)

/-- `PCFG` STATE, request DRAIN (R382, R383); also what answers a PHASE that cannot be requested. -/
def execPcfgStateDrain : Ctl → SR → State → Host.Outcome State Fault Refusal := phaseOp [0] State.drain
/-- `PCFG` STATE, request SCRUB (R382, R384). -/
def execPcfgStateScrub : Ctl → SR → State → Host.Outcome State Fault Refusal := phaseOp [2] State.scrub
/-- `PCFG` STATE, request RELEASE (R382, R385). -/
def execPcfgStateRelease : Ctl → SR → State → Host.Outcome State Fault Refusal := phaseOp [4] State.releasePart
/-- `PCFG` STATE, request ACTIVE (R382): at the next frame boundary. -/
def execPcfgStateActive : Ctl → SR → State → Host.Outcome State Fault Refusal := phaseOp [1, 2, 4, 5] fun s p => s.stage (0xCA0 + p) 0

/-! ### GMAP (R32) -/

/-- GMAP with its effect; at PL1 the ASID must belong to the caller's partition (R32). -/
def gmapOp (f : State → Nat → Nat → BitVec 256 → Nat × State) (c : Ctl) (o : SR) : State → Host.Outcome State Fault Refusal :=
  pcfgOp 1 [(255, 0), (307, 256), (317, 308), (318, 318)] c o fun d => statusOf fun s =>
    if s.reachesAsid (bits d 317 308) then f s (bits d 317 308) (bits d 307 256) (BitVec.ofNat 256 (bits d 255 0)) else (0x03, s)

/-- `PCFG` GMAP, map (R32). -/
def execPcfgGmapMap : Ctl → SR → State → Host.Outcome State Fault Refusal := gmapOp State.gmapMap
/-- `PCFG` GMAP, unmap (R32). -/
def execPcfgGmapUnmap : Ctl → SR → State → Host.Outcome State Fault Refusal := gmapOp State.gmapUnmap

end Sys2Proof.Machine
end

