-- ==== Sys2Proof/Machine/System.lean ====
section
/-! DEFINITION. Format registers (R264), CSR operations (R265, R266) with the rows of the CSRs whose write has an effect of its
own, TRAP and ERET (R269, R270). -/

namespace Sys2Proof.Machine

/-- `FMT` (R264, R240). -/
def execFmt (c : Ctl) (o : SF) : State → Host.Outcome State Fault Refusal :=
  scalarOp c fun s => s.putF o.fs.toNat (s.getX o.xa.toNat)

/-- `FMTRD` (R264, R240). -/
def execFmtrd (c : Ctl) (o : SF) : State → Host.Outcome State Fault Refusal :=
  scalarOp c fun s => s.putX o.xd.toNat (s.getF o.fs.toNat) c.lat.toNat

/-! ### CSR operations -/

/-- The checks of R266 and R378: assigned, writable, level, owner. (DEDUCED, log entry 75) -/
def csrCheck (n : Nat) (wr : Bool) : M Unit := do
  let s ← get
  match csrLevels n with
  | none => M.stop (.fault illegalSlot)
  | some (r, w) =>
    M.need (!(wr && w == .never)) (.fault illegalSlot)
    M.need (s.lvlOk r && (!wr || s.lvlOk w)) (.fault privilege)
    M.need (!(wr && s.watchForeign n)) (.fault privilege)

/-- A write of ATTREQ (R396): the security engine takes the request, and BUSY is set; while BUSY = 1 the write is ignored. -/
def State.attRequest (s : State) (v : Dword) : State :=
  if s.csrF 0xCF8 0 0 = 1 then s
  else { s.setCsr 0xCF8 1 with att := some ⟨s.die, s.core.asid, s.core.part, s.core.pl.toNat, v.toNat⟩ }

/-- What a write of a CSR does (R265): a write that would leave RWIN in a wrong state raises ILLEGAL_SLOT (R239); a write of
ATTREQ requests a report (R396). -/
def csrEffect (n : Nat) (v : Dword) : M Unit := do
  M.need (n != 0x002 || rwinOk v.toNat) (.fault illegalSlot)
  M.change fun s => if n = 0xCF8 then s.attRequest v else s.writeCsr n v

/-- XD := CSR, and CSR := f(CSR, XA), as one read and write (R265). -/
def csrOp (c : Ctl) (o : SC) (f : Dword → Dword → Dword) : State → Host.Outcome State Fault Refusal :=
  slotOp c do
    let n := o.csr.toNat
    csrCheck n true
    let s ← get
    let old := s.readCsr n
    csrEffect n (f old (s.getX o.xa.toNat))
    M.change (·.putX o.xd.toNat old 1)

/-- `CSRR` (R265). -/
def execCsrr (c : Ctl) (o : SC) : State → Host.Outcome State Fault Refusal :=
  slotOp c do
    csrCheck o.csr.toNat false
    M.change fun s => s.putX o.xd.toNat (s.readCsr o.csr.toNat) c.lat.toNat

/-- `CSRW` (R265). -/
def execCsrw (c : Ctl) (o : SC) : State → Host.Outcome State Fault Refusal := csrOp c o fun _ x => x

/-- `CSRS` (R265). -/
def execCsrs (c : Ctl) (o : SC) : State → Host.Outcome State Fault Refusal := csrOp c o fun v x => v ||| x

/-- `CSRC` (R265). -/
def execCsrc (c : Ctl) (o : SC) : State → Host.Outcome State Fault Refusal := csrOp c o fun v x => v &&& ~~~x

/-- A write of ATTREQ (R396). -/
def execAttreqWrite (c : Ctl) (o : SC) : State → Host.Outcome State Fault Refusal := csrOp c o fun _ x => x

/-- A write of CXLCAP (R418): every check that starts after it sees the new capacity. -/
def execCxlcapWrite (c : Ctl) (o : SC) : State → Host.Outcome State Fault Refusal := csrOp c o fun _ x => x

/-- A write of GFTBASE (R29). -/
def execGftbaseWrite (c : Ctl) (o : SC) : State → Host.Outcome State Fault Refusal := csrOp c o fun _ x => x

/-- A write of FABID (R414). -/
def execFabidWrite (c : Ctl) (o : SC) : State → Host.Outcome State Fault Refusal := csrOp c o fun _ x => x

/-- A write of HPASID (R47): FN is written at PL2 only. -/
def execHpasidWrite (c : Ctl) (o : SC) : State → Host.Outcome State Fault Refusal := csrOp c o fun _ x => x

/-- A write of ECCSTAT (R416): a 1 clears its bit. -/
def execEccstatWrite (c : Ctl) (o : SC) : State → Host.Outcome State Fault Refusal := csrOp c o fun _ x => x

/-- A write of MCLOG (R416): a 1 clears its bit. -/
def execMclogWrite (c : Ctl) (o : SC) : State → Host.Outcome State Fault Refusal := csrOp c o fun _ x => x

/-- A write of a watchpoint register (R378). -/
def execWatchpointWrite (c : Ctl) (o : SC) : State → Host.Outcome State Fault Refusal := csrOp c o fun _ x => x

/-! ### TRAP and ERET -/

/-- `TRAP` (R269): the entry follows the bundle's commit; without a handler the bundle does not commit. -/
def execTrap (c : Ctl) (o : ST) : State → Host.Outcome State Fault Refusal :=
  slotOp c do
    let s ← get
    M.need (s.core.pl.toNat != 2) (.fault illegalSlot)
    M.need (s.tvec (s.core.pl.toNat + 1) != 0) (.fault ⟨0x10, 0x1, 0, vaInfo 0 false true⟩)
    M.change (·.onIssue fun i => { i with after := .trap o.code })

/-- `ERET` (R270): the return follows the bundle's commit. -/
def execEret (c : Ctl) (_ : ST) : State → Host.Outcome State Fault Refusal :=
  slotOp c do
    let k := (← get).core
    M.need (k.pl.toNat != 0) (.fault privilege)
    M.need ((if k.pl.toNat = 1 then k.estat1 else k.estat2).getLsbD 2) (.fault illegalSlot)
    M.change (·.onIssue fun i => { i with after := .eret })

end Sys2Proof.Machine
end

