-- ==== Sys2Proof/Machine/Dispatch.lean ====
section
/-! DEFINITION. The executor: one arm for every row of the opcode table. -/

namespace Sys2Proof.Machine

/-- Carry out an operation or an event: each arm calls the meaning of its row. -/
def exec (i : Instr) (s : State) : Host.Outcome State Fault Refusal :=
  match i with
  | .nop => Sys2Proof.Machine.execNop s
  | .idle => Sys2Proof.Machine.execIdle s
  | .add c o => Sys2Proof.Machine.execAdd c o s
  | .sub c o => Sys2Proof.Machine.execSub c o s
  | .mul c o => Sys2Proof.Machine.execMul c o s
  | .mulh c o => Sys2Proof.Machine.execMulh c o s
  | .mulhu c o => Sys2Proof.Machine.execMulhu c o s
  | .div c o => Sys2Proof.Machine.execDiv c o s
  | .divu c o => Sys2Proof.Machine.execDivu c o s
  | .rem c o => Sys2Proof.Machine.execRem c o s
  | .remu c o => Sys2Proof.Machine.execRemu c o s
  | .and c o => Sys2Proof.Machine.execAnd c o s
  | .or c o => Sys2Proof.Machine.execOr c o s
  | .xor c o => Sys2Proof.Machine.execXor c o s
  | .shl c o => Sys2Proof.Machine.execShl c o s
  | .shr c o => Sys2Proof.Machine.execShr c o s
  | .sra c o => Sys2Proof.Machine.execSra c o s
  | .min c o => Sys2Proof.Machine.execMin c o s
  | .max c o => Sys2Proof.Machine.execMax c o s
  | .minu c o => Sys2Proof.Machine.execMinu c o s
  | .maxu c o => Sys2Proof.Machine.execMaxu c o s
  | .clz c o => Sys2Proof.Machine.execClz c o s
  | .ctz c o => Sys2Proof.Machine.execCtz c o s
  | .popc c o => Sys2Proof.Machine.execPopc c o s
  | .sel c o => Sys2Proof.Machine.execSel c o s
  | .addi c o => Sys2Proof.Machine.execAddi c o s
  | .andi c o => Sys2Proof.Machine.execAndi c o s
  | .ori c o => Sys2Proof.Machine.execOri c o s
  | .xori c o => Sys2Proof.Machine.execXori c o s
  | .shli c o => Sys2Proof.Machine.execShli c o s
  | .shri c o => Sys2Proof.Machine.execShri c o s
  | .srai c o => Sys2Proof.Machine.execSrai c o s
  | .bfx c o => Sys2Proof.Machine.execBfx c o s
  | .bfi c o => Sys2Proof.Machine.execBfi c o s
  | .li c o => Sys2Proof.Machine.execLi c o s
  | .lih c o => Sys2Proof.Machine.execLih c o s
  | .addpc c o => Sys2Proof.Machine.execAddpc c o s
  | .cmp c o => Sys2Proof.Machine.execCmp c o s
  | .cmpi c o => Sys2Proof.Machine.execCmpi c o s
  | .pand c o => Sys2Proof.Machine.execPand c o s
  | .por c o => Sys2Proof.Machine.execPor c o s
  | .pxor c o => Sys2Proof.Machine.execPxor c o s
  | .pnot c o => Sys2Proof.Machine.execPnot c o s
  | .pset c o => Sys2Proof.Machine.execPset c o s
  | .pget c o => Sys2Proof.Machine.execPget c o s
  | .br c o => Sys2Proof.Machine.execBr c o s
  | .jmp c o => Sys2Proof.Machine.execJmp c o s
  | .jmpx c o => Sys2Proof.Machine.execJmpx c o s
  | .call c o => Sys2Proof.Machine.execCall c o s
  | .callx c o => Sys2Proof.Machine.execCallx c o s
  | .ret c o => Sys2Proof.Machine.execRet c o s
  | .loopC c o => Sys2Proof.Machine.execLoopC c o s
  | .loopM c o => Sys2Proof.Machine.execLoopM c o s
  | .setlc c o => Sys2Proof.Machine.execSetlc c o s
  | .setsg c o => Sys2Proof.Machine.execSetsg c o s
  | .halt c o => Sys2Proof.Machine.execHalt c o s
  | .fmt c o => Sys2Proof.Machine.execFmt c o s
  | .fmtrd c o => Sys2Proof.Machine.execFmtrd c o s
  | .csrr c o => Sys2Proof.Machine.execCsrr c o s
  | .csrw c o => Sys2Proof.Machine.execCsrw c o s
  | .csrs c o => Sys2Proof.Machine.execCsrs c o s
  | .csrc c o => Sys2Proof.Machine.execCsrc c o s
  | .trap c o => Sys2Proof.Machine.execTrap c o s
  | .eret c o => Sys2Proof.Machine.execEret c o s
  | .mcld c o => Sys2Proof.Machine.execMcld c o s
  | .mcst c o => Sys2Proof.Machine.execMcst c o s
  | .kset c o => Sys2Proof.Machine.execKset c o s
  | .ringf c o => Sys2Proof.Machine.execRingf c o s
  | .dispatchResume c o => Sys2Proof.Machine.execDispatchResume c o s
  | .dispatchTerminate c o => Sys2Proof.Machine.execDispatchTerminate c o s
  | .dispatchContinue c o => Sys2Proof.Machine.execDispatchContinue c o s
  | .sigwaitHalt c o => Sys2Proof.Machine.execSigwaitHalt c o s
  | .sigwaitArm c o => Sys2Proof.Machine.execSigwaitArm c o s
  | .sigwaitTimeout core => Sys2Proof.Machine.execSigwaitTimeout core s
  | .tlbinvAsid c o => Sys2Proof.Machine.execTlbinvAsid c o s
  | .tlbinvPages c o => Sys2Proof.Machine.execTlbinvPages c o s
  | .tlbinvPartition c o => Sys2Proof.Machine.execTlbinvPartition c o s
  | .useal c o => Sys2Proof.Machine.execUseal c o s
  | .pcfgCreate c o => Sys2Proof.Machine.execPcfgCreate c o s
  | .pcfgQuotaGrant c o => Sys2Proof.Machine.execPcfgQuotaGrant c o s
  | .pcfgQuotaRevoke c o => Sys2Proof.Machine.execPcfgQuotaRevoke c o s
  | .pcfgCal c o => Sys2Proof.Machine.execPcfgCal c o s
  | .pcfgBand c o => Sys2Proof.Machine.execPcfgBand c o s
  | .pcfgSlice c o => Sys2Proof.Machine.execPcfgSlice c o s
  | .pcfgStateDrain c o => Sys2Proof.Machine.execPcfgStateDrain c o s
  | .pcfgStateScrub c o => Sys2Proof.Machine.execPcfgStateScrub c o s
  | .pcfgStateRelease c o => Sys2Proof.Machine.execPcfgStateRelease c o s
  | .pcfgStateActive c o => Sys2Proof.Machine.execPcfgStateActive c o s
  | .pcfgGmapMap c o => Sys2Proof.Machine.execPcfgGmapMap c o s
  | .pcfgGmapUnmap c o => Sys2Proof.Machine.execPcfgGmapUnmap c o s
  | .pcfgDestroy c o => Sys2Proof.Machine.execPcfgDestroy c o s
  | .ldb c o => Sys2Proof.Machine.execLdb c o s
  | .ldbu c o => Sys2Proof.Machine.execLdbu c o s
  | .ldh c o => Sys2Proof.Machine.execLdh c o s
  | .ldhu c o => Sys2Proof.Machine.execLdhu c o s
  | .ldw c o => Sys2Proof.Machine.execLdw c o s
  | .ldwu c o => Sys2Proof.Machine.execLdwu c o s
  | .ldd c o => Sys2Proof.Machine.execLdd c o s
  | .stb c o => Sys2Proof.Machine.execStb c o s
  | .sth c o => Sys2Proof.Machine.execSth c o s
  | .stw c o => Sys2Proof.Machine.execStw c o s
  | .std c o => Sys2Proof.Machine.execStd c o s
  | .stnt c o => Sys2Proof.Machine.execStnt c o s
  | .fence c o => Sys2Proof.Machine.execFence c o s
  | .drainnt c o => Sys2Proof.Machine.execDrainnt c o s
  | .amo c o => Sys2Proof.Machine.execAmo c o s
  | .cas c o => Sys2Proof.Machine.execCas c o s
  | .red c o => Sys2Proof.Machine.execRed c o s
  | .waita c o => Sys2Proof.Machine.execWaita c o s
  | .waitaWake core => Sys2Proof.Machine.execWaitaWake core s
  | .enq c o => Sys2Proof.Machine.execEnq c o s
  | .exit c o => Sys2Proof.Machine.execExit c o s
  | .exitS c o => Sys2Proof.Machine.execExitS c o s
  | .barArr c o => Sys2Proof.Machine.execBarArr c o s
  | .barWait c o => Sys2Proof.Machine.execBarWait c o s
  | .barTry c o => Sys2Proof.Machine.execBarTry c o s
  | .barrierPhaseComplete mcid lvl dom => Sys2Proof.Machine.execBarrierPhaseComplete mcid lvl dom s
  | .vfadd c o => Sys2Proof.Machine.execVfadd c o s
  | .vfsub c o => Sys2Proof.Machine.execVfsub c o s
  | .vfmul c o => Sys2Proof.Machine.execVfmul c o s
  | .vfma c o => Sys2Proof.Machine.execVfma c o s
  | .vfms c o => Sys2Proof.Machine.execVfms c o s
  | .vfnma c o => Sys2Proof.Machine.execVfnma c o s
  | .vfmin c o => Sys2Proof.Machine.execVfmin c o s
  | .vfmax c o => Sys2Proof.Machine.execVfmax c o s
  | .vfabs c o => Sys2Proof.Machine.execVfabs c o s
  | .vfneg c o => Sys2Proof.Machine.execVfneg c o s
  | .vfcmp c o => Sys2Proof.Machine.execVfcmp c o s
  | .vhaddBf16 c o => Sys2Proof.Machine.execVhaddBf16 c o s
  | .vhaddF16 c o => Sys2Proof.Machine.execVhaddF16 c o s
  | .vhmulBf16 c o => Sys2Proof.Machine.execVhmulBf16 c o s
  | .vhmulF16 c o => Sys2Proof.Machine.execVhmulF16 c o s
  | .vhfmaBf16 c o => Sys2Proof.Machine.execVhfmaBf16 c o s
  | .vhfmaF16 c o => Sys2Proof.Machine.execVhfmaF16 c o s
  | .vadd c o => Sys2Proof.Machine.execVadd c o s
  | .vsub c o => Sys2Proof.Machine.execVsub c o s
  | .vmul c o => Sys2Proof.Machine.execVmul c o s
  | .vmulh c o => Sys2Proof.Machine.execVmulh c o s
  | .vadds c o => Sys2Proof.Machine.execVadds c o s
  | .vsubs c o => Sys2Proof.Machine.execVsubs c o s
  | .vmin c o => Sys2Proof.Machine.execVmin c o s
  | .vmax c o => Sys2Proof.Machine.execVmax c o s
  | .vminu c o => Sys2Proof.Machine.execVminu c o s
  | .vmaxu c o => Sys2Proof.Machine.execVmaxu c o s
  | .vand c o => Sys2Proof.Machine.execVand c o s
  | .vor c o => Sys2Proof.Machine.execVor c o s
  | .vxor c o => Sys2Proof.Machine.execVxor c o s
  | .vshl c o => Sys2Proof.Machine.execVshl c o s
  | .vshr c o => Sys2Proof.Machine.execVshr c o s
  | .vsra c o => Sys2Proof.Machine.execVsra c o s
  | .vcmp c o => Sys2Proof.Machine.execVcmp c o s
  | .vabs c o => Sys2Proof.Machine.execVabs c o s
  | .vdot4SS c o => Sys2Proof.Machine.execVdot4SS c o s
  | .vdot4SU c o => Sys2Proof.Machine.execVdot4SU c o s
  | .vdot4US c o => Sys2Proof.Machine.execVdot4US c o s
  | .vdot4UU c o => Sys2Proof.Machine.execVdot4UU c o s
  | .vdot4sSS c o => Sys2Proof.Machine.execVdot4sSS c o s
  | .vdot4sSU c o => Sys2Proof.Machine.execVdot4sSU c o s
  | .vdot4sUS c o => Sys2Proof.Machine.execVdot4sUS c o s
  | .vdot4sUU c o => Sys2Proof.Machine.execVdot4sUU c o s
  | .vdot8SS c o => Sys2Proof.Machine.execVdot8SS c o s
  | .vdot8SU c o => Sys2Proof.Machine.execVdot8SU c o s
  | .vdot8US c o => Sys2Proof.Machine.execVdot8US c o s
  | .vdot8UU c o => Sys2Proof.Machine.execVdot8UU c o s
  | .vdot8sSS c o => Sys2Proof.Machine.execVdot8sSS c o s
  | .vdot8sSU c o => Sys2Proof.Machine.execVdot8sSU c o s
  | .vdot8sUS c o => Sys2Proof.Machine.execVdot8sUS c o s
  | .vdot8sUU c o => Sys2Proof.Machine.execVdot8sUU c o s
  | .vexp2 c o => Sys2Proof.Machine.execVexp2 c o s
  | .vlog2 c o => Sys2Proof.Machine.execVlog2 c o s
  | .vrcp c o => Sys2Proof.Machine.execVrcp c o s
  | .vrsq c o => Sys2Proof.Machine.execVrsq c o s
  | .vtanh c o => Sys2Proof.Machine.execVtanh c o s
  | .vsigm c o => Sys2Proof.Machine.execVsigm c o s
  | .vrand c o => Sys2Proof.Machine.execVrand c o s
  | .vcvtF32Int c o => Sys2Proof.Machine.execVcvtF32Int c o s
  | .vcvtF32Uint c o => Sys2Proof.Machine.execVcvtF32Uint c o s
  | .vcvtIntF32 c o => Sys2Proof.Machine.execVcvtIntF32 c o s
  | .vcvtIntF32Rtz c o => Sys2Proof.Machine.execVcvtIntF32Rtz c o s
  | .vcvtUintF32 c o => Sys2Proof.Machine.execVcvtUintF32 c o s
  | .vcvtUintF32Rtz c o => Sys2Proof.Machine.execVcvtUintF32Rtz c o s
  | .vcvtBf16F32 c o => Sys2Proof.Machine.execVcvtBf16F32 c o s
  | .vcvtBf16F32Rtz c o => Sys2Proof.Machine.execVcvtBf16F32Rtz c o s
  | .vcvtF16F32 c o => Sys2Proof.Machine.execVcvtF16F32 c o s
  | .vcvtF16F32Rtz c o => Sys2Proof.Machine.execVcvtF16F32Rtz c o s
  | .vcvtF32Bf16 c o => Sys2Proof.Machine.execVcvtF32Bf16 c o s
  | .vcvtF32F16 c o => Sys2Proof.Machine.execVcvtF32F16 c o s
  | .vqnt c o => Sys2Proof.Machine.execVqnt c o s
  | .vdqnt c o => Sys2Proof.Machine.execVdqnt c o s
  | .vscl c o => Sys2Proof.Machine.execVscl c o s
  | .vsel c o => Sys2Proof.Machine.execVsel c o s
  | .vmov c o => Sys2Proof.Machine.execVmov c o s
  | .vmovi c o => Sys2Proof.Machine.execVmovi c o s
  | .vbcast c o => Sys2Proof.Machine.execVbcast c o s
  | .vextr c o => Sys2Proof.Machine.execVextr c o s
  | .vins c o => Sys2Proof.Machine.execVins c o s
  | .vperm c o => Sys2Proof.Machine.execVperm c o s
  | .vxcl c o => Sys2Proof.Machine.execVxcl c o s
  | .vxclX c o => Sys2Proof.Machine.execVxclX c o s
  | .vld c o => Sys2Proof.Machine.execVld c o s
  | .vst c o => Sys2Proof.Machine.execVst c o s
  | .vgath c o => Sys2Proof.Machine.execVgath c o s
  | .vscat c o => Sys2Proof.Machine.execVscat c o s
  | .mma c o => Sys2Proof.Machine.execMma c o s
  | .mmas c o => Sys2Proof.Machine.execMmas c o s
  | .mmat c o => Sys2Proof.Machine.execMmat c o s
  | .mmav c o => Sys2Proof.Machine.execMmav c o s
  | .mred c o => Sys2Proof.Machine.execMred c o s
  | .mscan c o => Sys2Proof.Machine.execMscan c o s
  | .mld c o => Sys2Proof.Machine.execMld c o s
  | .mst c o => Sys2Proof.Machine.execMst c o s
  | .mzero c o => Sys2Proof.Machine.execMzero c o s
  | .madd c o => Sys2Proof.Machine.execMadd c o s
  | .mcopy c o => Sys2Proof.Machine.execMcopy c o s
  | .mxpose c o => Sys2Proof.Machine.execMxpose c o s
  | .mscale c o => Sys2Proof.Machine.execMscale c o s
  | .mrmax c o => Sys2Proof.Machine.execMrmax c o s
  | .kvnew c o => Sys2Proof.Machine.execKvnew c o s
  | .kvapp c o => Sys2Proof.Machine.execKvapp c o s
  | .kvtrunc c o => Sys2Proof.Machine.execKvtrunc c o s
  | .kvfork c o => Sys2Proof.Machine.execKvfork c o s
  | .kvfree c o => Sys2Proof.Machine.execKvfree c o s
  | .kvrackRack c o => Sys2Proof.Machine.execKvrackRack c o s
  | .kvrackPooladd c o => Sys2Proof.Machine.execKvrackPooladd c o s
  | .kvrackPooltake c o => Sys2Proof.Machine.execKvrackPooltake c o s
  | .kvbind c o => Sys2Proof.Machine.execKvbind c o s
  | .kvqry c o => Sys2Proof.Machine.execKvqry c o s
  | .sbind c o => Sys2Proof.Machine.execSbind c o s
  | .sbindg c o => Sys2Proof.Machine.execSbindg c o s
  | .sunbind c o => Sys2Proof.Machine.execSunbind c o s
  | .sflush c o => Sys2Proof.Machine.execSflush c o s
  | .cpy c o => Sys2Proof.Machine.execCpy c o s
  | .cpy2d c o => Sys2Proof.Machine.execCpy2d c o s
  | .mcstMulticast c o => Sys2Proof.Machine.execMcstMulticast c o s
  | .spmap c o => Sys2Proof.Machine.execSpmap c o s
  | .spmapUnmap c o => Sys2Proof.Machine.execSpmapUnmap c o s
  | .spsync c o => Sys2Proof.Machine.execSpsync c o s
  | .spinv c o => Sys2Proof.Machine.execSpinv c o s
  | .migrMove c o => Sys2Proof.Machine.execMigrMove c o s
  | .migrFetch c o => Sys2Proof.Machine.execMigrFetch c o s
  | .migrFlush c o => Sys2Proof.Machine.execMigrFlush c o s
  | .migrPooladd c o => Sys2Proof.Machine.execMigrPooladd c o s
  | .migrPooltake c o => Sys2Proof.Machine.execMigrPooltake c o s
  | .cred c o => Sys2Proof.Machine.execCred c o s
  | .cbcast c o => Sys2Proof.Machine.execCbcast c o s
  | .pageWalk asid va acc => Sys2Proof.Machine.execPageWalk asid va acc s
  | .kvWalk core strm => Sys2Proof.Machine.execKvWalk core strm s
  | .pinWaitRelease core strm => Sys2Proof.Machine.execPinWaitRelease core strm s
  | .kvwaitExpire h => Sys2Proof.Machine.execKvwaitExpire h s
  | .steepwaitExpire h => Sys2Proof.Machine.execSteepwaitExpire h s
  | .rackBlockMove die readFails => Sys2Proof.Machine.execRackBlockMove die readFails s
  | .blockRelease gbn => Sys2Proof.Machine.execBlockRelease gbn s
  | .remoteKvResolve peer part gbn => Sys2Proof.Machine.execRemoteKvResolve peer part gbn s
  | .remoteDecrement peer gbn => Sys2Proof.Machine.execRemoteDecrement peer gbn s
  | .kvStreamPrefetch core strm => Sys2Proof.Machine.execKvStreamPrefetch core strm s
  | .streamPrefetch core strm => Sys2Proof.Machine.execStreamPrefetch core strm s
  | .steepEntry mcid => Sys2Proof.Machine.execSteepEntry mcid s
  | .steepFetchComplete mcid ent readFails peerData => Sys2Proof.Machine.execSteepFetchComplete mcid ent readFails peerData s
  | .migrPageComplete cmd ioError => Sys2Proof.Machine.execMigrPageComplete cmd ioError s
  | .granuleFill core map gran => Sys2Proof.Machine.execGranuleFill core map gran s
  | .backgroundBankTake core bank => Sys2Proof.Machine.execBackgroundBankTake core bank s
  | .commandCompletion cmd => Sys2Proof.Machine.execCommandCompletion cmd s
  | .regionHoldExpire core => Sys2Proof.Machine.execRegionHoldExpire core s
  | .push src part pkt => Sys2Proof.Machine.execPush src part pkt s
  | .scanStep die => Sys2Proof.Machine.execScanStep die s
  | .hitch mcid => Sys2Proof.Machine.execHitch mcid s
  | .jobLaunch mcid => Sys2Proof.Machine.execJobLaunch mcid s
  | .launch mcid => Sys2Proof.Machine.execLaunch mcid s
  | .taskStop core => Sys2Proof.Machine.execTaskStop core s
  | .rollback core => Sys2Proof.Machine.execRollback core s
  | .groupSwapOut mcid grp => Sys2Proof.Machine.execGroupSwapOut mcid grp s
  | .spillImage mcid grp => Sys2Proof.Machine.execSpillImage mcid grp s
  | .groupPark mcid grp => Sys2Proof.Machine.execGroupPark mcid grp s
  | .parkConditionClear mcid grp => Sys2Proof.Machine.execParkConditionClear mcid grp s
  | .taskTerminate core cause => Sys2Proof.Machine.execTaskTerminate core cause s
  | .uncorrectable core pa => Sys2Proof.Machine.execUncorrectable core pa s
  | .poison pa => Sys2Proof.Machine.execPoison pa s
  | .softErrorCorrect => Sys2Proof.Machine.execSoftErrorCorrect s
  | .patrolScrub line => Sys2Proof.Machine.execPatrolScrub line s
  | .linkDown link => Sys2Proof.Machine.execLinkDown link s
  | .linkRestore link => Sys2Proof.Machine.execLinkRestore link s
  | .peerAccess peer part op va data ep => Sys2Proof.Machine.execPeerAccess peer part op va data ep s
  | .peerEnq peer part pkt => Sys2Proof.Machine.execPeerEnq peer part pkt s
  | .crpIngress port frame => Sys2Proof.Machine.execCrpIngress port frame s
  | .rawFrameReceive port frame => Sys2Proof.Machine.execRawFrameReceive port frame s
  | .crpEgress cmd => Sys2Proof.Machine.execCrpEgress cmd s
  | .returnSlotExpire die slot => Sys2Proof.Machine.execReturnSlotExpire die slot s
  | .notifyWrite fn mcid value => Sys2Proof.Machine.execNotifyWrite fn mcid value s
  | .ringFetch die mcid => Sys2Proof.Machine.execRingFetch die mcid s
  | .atsCompletion die fn pasid page res => Sys2Proof.Machine.execAtsCompletion die fn pasid page res s
  | .prgResponse fn pasid page res => Sys2Proof.Machine.execPrgResponse fn pasid page res s
  | .atsInvalidation fn pasid page pages => Sys2Proof.Machine.execAtsInvalidation fn pasid page pages s
  | .hostWrite fn pa data ep => Sys2Proof.Machine.execHostWrite fn pa data ep s
  | .vfFlr fn => Sys2Proof.Machine.execVfFlr fn s
  | .frameBoundary => Sys2Proof.Machine.execFrameBoundary s
  | .calendarSlot cls unit waiting => Sys2Proof.Machine.execCalendarSlot cls unit waiting s
  | .sliceEnd mcid grp => Sys2Proof.Machine.execSliceEnd mcid grp s
  | .drainComplete part => Sys2Proof.Machine.execDrainComplete part s
  | .scrubComplete part => Sys2Proof.Machine.execScrubComplete part s
  | .usageSeal part => Sys2Proof.Machine.execUsageSeal part s
  | .attreqWrite c o => Sys2Proof.Machine.execAttreqWrite c o s
  | .cxlcapWrite c o => Sys2Proof.Machine.execCxlcapWrite c o s
  | .gftbaseWrite c o => Sys2Proof.Machine.execGftbaseWrite c o s
  | .fabidWrite c o => Sys2Proof.Machine.execFabidWrite c o s
  | .hpasidWrite c o => Sys2Proof.Machine.execHpasidWrite c o s
  | .eccstatWrite c o => Sys2Proof.Machine.execEccstatWrite c o s
  | .mclogWrite c o => Sys2Proof.Machine.execMclogWrite c o s
  | .watchpointWrite c o => Sys2Proof.Machine.execWatchpointWrite c o s
  | .watch core va => Sys2Proof.Machine.execWatch core va s
  | .watchev kind who writerMc pa data => Sys2Proof.Machine.execWatchev kind who writerMc pa data s
  | .bringUp boot => Sys2Proof.Machine.execBringUp boot s
  | .thermtrip => Sys2Proof.Machine.execThermtrip s
  | .perstAssert => Sys2Proof.Machine.execPerstAssert s
  | .peerAcknowledgement req ok ep data => Sys2Proof.Machine.execPeerAcknowledgement req ok ep data s
  | .hostCompletion req data => Sys2Proof.Machine.execHostCompletion req data s

end Sys2Proof.Machine
end

