-- ==== Sys2Proof/Machine/Resolve.lean ====
section
/-! DEFINITION. The rows of the opcode table that share an opcode: which of them an operation is, by what its registers, its parameter
block or its descriptor hold as it issues (R275 to R277, R279, R352). The rows of `KVRACK` and of `MIGR` are told apart by the engine that
carries the command out, and those of `CSRW` by the number of the CSR: their issue is one. -/

namespace Sys2Proof.Machine

/-- The value of `xa` and of `xb` of an operation of format SR. -/
def State.xaOf (s : State) (o : SR) : Nat := (s.getX o.xa.toNat).toNat
/-- See `State.xaOf`. -/
def State.xbOf (s : State) (o : SR) : Nat := (s.getX o.xb.toNat).toNat

/-- The parameter block of a `PCFG` as the operation reads it, after its fence (R271, R279): so the row that is chosen is the one that the
operation's own read of the block names. Where the block cannot be read, every row faults or waits alike. -/
def State.peekBlock (s : State) (o : SR) : Nat :=
  match loadBytes (s.xbOf o) 64 (s.endRegion.fullFence 3) with
  | .ok (bs, _) => ofBytes bs
  | .error _ => 0

/-- The rows of `DISPATCH`, by ACTION (R275). -/
def runDispatch (c : Ctl) (o : SR) (s : State) : Host.Outcome State Fault Refusal :=
  match bits (s.xbOf o) 1 0 with
  | 1 => execDispatchTerminate c o s
  | 2 => execDispatchContinue c o s
  | _ => execDispatchResume c o s

/-- The rows of `SIGWAIT`, by HALT (R276). -/
def runSigwait (c : Ctl) (o : SR) (s : State) : Host.Outcome State Fault Refusal :=
  if bit (s.xbOf o) 0 then execSigwaitHalt c o s else execSigwaitArm c o s

/-- The rows of `TLBINV`, by MODE (R277). -/
def runTlbinv (c : Ctl) (o : SR) (s : State) : Host.Outcome State Fault Refusal :=
  match bits (s.xaOf o) 11 10 with
  | 1 => execTlbinvPages c o s
  | 2 => execTlbinvPartition c o s
  | _ => execTlbinvAsid c o s

/-- The rows of `PCFG` STATE, by PHASE (R382). -/
def runPcfgState (c : Ctl) (o : SR) (s : State) : Host.Outcome State Fault Refusal :=
  match bits (s.peekBlock o) 10 8 with
  | 0 => execPcfgStateActive c o s
  | 3 => execPcfgStateScrub c o s
  | 5 => execPcfgStateRelease c o s
  | _ => execPcfgStateDrain c o s

/-- The rows of `PCFG`, by sub-operation (R279). -/
def runPcfg (c : Ctl) (o : SR) (s : State) : Host.Outcome State Fault Refusal :=
  match bits (s.xaOf o) 3 0 with
  | 1 => if bit (s.peekBlock o) 8 then execPcfgQuotaRevoke c o s else execPcfgQuotaGrant c o s
  | 2 => execPcfgCal c o s
  | 3 => execPcfgBand c o s
  | 4 => execPcfgSlice c o s
  | 5 => runPcfgState c o s
  | 6 => if bit (s.peekBlock o) 318 then execPcfgGmapUnmap c o s else execPcfgGmapMap c o s
  | 7 => execPcfgDestroy c o s
  | _ => execPcfgCreate c o s

/-- The rows of `SPMAP`, by UNMAP of the descriptor (R352). -/
def runSpmap (c : Ctl) (o : CK) (s : State) : Host.Outcome State Fault Refusal :=
  match readDesc (s.ckCursor o) with
  | .ok (d, _) => if bit d 116 then execSpmapUnmap c o s else execSpmap c o s
  | .error _ => execSpmap c o s

/-- Carry out a decoded operation: the row that it is. -/
def runOp (i : Instr) (s : State) : Host.Outcome State Fault Refusal :=
  match i with
  | .dispatchResume c o => runDispatch c o s
  | .sigwaitHalt c o => runSigwait c o s
  | .tlbinvAsid c o => runTlbinv c o s
  | .pcfgCreate c o => runPcfg c o s
  | .spmap c o => runSpmap c o s
  | i => exec i s

end Sys2Proof.Machine
end

