-- ==== Sys2Proof/Machine/Step.lean ====
section
/-! DEFINITION. One step of the package: one agent moves, or the outside does something. `turns` says which; where it is empty the
agents that have work move by turns of the step counter, and frames end as their cycles run out (R119, R195). Then the placing of one
bundle where the next step fetches. -/

namespace Sys2Proof.Machine

/-- The end of a move: what bring-up has settled stands until the next reset, whatever has moved (R413), and the device's writes that a watchpoint
names are reported (R378). -/
def keepBoot (b : Boot) : Host.Outcome State Fault Refusal → Host.Outcome State Fault Refusal
  | .next t => .next { t.reportTouched with boot := b }
  | o => o

/-- One issue of a running core (R228): a cycle of the frame passes. While PERST# is asserted every core is held (R413). -/
def State.moveCore (n : Nat) (s : State) : Host.Outcome State Fault Refusal :=
  if s.boot.inReset ∨ (s.coreAt n).run ≠ .running then .next s
  else keepBoot s.boot ({ s with cur := n, cycle := min 2047 (s.cycle + 1) }.issue runOp)

/-- What happens although PERST# is asserted (R413). -/
def Instr.inReset : Instr → Bool
  | .bringUp _ => true
  | .perstAssert => true
  | .thermtrip => true
  | _ => false

/-- Does a task that is asked to stop stop now at a safe point (R369)? -/
def State.stopsSafely (n : Nat) (s : State) : Bool :=
  let s := { s with cur := n }
  s.core.run == .running && s.core.preq.any (· != .fault) &&
    match fetchBundle s with
    | .ok ((h, _), s1) => s1.atSafe h
    | .error _ => false

/-- A task that is asked to stop stops where one of the points of R369 holds; at a safe point its issue settles it: where that faults the
fault is taken (R372). -/
def State.moveStop (n : Nat) (s : State) : Host.Outcome State Fault Refusal :=
  if s.stopsSafely n then State.moveCore n s else keepBoot s.boot (execTaskStop n s)

/-- A row of the opcode table that is no operation of a slot happens. -/
def State.moveEvent (e : Instr) (s : State) : Host.Outcome State Fault Refusal :=
  if e.cls ≠ none ∨ (s.boot.inReset ∧ !Instr.inReset e) then .next s
  else if Instr.inReset e then exec e s
  else match e with
    | .taskStop n => State.moveStop n s
    | e => keepBoot s.boot (exec e s)

/-- The outside does something that is no row of the table; not while PERST# is asserted, but BOOTSTAT can be read after a bring-up that has
failed (R413). -/
def State.moveOutside (o : Outside) (s : State) : Host.Outcome State Fault Refusal :=
  if s.boot.inReset ∧ !(o = .bootRead ∧ s.boot.fail) then .next s else keepBoot s.boot (.next (s.outsideMove o))

/-- An agent's move. -/
abbrev Move1 := State → Host.Outcome State Fault Refusal

/-- The agents of the package that have work: cores, engines, the units of dispatch, of the rings and of the security engine. What only the
outside or time brings about is no agent. -/
def State.agents (s : State) : List Move1 :=
  ((s.cores.filter fun e => e.2.run == .running).map fun e => State.moveCore e.1) ++
  ((s.cores.filter fun e => e.2.preq.isSome).map fun e => State.moveStop e.1) ++
  (s.cmds.map fun (c : Cmd) => execCommandCompletion c.id) ++
  (((List.range 4).filter fun d => s.scanPick d != .nothing || s.back.any fun b => b.die == d).map execScanStep) ++
  (s.plans.map fun (p : HitchPlan) => execJobLaunch p.mcid) ++
  (s.allGroups.map fun g => execGroupSwapOut g.1 g.2) ++
  (s.allGroups.map fun g => execGroupPark g.1 g.2) ++
  ((s.images.filter fun i => !i.spilled).map fun (i : Image) => execSpillImage i.mcid i.core.grp) ++
  (s.steeps.map fun (t : Steep) => execSteepEntry t.mcid) ++
  ((List.range 4).filter (fun d => (s.racks.any fun r => r.die == d) || s.moves.any fun m => m.cmd.isNone && m.gbn % 4 == d) |>.map
    fun d => execRackBlockMove d false) ++
  ((s.ringPend.filter fun e => !s.ringHeld e.1).map fun e => execRingFetch (e.1 / 4096) e.1) ++
  ((s.images.filter fun i => i.wbs != []).map fun (i : Image) t => .next (t.settleWbs i.mcid i.rank)) ++
  (((List.range 17).filter fun p => decide ((s.sealOf p).due ≤ s.frame) && (p == 16 || s.partExists p)).map execUsageSeal) ++
  (((List.range 16).filter fun p => s.phase p == 3).map execScrubComplete) ++
  (if s.att.isSome then [State.attMove] else [])

/-- What happens where `turns` is empty: the end of the frame, when its cycles are over or no agent has work; else the move of one.
(DESIGN CHOICE, log entry 2) -/
def State.idleStep (s : State) : Host.Outcome State Fault Refusal :=
  if s.boot.inReset then .next s
  else if s.cycle = 2047 then keepBoot s.boot (execFrameBoundary s)
  else
    let l := s.agents
    match l[s.tick % l.length]? with
    | some m => keepBoot s.boot (m { s with cycle := s.cycle + 1 })
    | none => keepBoot s.boot (execFrameBoundary s)

/-- One step. (DESIGN CHOICE, log entries 1, 2) -/
def step (s : State) : Host.Outcome State Fault Refusal :=
  let s := { s with tick := s.tick + 1 }
  match s.turns with
  | [] => s.idleStep
  | .core n :: ts => State.moveCore n { s with turns := ts }
  | .event e :: ts => State.moveEvent e { s with turns := ts }
  | .outside o :: ts => State.moveOutside o { s with turns := ts }

/-! ### Placing a bundle -/

/-- The memory of a root program of one page at VA 0: page tables and the bundle, in the stacked SRAM (R12, R16). -/
def State.placeCode (s : State) (bundle : Nat) : State :=
  let s := s.wr 0x400000200000 (0x400000208000 + 1) 8
  let s := s.wr 0x400000208000 (0x400000210000 + 1) 8
  let s := s.wr 0x400000210000 (0x400000220000 + 0x67) 8
  s.wr 0x400000220000 bundle 52

/-- The machine about to fetch a bundle whose bits are those of `w`: the root is launched on core 63 of CD3 as bring-up launches it (R413 step 5),
its program at VA 0 is the bundle, and that core moves next. -/
def State.withFetchWord (s : State) (nbits w : Nat) : State :=
  let s := { s with turns := .core 255 :: s.turns, jobs := s.jobs.filter (·.mcid ≠ 0),
                    grants := s.grants.filter (· ≠ (⟨16, 0, 255, 1, 0⟩ : Grant)), tlb := [] }
  (s.launchRoot 255 0x400000000000 0x400000200000 0).placeCode (w % 2 ^ nbits)

end Sys2Proof.Machine
end

