-- ==== Sys2Proof/Safety.lean ====
section
/-! DEFINITION. What claims are stated with: what a step answers, and the invariants of the machine. -/

namespace Sys2Proof.Safety

open Sys2Proof.Machine

/-- An outcome is a next state of which something holds. -/
def Answers (o : Host.Outcome State Fault Refusal) (p : State → Prop) : Prop := ∃ t, o = .next t ∧ p t

/-- A run of `n` steps meets no fault and no refusal: the machine reaches no physical address that is no frame on its own. -/
def SafeFor : Nat → State → Prop
  | 0, _ => True
  | n + 1, s => ∃ t, step s = .next t ∧ SafeFor n t

/-! ### What registers hold -/

/-- What a register holds at issue `n` if nothing more is written: every write in flight whose bound has come by then has landed
(R232, R233). -/
def regAt (s : State) (f : RegFile) (r n : Nat) : BitVec 4096 := (s.core.land n).landed f r

/-- An x register; x0 reads zero (R238). -/
def xAt (s : State) (r n : Nat) : Dword := if r = 0 then 0 else (regAt s .x r n).setWidth 64

/-- A predicate register; p0 reads all ones (R238). -/
def pAt (s : State) (r n : Nat) : Pred := if r = 0 then BitVec.allOnes 128 else (regAt s .p r n).setWidth 128

/-- A vector register, by its logical number (R239). -/
def vAt (s : State) (i n : Nat) : Vec := regAt s .v (s.core.physV i) n

/-- Of the executing core nothing but the writes in flight and the record of the issue differs, and of the package nothing but that
core: memory, CSRs, streams, the PC and every other core are as they were. -/
def CoreOnly (s t : State) : Prop := t = s.setCoreAt s.cur { s.core with pend := t.core.pend, issue := t.core.issue }

/-- Nothing but one register is written. -/
def OnlyReg (s t : State) (f : RegFile) (r : Nat) : Prop :=
  CoreOnly s t ∧ t.core.issue = { s.core.issue with dests := t.core.issue.dests } ∧
  ∀ f' r', (f', r') ≠ (f, r) → ∀ n, regAt t f' r' n = regAt s f' r' n

/-- An x register is written with a value that shows from issue `n` on, and nothing else; a write to x0 is discarded (R232, R238). -/
def WroteX (s t : State) (r : Nat) (v : Dword) (n : Nat) : Prop :=
  if r = 0 then t = s else (∀ m, n ≤ m → xAt t r m = v) ∧ OnlyReg s t .x r

/-- A predicate register is written whole; a write to p0 is discarded (R232, R238). -/
def WroteP (s t : State) (r : Nat) (v : Pred) (n : Nat) : Prop :=
  if r = 0 then t = s else (∀ m, n ≤ m → pAt t r m = v) ∧ OnlyReg s t .p r

/-- An operation answers a next state that differs by the write of an x register with its bound. -/
def Writes (i : Instr) (s : State) (xd : BitVec 6) (v : Dword) (lat : Nat) : Prop :=
  Answers (exec i s) fun t => WroteX s t xd.toNat v (s.core.issueNo + lat)

/-- An operation answers a next state that differs by the write of a predicate register with its bound. -/
def WritesP (i : Instr) (s : State) (pd : BitVec 6) (v : Pred) (lat : Nat) : Prop :=
  Answers (exec i s) fun t => WroteP s t pd.toNat v (s.core.issueNo + lat)

/-- The executing slot's operation meets a fault condition, and nothing else changes: the fault is taken at the end of the issue
(R358). -/
def Faults (i : Instr) (s : State) (fi : FaultInfo) : Prop := exec i s = .next (s.recFault fi [])

/-- A privileged operation ends in `t` with a result word in XD: a status and a result, after the fence that follows it (R271). -/
def Results (i : Instr) (s : State) (xd : BitVec 6) (t : State) (st r : Nat) : Prop :=
  exec i s = .next ((t.fullFence 3).putX xd.toNat (BitVec.ofNat 64 (st + 2 ^ 8 * r)) 1)

/-- The executing core at the start of an issue of a bundle: what is due has landed, the bundle's words have armed their slots, and
the record of the issue is empty (R228, R229, R232). -/
def opened (s : State) (h : Header) (bundle : Nat) : State :=
  s.onCore fun k =>
    { ((k.landChunks k.fetchCycle).land k.issueNo).arm (decodeSlots h.pm bundle) with
        issue := { Issue.none with nextPc := k.pc + BitVec.ofNat 52 (bundleLen h.pm), rng := k.rng, y := k.y, given := k.issue.given, woken := k.issue.woken } }

/-! ### The host window -/

/-- What an access of the executing task asks for that sends a read (`kind` 3) or an AtomicOp to the host: its own stores to those bytes that are not
sent yet go first (R118), the translation is used (R50), and the request is sent (R141). -/
def hostPosts (s : State) (fn pasid addr xaddr n kind : Nat) (a b : Dword) (key : Nat) : List Post :=
  (if s.cur < 256 ∧ s.core.owesHost fn pasid addr n = true then [.hostOut] else []) ++
    [.priUsed fn pasid (addr / 4096) (if s.cur < 256 then s.asker else s.cur), .host s.cur fn pasid addr xaddr n kind a b key]

/-- The host request that is out for an access of the executing task. -/
def askedHost (s : State) (key : Nat) : Option HostReq := s.hostReqs.find? fun q => q.core = s.cur ∧ q.key = key

/-! ### Vector operands and results -/

/-- A source operand reads `v` and leaves the state `t`: a live vector register; a stream, which pops; the bypass history; a
broadcast (R224, R231, R236). -/
def Reads (s : State) (f : BitVec 9) (v : Vec) (t : State) : Prop :=
  match srcCls f with
  | 0 => s.isFreed (srcIdx f) = false ∧ v = s.getV (srcIdx f) ∧ t = s
  | 1 => popStream (srcIdx f) s = .ok (v, t)
  | 2 => v = s.getY (srcIdx f) ∧ t = s
  | _ => (∀ i, i < 128 → lane v i = (s.getX (srcIdx f)).setWidth 32) ∧ t = s

/-- The lanes of `m` of a result go to a destination: a vector register; a stream, which is pushed; none (R225, R226, R231). -/
def Delivers (s : State) (d : BitVec 8) (v : Vec) (m : Pred) (lat : Nat) (t : State) : Prop :=
  match dstCls d with
  | 0 => t = s.putV (dstIdx d) v m lat
  | 1 => pushStream (dstIdx d) v m lat s = .ok ((), t)
  | _ => t = s

/-- A V operation whose sources have been read delivers the lanes that `f` gives, and its result enters the bypass history, in which
the lanes that are not enabled are open (R236). -/
def Lanes (i : Instr) (s s' : State) (d : BitVec 8) (f : Nat → BitVec 32) (c : Ctl) : Prop :=
  ∀ v t, (∀ j, j < 128 → lane v j = f j) → Delivers s' d v (s.effPred c) c.lat.toNat t →
    ∃ w, (∀ j, j < 128 → (s.effPred c).getLsbD j = true → lane w j = f j) ∧ exec i s = .next (t.enterBypass w c.lat.toNat)

/-- A V operation of one source gives in every lane `f` of the source's lane. -/
def Lanes1 (mk : Ctl → VR → Instr) (f : BitVec 32 → BitVec 32) : Prop :=
  ∀ (c : Ctl) (o : VR) (s s1 : State) (a : Vec), s.enabledV c = true → Reads s o.opa a s1 →
    Lanes (mk c o) s s1 o.dst (fun j => f (lane a j)) c

/-- A V operation of two sources, read in order. -/
def Lanes2 (mk : Ctl → VR → Instr) (f : BitVec 32 → BitVec 32 → BitVec 32) : Prop :=
  ∀ (c : Ctl) (o : VR) (s s1 s2 : State) (a b : Vec), s.enabledV c = true → Reads s o.opa a s1 → Reads s1 o.opb b s2 →
    Lanes (mk c o) s s2 o.dst (fun j => f (lane a j) (lane b j)) c

/-- A V operation of three sources, read in order. -/
def Lanes3 (mk : Ctl → VR → Instr) (f : BitVec 32 → BitVec 32 → BitVec 32 → BitVec 32) : Prop :=
  ∀ (c : Ctl) (o : VR) (s s1 s2 s3 : State) (a b d : Vec), s.enabledV c = true → Reads s o.opa a s1 → Reads s1 o.opb b s2 →
    Reads s2 o.opc d s3 → Lanes (mk c o) s s3 o.dst (fun j => f (lane a j) (lane b j) (lane d j)) c

/-! ### Tiles -/

/-- The M slot is free, and none of the tiles is busy (R91, R304). -/
def TilesFree (s : State) (ts : List Nat) : Prop :=
  (∀ f, s.core.mfetch = some f → f.start + f.len ≤ s.core.fetchCycle) ∧ ∀ t ∈ ts, s.core.tileBusy.getLsbD t = false

/-- Of the tiles t0 to t11 exactly those of `ts` hold new entries, and are busy; of the rest of the machine only the fetch in the M slot
may differ. -/
def TilesWritten (s t : State) (ts : List Nat) (f : Nat → Nat → Nat → Acc40) : Prop :=
  (∀ u i j, u < 12 → i < 128 → j < 128 → t.core.tiles.get u i j = if u ∈ ts then f u i j else s.core.tiles.get u i j) ∧
  (∀ u, u < 12 → t.core.tileBusy.getLsbD u = (decide (u ∈ ts) || s.core.tileBusy.getLsbD u)) ∧
  t = s.setCore { s.core with tiles := t.core.tiles, tileBusy := t.core.tileBusy, mfetch := t.core.mfetch }

/-- A fetch of so many fetch cycles starts with this issue (R90). -/
def Fetches (s t : State) (len : Nat) : Prop := ∃ f, t.core.mfetch = some f ∧ f.start = s.core.fetchCycle ∧ f.len = len

/-! ### Invariants -/

/-- BOOTSTAT is one of its legal words, and while PERST# is asserted or bring-up has failed no core, no job and no command is there (R413). -/
def BootOk (s : State) : Prop :=
  (s.boot.inReset = true → s.cores = [] ∧ s.jobs = [] ∧ s.cmds = [] ∧ s.plans = []) ∧
  (s.boot.inReset = false → s.boot.step = 5 ∧ s.boot.fail = false) ∧
  s.boot.step ≤ 5 ∧ (s.boot.fail = true ↔ s.boot.code ≠ 0) ∧ s.boot.code ≤ 4

/-- The byte memories are in their canonical form. -/
def MemOk (s : State) : Prop := s.mem.wf = true ∧ s.nvme.wf = true

end Sys2Proof.Safety
end

