-- ==== Sys2Proof/Certificates/Slice0/Obligations.lean ====
section
/-! DEFINITION. The statements for the provers, in the order of OBLIGATIONS.json. -/

open Sys2Proof Sys2Proof.Machine Sys2Proof.Safety

/-- Words written out from the spec's layouts decode to the operations they stand for (R223, R225, R241, R242, R251, R305, R316,
R325). -/
def Obligations.DecodeWords : Prop :=
  decodeSlot .s (0x01#8 ++ 1#4 ++ 2#5 ++ 1#1 ++ 3#6 ++ 4#6 ++ 5#6 ++ 0#6 ++ 0#22) = .ok (.add ⟨1, 2, true⟩ ⟨3, 4, 5, 0⟩) ∧
  decodeSlot .s (0x86#8 ++ 0#4 ++ 0#5 ++ 0#1 ++ 7#6 ++ 8#6 ++ 1#2 ++ 3#3 ++ 0x1FFFFFF8#29) = .ok (.ldd ⟨0, 0, false⟩ ⟨7, 8, 1, 3, 0x1FFFFFF8⟩) ∧
  decodeSlot .v (0x04#8 ++ 6#4 ++ 24#5 ++ 0#1 ++ 0x85#8 ++ 0x041#9 ++ 0x082#9 ++ 0x183#9 ++ 0#3 ++ 0#8) =
    .ok (.vfma ⟨6, 24, false⟩ ⟨0x85, 0x041, 0x082, 0x183, 0, 0⟩) ∧
  decodeSlot .m (0x10#8 ++ 0#4 ++ 0#5 ++ 0#1 ++ 11#4 ++ 0#42) = .ok (.mzero ⟨0, 0, false⟩ ⟨11, 0, 0, 0⟩) ∧
  decodeSlot .c (0x08#8 ++ 0#4 ++ 0#5 ++ 0#1 ++ 0x0010#15 ++ 9#6 ++ 0x3FF#10 ++ 0#4 ++ 0#11) = .ok (.cpy ⟨0, 0, false⟩ ⟨0x0010, 9, 0x3FF, 0⟩) ∧
  decodeSlot .s 0 = .ok .nop ∧ decodeSlot .v 0 = .ok .idle ∧ decodeSlot .m 0 = .ok .idle ∧ decodeSlot .c 0 = .ok .idle

/-- Decoding the word of a well-formed operation gives it back (R223, R224, R225, R241, R251, R252). -/
def Obligations.DecodeOfEncode : Prop :=
  ∀ (i : Instr) (k : Cls), i.wf = true → i.cls = some k → decodeSlot k (encode i) = .ok i.primary

/-- A word that decodes is the encoding of what it decodes to (R223, R241, R242, R252). -/
def Obligations.EncodeOfDecode : Prop :=
  ∀ (k : Cls) (w : BitVec 64) (i : Instr), decodeSlot k w = .ok i → i.wf = true ∧ encode i = w

/-- A bundle header reads as its fields, and no other word does (R221, R222). -/
def Obligations.HeaderRoundTrip : Prop :=
  (∀ h : Header, (h.safe = true ∨ h.lmi = 0) → decodeHeader (encodeHeader h) = .ok h) ∧
  (∀ (w : BitVec 32) (h : Header), decodeHeader w = .ok h → encodeHeader h = w) ∧
  (∀ w : BitVec 32, decodeHeader w = .error .header ↔
    (w.extractLsb' 22 10 ≠ 0 ∨ (w.getLsbD 14 = false ∧ w.extractLsb' 16 6 ≠ 0)))

/-- The two-source integer operations write their results, and nothing else (R253, R226, R232, R238). -/
def Obligations.ScalarBinary : Prop :=
  ∀ (c : Ctl) (o : SR) (s : State), s.enabled c = true →
    let a := s.getX o.xa.toNat
    let b := s.getX o.xb.toNat
    let l := c.lat.toNat
    Writes (.add c o) s o.xd (BitVec.ofNat 64 (a.toNat + b.toNat)) l ∧
    Writes (.sub c o) s o.xd (BitVec.ofInt 64 ((a.toNat : Int) - (b.toNat : Int))) l ∧
    Writes (.mul c o) s o.xd (BitVec.ofNat 64 (a.toNat * b.toNat)) l ∧
    Writes (.mulh c o) s o.xd (BitVec.ofInt 64 (a.toInt * b.toInt / 2 ^ 64)) l ∧
    Writes (.mulhu c o) s o.xd (BitVec.ofNat 64 (a.toNat * b.toNat / 2 ^ 64)) l ∧
    Writes (.and c o) s o.xd (a &&& b) l ∧
    Writes (.or c o) s o.xd (a ||| b) l ∧
    Writes (.xor c o) s o.xd (a ^^^ b) l ∧
    Writes (.shl c o) s o.xd (BitVec.ofNat 64 (a.toNat * 2 ^ (b.toNat % 64))) l ∧
    Writes (.shr c o) s o.xd (BitVec.ofNat 64 (a.toNat / 2 ^ (b.toNat % 64))) l ∧
    Writes (.sra c o) s o.xd (BitVec.ofInt 64 (a.toInt / 2 ^ (b.toNat % 64))) l ∧
    Writes (.min c o) s o.xd (BitVec.ofInt 64 (min a.toInt b.toInt)) l ∧
    Writes (.max c o) s o.xd (BitVec.ofInt 64 (max a.toInt b.toInt)) l ∧
    Writes (.minu c o) s o.xd (BitVec.ofNat 64 (min a.toNat b.toNat)) l ∧
    Writes (.maxu c o) s o.xd (BitVec.ofNat 64 (max a.toNat b.toNat)) l

/-- DIV, REM, DIVU and REMU with their corner cases (R254). -/
def Obligations.ScalarDivide : Prop :=
  ∀ (c : Ctl) (o : SR) (s : State), s.enabled c = true →
    let a := s.getX o.xa.toNat
    let b := s.getX o.xb.toNat
    let l := c.lat.toNat
    (b = 0 →
      Writes (.div c o) s o.xd 0xFFFFFFFFFFFFFFFF l ∧ Writes (.rem c o) s o.xd a l ∧
      Writes (.divu c o) s o.xd 0xFFFFFFFFFFFFFFFF l ∧ Writes (.remu c o) s o.xd a l) ∧
    (a = 0x8000000000000000 → b = 0xFFFFFFFFFFFFFFFF → Writes (.div c o) s o.xd a l ∧ Writes (.rem c o) s o.xd 0 l) ∧
    (b ≠ 0 → ¬(a = 0x8000000000000000 ∧ b = 0xFFFFFFFFFFFFFFFF) →
      ∃ q r : Dword, Writes (.div c o) s o.xd q l ∧ Writes (.rem c o) s o.xd r l ∧
        a.toInt = q.toInt * b.toInt + r.toInt ∧ r.toInt.natAbs < b.toInt.natAbs ∧
        (r.toInt = 0 ∨ (r.toInt < 0 ↔ a.toInt < 0))) ∧
    (b ≠ 0 → Writes (.divu c o) s o.xd (BitVec.ofNat 64 (a.toNat / b.toNat)) l ∧
      Writes (.remu c o) s o.xd (BitVec.ofNat 64 (a.toNat % b.toNat)) l)

/-- Counts, selection, bit fields and constants (R253, R226, R232, R238). -/
def Obligations.ScalarBits : Prop :=
  (∀ (c : Ctl) (o : SR) (s : State), s.enabled c = true →
    let a := s.getX o.xa.toNat
    let l := c.lat.toNat
    (∃ n, n ≤ 64 ∧ Writes (.clz c o) s o.xd (BitVec.ofNat 64 n) l ∧ (∀ i, 64 - n ≤ i → a.getLsbD i = false) ∧
      (n < 64 → a.getLsbD (63 - n) = true)) ∧
    (∃ n, n ≤ 64 ∧ Writes (.ctz c o) s o.xd (BitVec.ofNat 64 n) l ∧ (∀ i, i < n → a.getLsbD i = false) ∧
      (n < 64 → a.getLsbD n = true)) ∧
    Writes (.popc c o) s o.xd (BitVec.ofNat 64 ((List.range 64).filter a.getLsbD).length) l) ∧
  (∀ (c : Ctl) (o : SSel) (s : State), s.enabled c = true →
    Writes (.sel c o) s o.xd
      (if (s.getPq o.pa.toNat).getLsbD 0 then s.getX o.xa.toNat else s.getX o.xb.toNat) c.lat.toNat) ∧
  (∀ (c : Ctl) (o : SB) (s : State), s.enabled c = true → o.pos.toNat + o.len.toNat ≤ 63 →
    let a := s.getX o.xa.toNat
    let d := s.getX o.xd.toNat
    (∃ v, Writes (.bfx c o) s o.xd v c.lat.toNat ∧
      ∀ i, i < 64 → v.getLsbD i = (decide (i ≤ o.len.toNat) && a.getLsbD (o.pos.toNat + i))) ∧
    (∃ v, Writes (.bfi c o) s o.xd v c.lat.toNat ∧
      ∀ i, i < 64 → v.getLsbD i =
        if o.pos.toNat ≤ i ∧ i ≤ o.pos.toNat + o.len.toNat then a.getLsbD (i - o.pos.toNat) else d.getLsbD i)) ∧
  (∀ (c : Ctl) (o : SL) (s : State), s.enabled c = true →
    Writes (.li c o) s o.xd (BitVec.ofInt 64 o.imm.toInt) c.lat.toNat ∧
    (∃ v, Writes (.lih c o) s o.xd v c.lat.toNat ∧
      ∀ i, i < 64 → v.getLsbD i = if i < 40 then (s.getX o.xd.toNat).getLsbD i else o.imm.getLsbD (i - 40)) ∧
    Writes (.addpc c o) s o.xd (BitVec.ofInt 64 (((s.core.pc.toNat : Int) + o.imm.toInt) % 2 ^ 52)) c.lat.toNat)

/-- The operations with an immediate (R253, R226, R232, R238). -/
def Obligations.ScalarImmediate : Prop :=
  ∀ (c : Ctl) (o : SI) (s : State), s.enabled c = true →
    let a := s.getX o.xa.toNat
    let l := c.lat.toNat
    Writes (.addi c o) s o.xd (BitVec.ofInt 64 ((a.toNat : Int) + o.imm.toInt)) l ∧
    Writes (.andi c o) s o.xd (a &&& BitVec.ofInt 64 o.imm.toInt) l ∧
    Writes (.ori c o) s o.xd (a ||| BitVec.ofInt 64 o.imm.toInt) l ∧
    Writes (.xori c o) s o.xd (a ^^^ BitVec.ofInt 64 o.imm.toInt) l ∧
    Writes (.shli c o) s o.xd (BitVec.ofNat 64 (a.toNat * 2 ^ (o.imm.toNat % 64))) l ∧
    Writes (.shri c o) s o.xd (BitVec.ofNat 64 (a.toNat / 2 ^ (o.imm.toNat % 64))) l ∧
    Writes (.srai c o) s o.xd (BitVec.ofInt 64 (a.toInt / 2 ^ (o.imm.toNat % 64))) l

/-- Compares and predicate operations (R257, R226, R232, R238). -/
def Obligations.PredicateResults : Prop :=
  (∀ (c : Ctl) (o : SP) (s : State), s.enabled c = true →
    let a := s.getX o.xa.toNat
    let b := s.getX o.xb.toNat
    let p := s.getPq o.pa.toNat
    let q := s.getPq o.pb.toNat
    let l := c.lat.toNat
    (∀ r : Bool, (o.cond = 0 → r = decide (a = b)) → (o.cond = 1 → r = decide (a ≠ b)) →
      (o.cond = 2 → r = decide (a.toInt < b.toInt)) → (o.cond = 3 → r = decide (a.toInt ≤ b.toInt)) →
      (o.cond = 4 → r = decide (a.toNat < b.toNat)) → (o.cond = 5 → r = decide (a.toNat ≤ b.toNat)) → o.cond.toNat ≤ 5 →
      WritesP (.cmp c o) s o.d (if r then BitVec.allOnes 128 else 0) l) ∧
    WritesP (.pand c o) s o.d (p &&& q) l ∧
    WritesP (.por c o) s o.d (p ||| q) l ∧
    WritesP (.pxor c o) s o.d (p ^^^ q) l ∧
    WritesP (.pnot c o) s o.d (~~~p) l ∧
    WritesP (.pset c o) s o.d (BitVec.ofNat 128 (a.toNat + 2 ^ 64 * b.toNat)) l ∧
    Writes (.pget c o) s o.d (BitVec.ofNat 64 (p.toNat / 2 ^ (64 * o.h.toNat))) l) ∧
  (∀ (c : Ctl) (o : SPI) (s : State), s.enabled c = true →
    let a := s.getX o.xa.toNat
    let b := BitVec.ofInt 64 o.imm.toInt
    ∀ r : Bool, (o.cond = 0 → r = decide (a = b)) → (o.cond = 1 → r = decide (a ≠ b)) →
      (o.cond = 2 → r = decide (a.toInt < b.toInt)) → (o.cond = 3 → r = decide (a.toInt ≤ b.toInt)) →
      (o.cond = 4 → r = decide (a.toNat < b.toNat)) → (o.cond = 5 → r = decide (a.toNat ≤ b.toNat)) → o.cond.toNat ≤ 5 →
      WritesP (.cmpi c o) s o.d (if r then BitVec.allOnes 128 else 0) c.lat.toNat) ∧
  (∀ (c : Ctl) (o : SP), 6 ≤ o.cond.toNat → (Instr.cmp c o).wf = false) ∧
  (∀ (c : Ctl) (o : SPI), 6 ≤ o.cond.toNat → (Instr.cmpi c o).wf = false)

/-- An operation of the S slot that is not enabled leaves the machine as it is (R226, R227). -/
def Obligations.DisabledDoesNothing : Prop :=
  ∀ (c : Ctl) (s : State), s.enabled c = false →
    (∀ o : SR, ∀ mk ∈ ([.add, .sub, .mul, .mulh, .mulhu, .div, .divu, .rem, .remu, .and, .or, .xor, .shl, .shr, .sra, .min, .max,
        .minu, .maxu, .clz, .ctz, .popc, .jmpx, .callx, .ret, .mcld, .mcst, .kset, .ringf, .dispatchResume, .dispatchTerminate,
        .dispatchContinue, .sigwaitHalt, .sigwaitArm, .tlbinvAsid, .tlbinvPages, .tlbinvPartition, .useal, .pcfgCreate,
        .pcfgQuotaGrant, .pcfgQuotaRevoke, .pcfgCal, .pcfgBand, .pcfgSlice, .pcfgStateDrain, .pcfgStateScrub, .pcfgStateRelease,
        .pcfgStateActive, .pcfgGmapMap, .pcfgGmapUnmap, .pcfgDestroy] : List (Ctl → SR → Instr)), exec (mk c o) s = .next s) ∧
    (∀ o : SSel, exec (.sel c o) s = .next s) ∧
    (∀ o : SI, ∀ mk ∈ ([.addi, .andi, .ori, .xori, .shli, .shri, .srai, .setlc, .setsg] : List (Ctl → SI → Instr)),
      exec (mk c o) s = .next s) ∧
    (∀ o : SB, ∀ mk ∈ ([.bfx, .bfi] : List (Ctl → SB → Instr)), exec (mk c o) s = .next s) ∧
    (∀ o : SL, ∀ mk ∈ ([.li, .lih, .addpc] : List (Ctl → SL → Instr)), exec (mk c o) s = .next s) ∧
    (∀ o : SP, ∀ mk ∈ ([.cmp, .pand, .por, .pxor, .pnot, .pset, .pget] : List (Ctl → SP → Instr)), exec (mk c o) s = .next s) ∧
    (∀ o : SPI, exec (.cmpi c o) s = .next s) ∧
    (∀ o : SJ, ∀ mk ∈ ([.br, .jmp, .call, .loopC, .loopM] : List (Ctl → SJ → Instr)), exec (mk c o) s = .next s) ∧
    (∀ o : ST, ∀ mk ∈ ([.halt, .trap, .eret] : List (Ctl → ST → Instr)), exec (mk c o) s = .next s) ∧
    (∀ o : SF, ∀ mk ∈ ([.fmt, .fmtrd] : List (Ctl → SF → Instr)), exec (mk c o) s = .next s) ∧
    (∀ o : SC, ∀ mk ∈ ([.csrr, .csrw, .csrs, .csrc, .attreqWrite, .cxlcapWrite, .gftbaseWrite, .fabidWrite, .hpasidWrite,
        .eccstatWrite, .mclogWrite, .watchpointWrite] : List (Ctl → SC → Instr)), exec (mk c o) s = .next s) ∧
    (∀ o : SM, ∀ mk ∈ ([.ldb, .ldbu, .ldh, .ldhu, .ldw, .ldwu, .ldd, .stb, .sth, .stw, .std, .stnt] : List (Ctl → SM → Instr)),
      exec (mk c o) s = .next s) ∧
    (∀ o : SA, ∀ mk ∈ ([.amo, .cas, .red] : List (Ctl → SA → Instr)), exec (mk c o) s = .next s) ∧
    (∀ o : SY, ∀ mk ∈ ([.fence, .drainnt, .waita, .enq, .exit, .exitS, .barArr, .barWait, .barTry] : List (Ctl → SY → Instr)),
      exec (mk c o) s = .next s)

/-- Inside its latency window a read gives the old or the new value of each byte (R232). -/
def Obligations.LatencyWindow : Prop :=
  ∀ (s : State) (r : Nat) (e : Pend), r ≠ 0 → s.core.flight .x r = [e] → e.mask = (BitVec.allOnes 64).setWidth 4096 →
    let old := (s.core.landed .x r).setWidth 64
    let new := e.val.setWidth 64
    (s.core.issueNo ≤ e.issue → s.core.issueNo < e.due → s.getX r = old) ∧
    (e.issue < s.core.issueNo → s.core.issueNo < e.due → ∀ j, j < 8 →
      (s.getX r).extractLsb' (8 * j) 8 = old.extractLsb' (8 * j) 8 ∨ (s.getX r).extractLsb' (8 * j) 8 = new.extractLsb' (8 * j) 8) ∧
    (e.due ≤ s.core.issueNo → s.getX r = new)

/-- Once every write in flight to a register has come to its bound, a read gives what has landed last (R232, R233, R238). -/
def Obligations.ReadAfterBound : Prop :=
  ∀ s : State,
    (∀ r, (∀ e ∈ s.core.flight .x r, e.due ≤ s.core.issueNo) → s.getX r = xAt s r s.core.issueNo) ∧
    (∀ r, (∀ e ∈ s.core.flight .p r, e.due ≤ s.core.issueNo) → s.getP r = pAt s r s.core.issueNo) ∧
    (∀ i, (∀ e ∈ s.core.flight .v (s.core.physV i), e.due ≤ s.core.issueNo) → s.getV i = vAt s i s.core.issueNo)

/-- Branches, jumps, calls and returns set the address of the next bundle (R259, R220). -/
def Obligations.ControlTransfers : Prop :=
  (∀ (c : Ctl) (o : SJ) (s : State), s.enabled c = true →
    let near := BitVec.ofInt 52 ((s.core.pc.toNat : Int) + 4 * o.off.toInt)
    exec (.br c o) s = .next (s.goTo near) ∧
    exec (.jmp c o) s = .next (s.goTo (BitVec.ofNat 52 (s.core.pc.toNat / 2 ^ 48 * 2 ^ 48 + 4 * o.off.toNat))) ∧
    Answers (exec (.call c o) s) fun t => ∃ u,
      WroteX s u 63 (BitVec.ofNat 64 s.core.issue.nextPc.toNat) (s.core.issueNo + 1) ∧ t = u.goTo near) ∧
  (∀ (c : Ctl) (o : SR) (s : State), s.enabled c = true →
    let a := (s.getX o.xa.toNat).toNat
    let x63 := (s.getX 63).toNat
    (a % 4 = 0 → a < 2 ^ 52 →
      exec (.jmpx c o) s = .next (s.goTo (BitVec.ofNat 52 a)) ∧
      Answers (exec (.callx c o) s) fun t =>
        WroteX (s.goTo (BitVec.ofNat 52 a)) t 63 (BitVec.ofNat 64 s.core.issue.nextPc.toNat) (s.core.issueNo + 1)) ∧
    (¬(a % 4 = 0 ∧ a < 2 ^ 52) → Faults (.jmpx c o) s illegalSlot ∧ Faults (.callx c o) s illegalSlot) ∧
    (x63 % 4 = 0 → x63 < 2 ^ 52 → exec (.ret c o) s = .next (s.goTo (BitVec.ofNat 52 x63))) ∧
    (¬(x63 % 4 = 0 ∧ x63 < 2 ^ 52) → Faults (.ret c o) s illegalSlot))

/-- LOOP.C, LOOP.M and the writes of LC and SGATE (R239, R260, R261, R262). -/
def Obligations.Loops : Prop :=
  (∀ (c : Ctl) (o : SJ) (s : State), s.enabled c = true →
    let near := BitVec.ofInt 52 ((s.core.pc.toNat : Int) + 4 * o.off.toInt)
    let k := s.core
    (k.lc = 0 → exec (.loopC c o) s = .next s) ∧
    (k.lc ≠ 0 → exec (.loopC c o) s = .next ((s.onCore fun k => { k with lc := k.lc - 1 }).goTo near)) ∧
    (let g := if k.lc = 0 then 0 else 1
     let gates := (k.sgate.toNat % 256 * 2 + g) % 2 ^ (k.sgate.toNat / 256 + 1)
     let sg := BitVec.ofNat 11 (k.sgate.toNat / 256 * 256 + gates % 256)
     let u := s.onCore fun k => { k.rotate with lc := k.lc - BitVec.ofNat 32 g, sgate := sg }
     exec (.loopM c o) s = .next (if gates % 256 = 0 then u else u.goTo near))) ∧
  (∀ (c : Ctl) (o : SI) (s : State), s.enabled c = true →
    let v := (s.getX o.xa.toNat).toNat + o.imm.toInt
    exec (.setlc c o) s = .next (s.onCore fun k => { k with lc := BitVec.ofInt 32 v }) ∧
    exec (.setsg c o) s = .next (s.onCore fun k => { k with sgate := BitVec.ofInt 11 v }))

/-- The rotating window maps the logical registers of its range one to one onto that range (R239). -/
def Obligations.WindowRotation : Prop :=
  ∀ k : Core, rwinOk k.rwin.toNat = true →
    (∀ i, (i < k.rwFirst ∨ k.rwFirst + k.rwSize ≤ i) → k.physV i = i) ∧
    (∀ i, k.rwFirst ≤ i → i < k.rwFirst + k.rwSize → k.rwFirst ≤ k.physV i ∧ k.physV i < k.rwFirst + k.rwSize) ∧
    (∀ i j, k.physV i = k.physV j → i = j) ∧
    (∀ i, k.rwFirst ≤ i → i + 1 < k.rwFirst + k.rwSize → k.rotate.physV i = k.physV (i + 1)) ∧
    (k.rwSize ≠ 0 → k.rotate.physV (k.rwFirst + k.rwSize - 1) = k.physV k.rwFirst) ∧ rwinOk k.rotate.rwin.toNat = true

/-- NOP, IDLE and HALT (R242, R229, R263). -/
def Obligations.EmptySlots : Prop :=
  (∀ s : State, exec .nop s = .next s) ∧
  (∀ s : State, exec .idle s = .next (s.onCore fun k => { k with slots := setAt k.slots (k.issue.slot - 1) ⟨false, 0, []⟩ })) ∧
  (∀ (c : Ctl) (o : ST) (s : State), s.enabled c = true → exec (.halt c o) s = .next (s.onIssue fun i => { i with after := .halt })) ∧
  (∀ s : State, s.afterIssue .halt = s.parkFault 1 0 s.core.pc.toNat ⟨0x31, 0, 0, 0⟩)

/-- A step of a running core runs the operations that its bundle issues, whatever slots it has: those of its words, armed at its first issue,
and the armed ones of slots that have no word in it; V0, V1, M, C0, C1, then S, but a FENCE or DRAINNT of the S slot before them. The first clauses
say so for a bundle of one S word with no armed slot, in terms of that one operation (R220, R228, R229, R230, R231, R331). The order of the slots
within an issue is the model's choice (log 15). -/
def Obligations.StepRunsDecoded : Prop :=
  ∀ (s : State) (n : Nat) (ts : List Turn) (h : Header) (b : Nat) (s1 : State),
    s.turns = .core n :: ts → s.boot.inReset = false → (s.coreAt n).run = .running →
    let s0 := { s with tick := s.tick + 1, turns := ts, cur := n, cycle := min 2047 (s.cycle + 1) }
    let pre := s1.enterBundle h
    let ws := decodeSlots h.pm b
    let start := opened pre h b
    let ops := start.core.slotOps ws
    s0.core.late = [] → s0.core.due = none → fetchBundle s0 = .ok ((h, b), s1) → s1.stopPoint h = none →
    (∀ i : Instr, h.pm = 1 → (∀ sl ∈ pre.core.slots, sl.armed = false) → decodeSlot .s (BitVec.ofNat 64 (b / 2 ^ 32)) = .ok i →
      (h.rpt = 0 ∨ onceOnly (BitVec.ofNat 64 (b / 2 ^ 32)) = false) →
      let s2 := start.onIssue fun r => { r with slot := 0, explicit := decide (pre.core.rpt = 0) }
      (∀ t, runOp i s2 = .next t → step s = .next { (pre.endIssue t start h ws ops [] none).reportTouched with boot := s.boot }) ∧
      (∀ f, runOp i s2 = .fault f → step s = .fault f) ∧
      (∀ r, runOp i s2 = .refused r → step s = .refused r)) ∧
    ((∀ t, runSlots runOp ops start = .next t →
        step s = .next { (pre.endIssue t start h ws ops (decodeFaults h ws) none).reportTouched with boot := s.boot }) ∧
      (∀ f, runSlots runOp ops start = .fault f → step s = .fault f) ∧
      (∀ r, runSlots runOp ops start = .refused r → step s = .refused r)) ∧
    (∀ o, o ∈ ops ↔ o.slot < 6 ∧ start.core.slotOp? ws o.slot = some o) ∧
    (∀ m w i, (m, w, .ok i) ∈ ws → start.core.slotOp? ws m = some ⟨m, i, decide (pre.core.rpt = 0)⟩) ∧
    (∀ m sl i, (∀ w ∈ ws, w.1 ≠ m) → 1 ≤ m → pre.core.slots[m - 1]? = some sl → sl.armed = true → decodeSlot (slotCls m) sl.word = .ok i →
      start.core.slotOp? ws m = some ⟨m, i, false⟩) ∧
    (∀ m w r, pre.core.rpt = 0 → (m, w, r) ∈ ws → 1 ≤ m → m ≤ pre.core.slots.length → start.core.slots[m - 1]? = some ⟨true, w, []⟩) ∧
    (∀ o ∈ ops, o.slot = 0 → fencesBundle o.op = true → ops.head? = some o)

/-- Which row of the table an operation is, where rows share an opcode (R275, R276, R277, R279, R280, R352, R382). -/
def Obligations.StepRow : Prop :=
  (∀ (c : Ctl) (o : SR) (s : State),
    let a := (s.getX o.xa.toNat).toNat
    let b := (s.getX o.xb.toNat).toNat
    let d := s.peekBlock o
    (∀ bs t, loadBytes b 64 (s.endRegion.fullFence 3) = .ok (bs, t) → d = ofBytes bs) ∧
    (b % 4 = 0 → runOp (.dispatchResume c o) s = exec (.dispatchResume c o) s) ∧
    (b % 4 = 1 → runOp (.dispatchResume c o) s = exec (.dispatchTerminate c o) s) ∧
    (b % 4 = 2 → runOp (.dispatchResume c o) s = exec (.dispatchContinue c o) s) ∧
    (b % 2 = 1 → runOp (.sigwaitHalt c o) s = exec (.sigwaitHalt c o) s) ∧
    (b % 2 = 0 → runOp (.sigwaitHalt c o) s = exec (.sigwaitArm c o) s) ∧
    (a / 1024 % 4 = 0 → runOp (.tlbinvAsid c o) s = exec (.tlbinvAsid c o) s) ∧
    (a / 1024 % 4 = 1 → runOp (.tlbinvAsid c o) s = exec (.tlbinvPages c o) s) ∧
    (a / 1024 % 4 = 2 → runOp (.tlbinvAsid c o) s = exec (.tlbinvPartition c o) s) ∧
    (a % 16 = 0 → runOp (.pcfgCreate c o) s = exec (.pcfgCreate c o) s) ∧
    (a % 16 = 1 → d / 2 ^ 8 % 2 = 0 → runOp (.pcfgCreate c o) s = exec (.pcfgQuotaGrant c o) s) ∧
    (a % 16 = 1 → d / 2 ^ 8 % 2 = 1 → runOp (.pcfgCreate c o) s = exec (.pcfgQuotaRevoke c o) s) ∧
    (a % 16 = 2 → runOp (.pcfgCreate c o) s = exec (.pcfgCal c o) s) ∧
    (a % 16 = 3 → runOp (.pcfgCreate c o) s = exec (.pcfgBand c o) s) ∧
    (a % 16 = 4 → runOp (.pcfgCreate c o) s = exec (.pcfgSlice c o) s) ∧
    (a % 16 = 5 → d / 2 ^ 8 % 8 = 1 → runOp (.pcfgCreate c o) s = exec (.pcfgStateDrain c o) s) ∧
    (a % 16 = 5 → d / 2 ^ 8 % 8 = 3 → runOp (.pcfgCreate c o) s = exec (.pcfgStateScrub c o) s) ∧
    (a % 16 = 5 → d / 2 ^ 8 % 8 = 5 → runOp (.pcfgCreate c o) s = exec (.pcfgStateRelease c o) s) ∧
    (a % 16 = 5 → d / 2 ^ 8 % 8 = 0 → runOp (.pcfgCreate c o) s = exec (.pcfgStateActive c o) s) ∧
    (a % 16 = 6 → d / 2 ^ 318 % 2 = 0 → runOp (.pcfgCreate c o) s = exec (.pcfgGmapMap c o) s) ∧
    (a % 16 = 6 → d / 2 ^ 318 % 2 = 1 → runOp (.pcfgCreate c o) s = exec (.pcfgGmapUnmap c o) s) ∧
    (a % 16 = 7 → runOp (.pcfgCreate c o) s = exec (.pcfgDestroy c o) s)) ∧
  (∀ (c : Ctl) (o : CK) (s s1 : State) (d : Nat), readDesc (s.ckCursor o) = .ok (d, s1) →
    (d / 2 ^ 116 % 2 = 0 → runOp (.spmap c o) s = exec (.spmap c o) s) ∧
    (d / 2 ^ 116 % 2 = 1 → runOp (.spmap c o) s = exec (.spmapUnmap c o) s)) ∧
  (∀ (i : Instr) (s : State), (∀ c o, i ≠ .dispatchResume c o) → (∀ c o, i ≠ .sigwaitHalt c o) → (∀ c o, i ≠ .tlbinvAsid c o) →
    (∀ c o, i ≠ .pcfgCreate c o) → (∀ c o, i ≠ .spmap c o) → runOp i s = exec i s)

/-- A step in which an event happens is exec of that event (R411, R413). -/
def Obligations.StepEvent : Prop :=
  ∀ (s : State) (e : Instr) (ts : List Turn), s.turns = .event e :: ts →
    let s0 := { s with tick := s.tick + 1, turns := ts }
    (e.cls = none → s.boot.inReset = false → (∀ b, e ≠ .bringUp b) → e ≠ .thermtrip → e ≠ .perstAssert →
      (∀ n, e = .taskStop n → s0.stopsSafely n = false) →
      (∀ t, exec e s0 = .next t → step s = .next { t.reportTouched with boot := s.boot }) ∧ (∀ f, exec e s0 = .fault f → step s = .fault f)) ∧
    (∀ n, e = .taskStop n → s.boot.inReset = false → s0.stopsSafely n = true → step s = State.moveCore n s0) ∧
    (e = .thermtrip ∨ e = .perstAssert ∨ (∃ b, e = .bringUp b) → step s = exec e s0) ∧
    (s.boot.inReset = true → (∀ b, e ≠ .bringUp b) → e ≠ .perstAssert → e ≠ .thermtrip → step s = .next s0)

/-- While PERST# is asserted no core issues (R413). -/
def Obligations.HeldInReset : Prop :=
  ∀ s : State, s.boot.inReset = true →
    (∀ (n : Nat) (ts : List Turn), s.turns = .core n :: ts → step s = .next { s with tick := s.tick + 1, turns := ts }) ∧
    (s.turns = [] → step s = .next { s with tick := s.tick + 1 })

/-- Every step keeps the invariant of reset and bring-up (R411, R413). -/
def Obligations.BootOkKept : Prop :=
  ∀ s t : State, BootOk s → step s = .next t → BootOk t

/-- The machine right after reset (R112, R180, R184, R195, R198, R199, R266, R413). The spec gives reset no memory contents, no value of MCBTAB and
no core, job, MC or command: that they are empty and zero is the model's choice (log 4, 22). -/
def Obligations.ResetState : Prop :=
  State.reset.boot.inReset = true ∧ BootOk State.reset ∧ MemOk State.reset ∧ State.reset.mem = [] ∧ State.reset.cores = [] ∧
  State.reset.jobs = [] ∧ State.reset.mcs = [] ∧ State.reset.cmds = [] ∧ State.reset.frame = 0 ∧
  State.reset.csr 0x060 = 0xB798 ∧ State.reset.csr 0x061 = 0x100000 ∧ State.reset.csr 0x062 = 0x10000 ∧
  (∀ p, p ≤ 16 → State.reset.csr (0x150 + p) = 0xFFFFFFFFFFFFFFFF ∧ State.reset.csr (0x170 + p) = 0x0101010101010101 ∧
    State.reset.csr (0x190 + p) = 64 ∧ State.reset.csr (0x020 + p) = 0 ∧ State.reset.csr (0x070 + p) = 0) ∧
  (∀ i, i < 256 → State.reset.csr (0x200 + i) = 0x1F) ∧ (∀ q, q < 136 → State.reset.csr (0xC00 + q) = 0) ∧
  State.reset.csr 0x063 = 0 ∧ State.reset.csr 0x064 = 0 ∧ State.reset.csr 0x065 = 0 ∧ State.reset.csr 0x050 = 0 ∧ State.reset.csr 0xCFA = 0

/-- A PC that is no bundle start, and a header that is none, raise ILLEGAL_BUNDLE (R159, R220, R222, R358). -/
def Obligations.IllegalBundle : Prop :=
  ∀ (s : State) (run : Exec), s.core.late = [] → s.core.due = none → (s.core.rpt = 0 ∨ s.core.fetched = none) →
    (s.core.pc.toNat % 4 ≠ 0 → s.issue run = .next (s.takeFault 0 s.core.rpt s.core.pc.toNat ⟨0x01, 0, 0, 0⟩)) ∧
    (∀ w s1, s.core.pc.toNat % 4 = 0 → fetchCode s.core.pc.toNat 4 s = .ok (w, s1) → decodeHeader (BitVec.ofNat 32 w) = .error .header →
      s.issue run = .next (s.takeFault 0 s.core.rpt s.core.pc.toNat ⟨0x01, 0, 0, 0⟩))

/-- What a commit does to the PC, the issue counters and the registers (R220, R228, R259). -/
def Obligations.CommitAdvances : Prop :=
  ∀ (k : Core) (ws : List SlotWord) (fr wr : BitVec 64),
    (k.advance true ws fr wr).pc = k.issue.target.getD k.issue.nextPc ∧ (k.advance true ws fr wr).rpt = 0 ∧
    (k.advance false ws fr wr).pc = k.pc ∧ (k.advance false ws fr wr).rpt = k.rpt + 1 ∧
    ∀ last, let t := k.advance last ws fr wr
      t.issueNo = k.issueNo + 1 ∧ t.fetchCycle = k.fetchCycle + 1 ∧ t.x = k.x ∧ t.v = k.v ∧ t.p = k.p ∧ t.pend = k.pend ∧
        t.pl = k.pl ∧ t.sp = k.sp ∧ t.tiles = k.tiles ∧ t.wait = none

/-- Which fault a bundle with several fault conditions raises (R358); two slots that write one register raise ILLEGAL_SLOT (R235); accesses that meet
in a bank, that meet a bank a fetch has reserved, or that meet the window of a gather raise BANKCONFLICT (R86, R87, R88, R92, R300); an issue with no
condition commits. -/
def Obligations.FaultChoice : Prop :=
  (∀ fs : List SlotFault, (∀ f ∈ fs, f.slot < 6) →
    (fs = [] → chooseFault fs = none) ∧
    (fs ≠ [] → ∃ g ∈ fs, chooseFault fs = some g.fi ∧ (∀ f ∈ fs, g.slot ≤ f.slot) ∧
      ∀ f ∈ fs, f.slot = g.slot → causeRank g.fi.cause ≤ causeRank f.fi.cause) ∧
    ∀ n, n < 6 → ((faultMask fs).testBit n = true ↔ ∃ f ∈ fs, f.slot = n)) ∧
  (∀ (ds : List (Nat × RegFile × Nat)) (n : Nat), n ∈ destClashes ds ↔ ∃ a ∈ ds, ∃ b ∈ ds, a.1 = n ∧ b.1 ≠ n ∧ a.2 = b.2) ∧
  (∀ (l : List BankAcc) (n : Nat), n ∈ bankClashes l ↔ ∃ (i j : Nat) (a b : BankAcc), i ≠ j ∧ l[i]? = some a ∧ l[j]? = some b ∧ a.slot = n ∧
    a.chunk / 16384 = b.chunk / 16384 ∧ a.chunk % 16 = b.chunk % 16 ∧ (a.chunk ≠ b.chunk ∨ a.write = true ∨ b.write = true)) ∧
  (∀ k : Core,
    (∀ n ∈ bankClashes k.issue.acc, n ∈ k.bankFaults) ∧
    (∀ a ∈ k.issue.acc, ∀ f, k.mfetch = some f → a.chunk % 16 ∈ f.banksAt (a.chunk / 16384) k.fetchCycle → a.slot ∈ k.bankFaults) ∧
    (∀ a ∈ k.issue.acc, ∀ w ∈ k.windows, w.group = a.chunk / 16384 → ((w.start < k.fetchCycle ∧ w.covers k.fetchCycle = true) ∨ w.start = k.fetchCycle) →
      a.slot ∈ k.bankFaults) ∧
    (k.windows = [] → k.mfetch = none → k.bankFaults = bankClashes k.issue.acc)) ∧
  (∀ (pre s start : State) (h : Header) (ws : List SlotWord) (ops : List SlotOp) (stop : Option State),
    let fs : List SlotFault := (destClashes s.core.issue.dests).map (⟨·, illegalSlot⟩) ++ s.core.bankFaults.map (⟨·, bankConflict⟩)
    s.core.issue.stall = none → s.core.issue.faults = [] →
    (fs ≠ [] → (∀ f ∈ fs, f.slot < 6) → ∃ fi, chooseFault fs = some fi ∧ (fi = illegalSlot ∨ fi = bankConflict) ∧
      pre.endIssue s start h ws ops [] stop = pre.faultIssue s fs fi) ∧
    (fs = [] → pre.endIssue s start h ws ops [] stop = stop.getD (pre.commitIssue s h ws)))

/-- FMT and FMTRD (R264). -/
def Obligations.FormatRegisters : Prop :=
  (∀ (c : Ctl) (o : SF), (encode (.fmt c o)).extractLsb' 56 8 = 0xC0 ∧ (encode (.fmtrd c o)).extractLsb' 56 8 = 0xC1 ∧
    (Instr.wf (.fmt c o) = true → o.xd = 0) ∧ (Instr.wf (.fmtrd c o) = true → o.xa = 0 ∧ 1 ≤ c.lat.toNat)) ∧
  ∀ (c : Ctl) (o : SF) (s : State), s.enabled c = true →
    Writes (.fmtrd c o) s o.xd (s.getF o.fs.toNat) c.lat.toNat ∧
    Answers (exec (.fmt c o) s) fun t =>
      t = s.setCore { s.core with fmts := t.core.fmts } ∧
      (∀ n, n < s.core.issueNo + 5 → ∀ r, (t.setCore { t.core with issueNo := n }).getF r = (s.setCore { s.core with issueNo := n }).getF r) ∧
      (∀ n, s.core.issueNo + 5 ≤ n →
        (t.setCore { t.core with issueNo := n }).getF o.fs.toNat = s.getX o.xa.toNat ∧
        ∀ r, r ≠ o.fs.toNat → (t.setCore { t.core with issueNo := n }).getF r = (s.setCore { s.core with issueNo := n }).getF r)

/-- CSRR reads a CSR that its level allows (R265, R266, R267). -/
def Obligations.CsrReads : Prop :=
  ∀ (c : Ctl) (o : SC) (s : State), s.enabled c = true →
    let n := o.csr.toNat
    (csrLevels n = none → Faults (.csrr c o) s illegalSlot) ∧
    (∀ r w, csrLevels n = some (r, w) → s.lvlOk r = true → Writes (.csrr c o) s o.xd (s.readCsr n) c.lat.toNat) ∧
    (∀ r w, csrLevels n = some (r, w) → s.lvlOk r = false → Faults (.csrr c o) s privilege) ∧
    s.readCsr 0x000 = s.core.lc.setWidth 64 ∧ s.readCsr 0x001 = s.core.sgate.setWidth 64 ∧ s.readCsr 0x002 = s.core.rwin.setWidth 64 ∧
    s.readCsr 0x006 = s.core.taskid ∧ s.readCsr 0x007 = BitVec.ofNat 64 (s.core.pl.toNat + 16 * s.core.part) ∧
    s.readCsr 0x010 = s.core.epc1 ∧ s.readCsr 0x011 = s.core.epc2 ∧ s.readCsr 0x012 = s.core.estat1 ∧ s.readCsr 0x013 = s.core.estat2 ∧
    s.readCsr 0x014 = s.core.ecause1 ∧ s.readCsr 0x015 = s.core.ecause2 ∧ s.readCsr 0x00B = BitVec.ofNat 64 s.frame ∧
    (∀ m, 0x020 ≤ m → m < 0x040 → s.readCsr m = s.csr m) ∧ (∀ m, 0x044 ≤ m → s.readCsr m = s.csr m)

/-- CSRW, CSRS and CSRC exchange a CSR, and so does every row of a CSR write (R239, R265, R266, R378). -/
def Obligations.CsrWrites : Prop :=
  ∀ (c : Ctl) (o : SC) (s : State), s.enabled c = true →
    let n := o.csr.toNat
    let old := s.readCsr n
    let x := s.getX o.xa.toNat
    (∀ r w, csrLevels n = some (r, w) → w ≠ .never → s.lvlOk r = true → s.lvlOk w = true → s.watchForeign n = false → n ≠ 0xCF8 →
      (∀ v, (n = 0x002 → rwinOk v.toNat = true) →
        (v = x → exec (.csrw c o) s = .next ((s.writeCsr n v).putX o.xd.toNat old 1) ∧
          (n = 0x064 → exec (.cxlcapWrite c o) s = .next ((s.writeCsr n v).putX o.xd.toNat old 1)) ∧
          (n = 0x065 → exec (.gftbaseWrite c o) s = .next ((s.writeCsr n v).putX o.xd.toNat old 1)) ∧
          (n = 0x063 → exec (.fabidWrite c o) s = .next ((s.writeCsr n v).putX o.xd.toNat old 1)) ∧
          (0x400 ≤ n → n < 0x800 → exec (.hpasidWrite c o) s = .next ((s.writeCsr n v).putX o.xd.toNat old 1)) ∧
          (n = 0xCFA → exec (.eccstatWrite c o) s = .next ((s.writeCsr n v).putX o.xd.toNat old 1)) ∧
          (n = 0xCFB → exec (.mclogWrite c o) s = .next ((s.writeCsr n v).putX o.xd.toNat old 1)) ∧
          (0xC90 ≤ n → n < 0xCA0 → exec (.watchpointWrite c o) s = .next ((s.writeCsr n v).putX o.xd.toNat old 1))) ∧
        (v = old ||| x → exec (.csrs c o) s = .next ((s.writeCsr n v).putX o.xd.toNat old 1)) ∧
        (v = old &&& ~~~x → exec (.csrc c o) s = .next ((s.writeCsr n v).putX o.xd.toNat old 1)))) ∧
    (∀ r w, csrLevels n = some (r, w) → w ≠ .never → s.lvlOk r = true → s.lvlOk w = true → s.watchForeign n = false →
      (n = 0xCF8 →
        exec (.csrw c o) s = .next ((s.attRequest x).putX o.xd.toNat old 1) ∧
        exec (.attreqWrite c o) s = .next ((s.attRequest x).putX o.xd.toNat old 1) ∧
        exec (.csrs c o) s = .next ((s.attRequest (old ||| x)).putX o.xd.toNat old 1) ∧
        exec (.csrc c o) s = .next ((s.attRequest (old &&& ~~~x)).putX o.xd.toNat old 1)) ∧
      (n = 0x002 →
        (rwinOk x.toNat = false → Faults (.csrw c o) s illegalSlot) ∧
        (rwinOk (old ||| x).toNat = false → Faults (.csrs c o) s illegalSlot) ∧
        (rwinOk (old &&& ~~~x).toNat = false → Faults (.csrc c o) s illegalSlot))) ∧
    (∀ mk ∈ ([.csrw, .csrs, .csrc, .cxlcapWrite, .gftbaseWrite, .fabidWrite, .hpasidWrite, .eccstatWrite, .mclogWrite, .watchpointWrite,
        .attreqWrite] : List (Ctl → SC → Instr)),
      (csrLevels n = none → Faults (mk c o) s illegalSlot) ∧
      (∀ r, csrLevels n = some (r, .never) → Faults (mk c o) s illegalSlot) ∧
      (∀ r w, csrLevels n = some (r, w) → w ≠ .never → (s.lvlOk r = false ∨ s.lvlOk w = false ∨ s.watchForeign n = true) →
        Faults (mk c o) s privilege))

/-- What a write leaves in a CSR (R29, R47, R154, R239, R266, R267, R378, R416, R418). -/
def Obligations.CsrEffects : Prop :=
  ∀ (s : State) (v : Dword),
    (s.writeCsr 0x000 v).core.lc = BitVec.ofNat 32 v.toNat ∧ (s.writeCsr 0x001 v).core.sgate = BitVec.ofNat 11 v.toNat ∧
    (s.writeCsr 0x002 v).core.rwin = BitVec.ofNat 19 v.toNat ∧ (s.writeCsr 0x003 v).core.kvwait = BitVec.ofNat 32 v.toNat ∧
    (s.writeCsr 0x004 v).core.pbound = BitVec.ofNat 32 v.toNat ∧ (s.writeCsr 0x00A v).core.slip = BitVec.ofNat 32 v.toNat ∧
    (∀ l, (s.writeCsr 0x005 v).core.domset.getLsbD l = (s.core.domset.getLsbD l && (decide (l = 0) || (decide (l < 5) && v.getLsbD l)))) ∧
    (s.writeCsr 0x010 v).core.epc1 = v &&& 0xFFFFFFFFFFFFC ∧ (s.writeCsr 0x011 v).core.epc2 = v &&& 0xFFFFFFFFFFFFC ∧
    (s.writeCsr 0x012 v).core.estat1 = v &&& 7 ∧ (s.writeCsr 0x013 v).core.estat2 = v &&& 7 ∧
    (s.writeCsr 0x014 v).core.ecause1 = v &&& 0xFFFF00FF ∧ (s.writeCsr 0x015 v).core.ecause2 = v &&& 0xFFFF00FF ∧
    (s.writeCsr 0x064 v).csr 0x064 = v &&& 0x7FFFFFFF ∧
    ((s.csr 0x065).getLsbD 0 = true → (s.writeCsr 0x065 v).csr 0x065 = s.csr 0x065) ∧
    ((s.csr 0x065).getLsbD 0 = false → (s.writeCsr 0x065 v).csr 0x065 = v &&& 0xFFFFFFFFFFC1) ∧
    (∀ a, a < 1024 →
      (s.core.pl = 2 → (s.writeCsr (0x400 + a) v).csr (0x400 + a) = v &&& 0xF800FFFFF) ∧
      (s.core.pl ≠ 2 → (s.writeCsr (0x400 + a) v).csr (0x400 + a) = (v &&& 0x800FFFFF) ||| (s.csr (0x400 + a) &&& 0xF00000000))) ∧
    (s.writeCsr 0xCFA v).csr 0xCFA = s.csr 0xCFA &&& ~~~v ∧ (s.writeCsr 0xCFB v).csr 0xCFB = s.csr 0xCFB &&& ~~~v ∧
    (∀ p, p ≤ 16 → (s.writeCsr (0x020 + p) v).csr (0x020 + p) = v &&& 0xFFFFFFFFFFFFC) ∧
    (∀ n m, m ≠ n → ¬(0xC90 ≤ n ∧ n < 0xCA0) → (s.writeCsr n v).csr m = s.csr m) ∧
    (∀ n, (s.writeCsr n v).mem = s.mem)

/-- A write of ATTREQ asks the security engine for an attestation report, unless it is BUSY; the engine then makes the report and its signature,
or sets FAIL and writes nothing (R396, R265). That the engine translates the whole buffer before it writes is the model's choice (log 47). -/
def Obligations.AttestWrite : Prop :=
  (∀ (c : Ctl) (o : SC) (s : State), s.enabled c = true → o.csr = 0xCF8 → 1 ≤ s.core.pl.toNat →
    let a := s.getX o.xa.toNat
    let old := s.readCsr 0xCF8
    ((s.csr 0xCF8).getLsbD 0 = true → exec (.attreqWrite c o) s = .next (s.putX o.xd.toNat old 1)) ∧
    ((s.csr 0xCF8).getLsbD 0 = false → exec (.attreqWrite c o) s = .next ({ s.setCsr 0xCF8 1 with
      att := some ⟨s.die, s.core.asid, s.core.part, s.core.pl.toNat, a.toNat⟩ }.putX o.xd.toNat old 1))) ∧
  (∀ s : State, s.att = none → s.attMove = .next s) ∧
  ∀ (s : State) (r : AttReq), s.att = some r →
    let done (fail : Bool) (t : State) : State := { t.setCsr 0xCF8 (if fail then 2 else 0) with att := none }
    ((r.va % 64 ≠ 0 ∨ 2 ^ 52 ≤ r.va) → s.attMove = .next (done true s)) ∧
    (r.va % 64 = 0 → r.va < 2 ^ 52 → inHost r.va = false →
      (∀ s1, xlateRun attAgent r.die r.asid r.va 1024 s = .ok (none, s1) → s.attMove = .next (done true s1)) ∧
      ∀ pa tag n ls s1, xlateRun attAgent r.die r.asid r.va 1024 s = .ok (some ((.dev pa tag, n) :: ls), s1) →
        let p := if r.pl = 2 then (s1.rdByte tag (pa + 2)).toNat else r.part
        let nonce := (s1.rdBytes tag pa 48).drop 16
        ((s1.poisoned pa 48 ≠ none ∨ 16 < p) → s.attMove = .next ((done true s1).dropGiven attAgent)) ∧
        (s1.poisoned pa 48 = none → p ≤ 16 → ∃ s2, attWrite ((.dev pa tag, n) :: ls) p nonce s1 = .ok ((), s2) ∧
          s.attMove = .next ((done false s2).dropGiven attAgent) ∧
          (ls = [] → n = 1024 → ∃ sig : List Byte, sig.length = 384 ∧
            let s3 := s1.engStore 5 0 0 (.dev pa tag) (s1.reportBytes p nonce)
            s2 = s3.engStore 5 0 0 (.dev (pa + 512) tag) sig [⟨.engine, 4, s3.madeSince s1⟩] true)))

/-- TRAP and ERET at their issue (R269, R270). -/
def Obligations.TrapIssue : Prop :=
  ∀ (c : Ctl) (o : ST) (s : State), s.enabled c = true →
    (s.core.pl.toNat < 2 → s.tvec (s.core.pl.toNat + 1) ≠ 0 → exec (.trap c o) s = .next (s.onIssue fun i => { i with after := .trap o.code })) ∧
    (s.core.pl.toNat = 2 → Faults (.trap c o) s ⟨0x02, 0, 0, 0⟩) ∧
    (s.core.pl.toNat < 2 → s.tvec (s.core.pl.toNat + 1) = 0 → Faults (.trap c o) s ⟨0x10, 0x1, 0, BitVec.ofNat 192 (2 ^ 53)⟩) ∧
    (s.core.pl = 1 → s.core.estat1.getLsbD 2 = true → exec (.eret c o) s = .next (s.onIssue fun i => { i with after := .eret })) ∧
    (s.core.pl = 2 → s.core.estat2.getLsbD 2 = true → exec (.eret c o) s = .next (s.onIssue fun i => { i with after := .eret })) ∧
    (s.core.pl = 0 → Faults (.eret c o) s ⟨0x03, 0, 0, 0⟩) ∧
    (s.core.pl = 1 → s.core.estat1.getLsbD 2 = false → Faults (.eret c o) s ⟨0x02, 0, 0, 0⟩) ∧
    (s.core.pl = 2 → s.core.estat2.getLsbD 2 = false → Faults (.eret c o) s ⟨0x02, 0, 0, 0⟩)

/-- What the entry of a TRAP saves and where it goes (R229, R236, R240, R267, R269, R360). -/
def Obligations.TrapEntry : Prop :=
  ∀ (s : State) (code : BitVec 16), s.core.pl.toNat < 2 →
    let n := s.core.pl.toNat + 1
    let k := s.core.drainAll
    let t := s.enterTrap code
    let e := t.core
    t = s.setCore e ∧ e.pl.toNat = n ∧ e.pc = BitVec.ofNat 52 (s.csr (0x020 + (if n = 1 then s.core.part else 16))).toNat ∧
    e.asid = (s.csr (0x070 + (if n = 1 then s.core.part else 16))).toNat % 1024 ∧
    e.slots = List.replicate 5 ⟨false, 0, []⟩ ∧ e.y = List.replicate 4 ⟨0, 0, 0⟩ ∧ e.fmts = [] ∧ e.pend = [] ∧
    e.x = k.x ∧ e.v = k.v ∧ e.p = k.p ∧ e.f = s.core.f ∧ e.sp = k.sp ∧ e.tiles = s.core.tiles ∧ e.streams = s.core.streams ∧
    (n = 1 → e.epc1 = s.core.pc.setWidth 64 ∧ e.estat1 = 4 ∧ e.ecause1 = BitVec.ofNat 64 (0x50 + 2 ^ 16 * code.toNat) ∧
      e.trap1.slots = s.core.slots ∧ e.trap1.fmts = s.core.fmts.map (fun w => { w with at_ := w.at_ - s.core.issueNo }) ∧
      e.epc2 = s.core.epc2 ∧ e.estat2 = s.core.estat2 ∧ e.ecause2 = s.core.ecause2 ∧ e.trap2 = s.core.trap2) ∧
    (n = 2 → e.epc2 = s.core.pc.setWidth 64 ∧ e.estat2 = 5 ∧ e.ecause2 = BitVec.ofNat 64 (0x50 + 2 ^ 16 * code.toNat) ∧
      e.trap2.slots = s.core.slots ∧ e.trap2.fmts = s.core.fmts.map (fun w => { w with at_ := w.at_ - s.core.issueNo }) ∧
      e.epc1 = s.core.epc1 ∧ e.estat1 = s.core.estat1 ∧ e.ecause1 = s.core.ecause1 ∧ e.trap1 = s.core.trap1)

/-- An ERET right after the entry of a TRAP gives back what the TRAP took (R240, R269, R270). -/
def Obligations.TrapReturn : Prop :=
  ∀ (s : State) (code : BitVec 16), s.core.pl.toNat < 2 → s.core.asid = s.levelAsid s.core.pl.toNat →
    (∀ w ∈ s.core.fmts, s.core.issueNo ≤ w.at_) →
    let k := s.core.drainAll
    let t := (s.enterTrap code).leaveTrap
    let e := t.core
    t = s.setCore e ∧ e.pl = s.core.pl ∧ e.asid = s.core.asid ∧ e.pc = s.core.pc ∧ e.slots = s.core.slots ∧ e.fmts = s.core.fmts ∧
    e.y = k.y ∧ e.x = k.x ∧ e.v = k.v ∧ e.p = k.p ∧ e.f = s.core.f ∧ e.sp = k.sp ∧ e.streams = s.core.streams ∧
    (s.core.pl = 0 → e.estat1 = 0 ∧ e.estat2 = s.core.estat2 ∧ e.epc2 = s.core.epc2) ∧
    (s.core.pl = 1 → e.estat2 = 1 ∧ e.estat1 = s.core.estat1 ∧ e.epc1 = s.core.epc1)

/-- Privileged operations from a lower level raise PRIVILEGE and change nothing (R271, R279). -/
def Obligations.Privilege : Prop :=
  ∀ (c : Ctl) (o : SR) (s : State), s.enabled c = true →
    (s.core.pl = 0 → ∀ mk ∈ ([.mcld, .mcst, .kset, .ringf, .dispatchResume, .dispatchTerminate, .dispatchContinue, .sigwaitHalt, .sigwaitArm,
        .tlbinvAsid, .tlbinvPages, .tlbinvPartition, .useal, .pcfgGmapMap, .pcfgGmapUnmap] : List (Ctl → SR → Instr)),
      Faults (mk c o) s ⟨0x03, 0, 0, 0⟩) ∧
    (s.core.pl.toNat < 2 → ∀ mk ∈ ([.pcfgCreate, .pcfgQuotaGrant, .pcfgQuotaRevoke, .pcfgCal, .pcfgBand, .pcfgSlice, .pcfgStateDrain,
        .pcfgStateScrub, .pcfgStateRelease, .pcfgStateActive, .pcfgDestroy] : List (Ctl → SR → Instr)),
      Faults (mk c o) s ⟨0x03, 0, 0, 0⟩)

/-- Loads: where they complete, what they deliver, where they raise MISALIGN; in the host window the data that the host has delivered, or else a
read sent to the host and a wait (R2, R48, R97, R121, R141, R325, R326, R327, R328, R329). -/
def Obligations.Loads : Prop :=
  ∀ (c : Ctl) (o : SM) (s : State), s.enabled c = true →
    let va := s.smAddr o
    va = (s.getX o.xa.toNat + o.off.signExtend 64).toNat % 2 ^ 52 ∧
    (∀ e ∈ ([(.ldb, 1, true), (.ldbu, 1, false), (.ldh, 2, true), (.ldhu, 2, false), (.ldw, 4, true), (.ldwu, 4, false),
        (.ldd, 8, false)] : List ((Ctl → SM → Instr) × Nat × Bool)),
      let n := e.2.1
      let x (bs : List Byte) : Dword :=
        if e.2.2 then (BitVec.ofNat (8 * n) (ofBytes bs)).signExtend 64 else (BitVec.ofNat (8 * n) (ofBytes bs)).setWidth 64
      (o.ord = 0 → (va % n = 0 ∨ meetsHost va n = false) → ∀ bs s1, loadBytes va n s = .ok (bs, s1) →
        exec (e.1 c o) s = .next (s1.putX o.xd.toNat (x bs) 1)) ∧
      (o.ord ≠ 0 → va % n = 0 → ∀ bs g s1, loadEvent va n s.endRegion = .ok ((bs, g), s1) →
        exec (e.1 c o) s = .next ((s1.acquire o.scope.toNat g).putX o.xd.toNat (x bs) 1)) ∧
      (va % n ≠ 0 → (o.ord ≠ 0 ∨ meetsHost va n = true) → Faults (e.1 c o) s ⟨0x05, 0, 0, BitVec.ofNat 192 va⟩) ∧
      (va % n = 0 → inHost va = true →
        let key := hostKey s.core.asid va n 3
        (o.ord = 0 →
          (∀ bs, s.hostGiven s.cur key = some bs → exec (e.1 c o) s = .next (s.putX o.xd.toNat (x bs) 1)) ∧
          (s.hostGiven s.cur key = none →
            (∀ q, askedHost s key = some q → exec (e.1 c o) s = .next (s.recStall (.host q.id) [])) ∧
            (askedHost s key = none → ∀ fn pasid addr xaddr s1, xlateTask va .read s = .ok (.host fn pasid addr xaddr, s1) →
              exec (e.1 c o) s = .next (s.recStall (.host s1.nextId) (hostPosts s1 fn pasid addr xaddr n 3 0 0 key))))) ∧
        (o.ord ≠ 0 →
          (∀ bs, s.endRegion.hostGiven s.cur key = some bs →
            exec (e.1 c o) s = .next ((s.endRegion.acquire o.scope.toNat ⟨[], []⟩).putX o.xd.toNat (x bs) 1)) ∧
          (s.endRegion.hostGiven s.cur key = none → askedHost s.endRegion key = none →
            ∀ fn pasid addr xaddr s1, xlateTask va .read s.endRegion = .ok (.host fn pasid addr xaddr, s1) →
              exec (e.1 c o) s = .next (s.recStall (.host s1.nextId) (.region :: hostPosts s1 fn pasid addr xaddr n 3 0 0 key)))))) ∧
    (∀ n pa tag s1, 0 < n → va % 64 + n ≤ 64 → pa % 64 = va % 64 → xlateTask va .read s = .ok (.dev pa tag, s1) →
      s1.poison = [] → (s1.coreAt (s1.l1Home pa)).l1 = [] → s1.core.held = [] → s1.core.ntq = [] → s1.hist = [] → s1.cxl = [] →
      loadBytes va n s = .ok (s1.rdBytes tag pa n, s1.l1Fill tag pa []) ∧ loadEvent va n s = .ok ((s1.rdBytes tag pa n, ⟨[], []⟩), s1.l1Fill tag pa []))

/-- Stores: where they complete, also across two pages and in the host window, which bytes they write or send, what they leave alone (R2, R48, R117,
R118, R127, R141, R325, R326, R327, R328, R329, R330, R378). -/
def Obligations.Stores : Prop :=
  ∀ (c : Ctl) (o : SM) (s : State), s.enabled c = true →
    let va := s.smAddr o
    ∀ e ∈ ([(.stb, 1, false), (.sth, 2, false), (.stw, 4, false), (.std, 8, false), (.stnt, 8, true)] :
        List ((Ctl → SM → Instr) × Nat × Bool)),
      let n := e.2.1
      let nt := e.2.2
      let v (i : Nat) : Byte := (s.getX o.xd.toNat).extractLsb' (8 * i) 8
      let part (s1 : State) (rel : Option Nat) (pa : Nat) (tag : LineTag) (off m : Nat) : Held :=
        ⟨(List.range m).map fun i => (pa + i, v (off + i)), tag, none, s1.core.asid, nt, s1.writeRels rel, va % n != 0⟩
      let h (s1 : State) (rel : Option Nat) (pa : Nat) (tag : LineTag) : Held := part s1 rel pa tag 0 n
      let hw (s1 : State) (rel : Option Nat) (fn pasid addr xaddr : Nat) : Held :=
        ⟨(List.range n).map fun i => (addr + i, v i), .plain, some ⟨fn, pasid, addr / 4096, xaddr / 4096⟩, s1.core.asid, nt, s1.writeRels rel, false⟩
      (o.ord = 0 → (va % n = 0 ∨ (meetsHost va n = false ∧ nt = false)) → ∀ pa tag s1, va % 65536 + n ≤ 65536 →
        xlateTask va .write s = .ok (.dev pa tag, s1) → (∀ w ∈ s1.watchHits pa n, s1.watchMc w ≠ s1.core.mcid) →
        exec (e.1 c o) s = .next (s1.storeEvent nt (h s1 none pa tag))) ∧
      (o.ord ≠ 0 → va % n = 0 → ∀ pa tag s1, xlateTask va .write s.endRegion = .ok (.dev pa tag, s1) →
        (∀ w ∈ s1.watchHits pa n, s1.watchMc w ≠ s1.core.mcid) →
        exec (e.1 c o) s = .next (s1.storeEvent nt (h s1 (if nt then none else some o.scope.toNat) pa tag))) ∧
      (va % n ≠ 0 → (o.ord ≠ 0 ∨ meetsHost va n = true ∨ nt = true) → Faults (e.1 c o) s ⟨0x05, 0, 0, BitVec.ofNat 192 (va + 2 ^ 52)⟩) ∧
      (o.ord = 0 → meetsHost va n = false → nt = false → let m := 65536 - va % 65536
        m < n → ∀ pa tag s1 pb tagB s2, xlateTask va .write s = .ok (.dev pa tag, s1) →
          xlateTask ((va + m) % 2 ^ 52) .write s1 = .ok (.dev pb tagB, s2) →
          (∀ w ∈ s2.watchHits pa m ++ s2.watchHits pb (n - m), s2.watchMc w ≠ s2.core.mcid) →
          let s3 := s2.storeEvent false (part s2 none pa tag 0 m)
          exec (e.1 c o) s = .next (s3.storeEvent false (part s3 none pb tagB m (n - m)))) ∧
      (va % n = 0 → inHost va = true →
        (o.ord = 0 → ∀ fn pasid addr xaddr s1, xlateTask va .write s = .ok (.host fn pasid addr xaddr, s1) →
          exec (e.1 c o) s = .next (s1.storeEvent nt (hw s1 none fn pasid addr xaddr))) ∧
        (o.ord ≠ 0 → ∀ fn pasid addr xaddr s1, xlateTask va .write s.endRegion = .ok (.host fn pasid addr xaddr, s1) →
          exec (e.1 c o) s = .next (s1.storeEvent nt (hw s1 (if nt then none else some o.scope.toNat) fn pasid addr xaddr)))) ∧
      (∀ (rel : Option Nat) (fn pasid addr xaddr : Nat) (s1 : State), s1.core.restart = false → s1.core.ntq = [] →
        ∃ relaxed : Bool, (rel = some 4 → relaxed = false) ∧ s1.storeEvent false (hw s1 rel fn pasid addr xaddr) =
          { s1 with out := .hostWrite fn (xaddr / 4096 * 4096 + addr % 4096) ((List.range n).map v) false relaxed :: s1.out }) ∧
      (∀ (pa : Nat) (tag : LineTag) (rel : Option Nat) (s1 : State), s1.core.restart = false → s1.core.ntq = [] →
        (∀ w, w < 8 → (s1.csr (0xC98 + w)).getLsbD 0 = false) →
        let t := s1.storeEvent false (h s1 rel pa tag)
        (∀ i, i < n → t.mem.read (pa + i) = v i) ∧
        (∀ a, (∀ i, i < n → a / 64 ≠ (pa + i) / 64) → t.mem.read a = s1.mem.read a) ∧
        ((∀ i, i < n → s1.lineTagOf (pa + i) = tagAt tag (pa + i)) →
          ∀ a, (a < pa ∨ pa + n ≤ a) → t.mem.read a = s1.mem.read a) ∧
        (∀ m, t.coreAt m = { s1.coreAt m with
          l1 := (t.coreAt m).l1, view := (t.coreAt m).view, wait := (t.coreAt m).wait,
          issue := { (s1.coreAt m).issue with woken := (t.coreAt m).issue.woken } }) ∧
        (∀ i, i < n → ∃ w ∈ t.hist, s1.writes ≤ w.id ∧ w.tag = tag ∧ w.rels = s1.writeRels rel ∧ ∃ old, (pa + i, old) ∈ w.cells) ∧
        t = { s1 with mem := t.mem, lineTag := t.lineTag, cores := t.cores, hist := t.hist, writes := t.writes, cxl := t.cxl, vclock := t.vclock })

/-- AMO, CAS and RED: the old value, the new value, and the word in memory; in the host window the AtomicOp that is sent to the host, and its result
(R97, R119, R121, R141, R325, R327, R332, R333). -/
def Obligations.Atomics : Prop :=
  (∀ (c : Ctl) (o : SA) (s : State), s.enabled c = true →
    let n := if o.sz = 0 then 4 else 8
    let va := (s.endRegion.getX o.xa.toNat).toNat % 2 ^ 52
    let b := (s.endRegion.getX o.xb.toNat).toNat % 2 ^ (8 * n)
    let e := (s.endRegion.getX o.xc.toNat).toNat % 2 ^ (8 * n)
    (∀ pa tag s1, va % n = 0 → inHost va = false → xlateTask va .write s.endRegion = .ok (.dev pa tag, s1) →
      let s2 := s1.drainNt
      s2.poisoned pa n = none →
      let s3 := (s2.pooledAtomic pa).taskRefresh pa n
      s3.core.held = [] → s3.core.ntq = [] →
      let old := s3.rdLE tag pa n
      let g := s3.gotHome tag pa n
      let s4 := s3.saw g
      let rels := s4.writeRels (if o.ord = 2 ∨ o.ord = 3 then some o.scope.toNat else none) ++ g.rels
      let acq (t : State) : State := if o.ord = 1 ∨ o.ord = 3 then t.acquire o.scope.toNat g else t
      exec (.amo c o) s =
        .next ((acq (s4.atomicWrite tag pa (amoNew o.aop.toNat (8 * n) old b) n rels)).putX o.xd.toNat (BitVec.ofNat 64 old) 1) ∧
      (old = e → exec (.cas c o) s = .next ((acq (s4.atomicWrite tag pa b n rels)).putX o.xd.toNat (BitVec.ofNat 64 old) 1)) ∧
      (old ≠ e → exec (.cas c o) s = .next ((acq (s4.l1Drop pa)).putX o.xd.toNat (BitVec.ofNat 64 old) 1)) ∧
      exec (.red c o) s = .next (s3.atomicWrite tag pa (amoNew o.aop.toNat (8 * n) old b) n
        (s3.writeRels (if o.ord = 2 ∨ o.ord = 3 then some o.scope.toNat else none) ++ g.rels))) ∧
    (va % n ≠ 0 → ∀ mk ∈ ([.amo, .cas, .red] : List (Ctl → SA → Instr)),
      exec (mk c o) s = .next (s.recFault ⟨0x05, 0, 0, BitVec.ofNat 192 (va + 2 ^ 52)⟩ [.region])) ∧
    (va % n = 0 → inHost va = true →
      exec (.red c o) s = .next (s.recFault ⟨0x14, 0x8, 0, BitVec.ofNat 192 (va + 2 ^ 52)⟩ [.region]) ∧
      (o.aop ≠ 0 → o.aop ≠ 8 → exec (.amo c o) s = .next (s.recFault ⟨0x14, 0x8, 0, BitVec.ofNat 192 (va + 2 ^ 52)⟩ [.region])) ∧
      (∀ f ∈ ([(.cas c o, 2, BitVec.ofNat 64 e, BitVec.ofNat 64 b)] ++ (if o.aop = 0 then [(.amo c o, 0, BitVec.ofNat 64 b, 0)] else []) ++
          (if o.aop = 8 then [(.amo c o, 1, BitVec.ofNat 64 b, 0)] else []) : List (Instr × Nat × Dword × Dword)),
        let s0 := s.endRegion
        let key := hostKey s0.core.asid va n f.2.1
        (∀ bs, s0.hostGiven s.cur key = some bs → exec f.1 s =
          .next ((if o.ord = 1 ∨ o.ord = 3 then s0.acquire o.scope.toNat ⟨[], []⟩ else s0).putX o.xd.toNat (BitVec.ofNat 64 (ofBytes bs)) 1)) ∧
        (s0.hostGiven s.cur key = none → (∀ q, askedHost s0 key = some q → exec f.1 s = .next (s.recStall (.host q.id) [.region])) ∧
          (askedHost s0 key = none → ∀ fn pasid addr xaddr s1, xlateTask va .write s0 = .ok (.host fn pasid addr xaddr, s1) →
            s1.core.issue.faults = [] → s1.core.issue.stall = none → s1.core.endFaults = [] →
            (∀ d ∈ s1.core.issue.dests, d.2 ≠ (.x, o.xd.toNat)) →
            exec f.1 s = .next (s.recStall (.host s1.nextId) (.region :: hostPosts s1 fn pasid addr xaddr n f.2.1 f.2.2.1 f.2.2.2 key))))))) ∧
  (∀ w, w = 32 ∨ w = 64 → ∀ a b : BitVec w,
    amoNew 0 w a.toNat b.toNat = (a + b).toNat ∧ amoNew 1 w a.toNat b.toNat = (a &&& b).toNat ∧
    amoNew 2 w a.toNat b.toNat = (a ||| b).toNat ∧ amoNew 3 w a.toNat b.toNat = (a ^^^ b).toNat ∧
    amoNew 4 w a.toNat b.toNat = (BitVec.ofInt w (min a.toInt b.toInt)).toNat ∧
    amoNew 5 w a.toNat b.toNat = (BitVec.ofInt w (max a.toInt b.toInt)).toNat ∧
    amoNew 6 w a.toNat b.toNat = min a.toNat b.toNat ∧ amoNew 7 w a.toNat b.toNat = max a.toNat b.toNat ∧
    amoNew 8 w a.toNat b.toNat = b.toNat) ∧
  (∀ a b : BitVec 32, amoNew 9 32 a.toNat b.toNat = (faddRne a b).toNat)

/-- FENCE, DRAINNT and WAITA; a write to the line of a sleeping WAITA has its condition evaluated and wakes the task where it holds; no read goes
behind a write older than the frame before (R98, R99, R115, R127, R131, R331, R334). -/
def Obligations.FencesWaits : Prop :=
  (∀ (c : Ctl) (o : SY) (s : State), s.enabled c = true →
    (o.kind = 1 → exec (.fence c o) s = .next (s.endRegion.acquireFence o.lvl.toNat)) ∧
    (o.kind = 2 → exec (.fence c o) s = .next (s.endRegion.releaseFence o.lvl.toNat)) ∧
    (o.kind = 3 → exec (.fence c o) s = .next (s.endRegion.fullFence o.lvl.toNat)) ∧
    exec (.drainnt c o) s = .next (s.endRegion.drainFence o.lvl.toNat) ∧
    (∀ w g r z s1, waitWord o s.endRegion = .ok ((w, g, r, z), s1) →
      (waitCond o.kind.toNat w (s.endRegion.getX o.xb.toNat) = true →
        exec (.waita c o) s = .next (((s1.acquire o.lvl.toNat g).learn (r.elim [] (·.view))).putX o.xd.toNat w 1)) ∧
      (waitCond o.kind.toNat w (s.endRegion.getX o.xb.toNat) = false → exec (.waita c o) s = .next (s.recStall (.waita z) [.region])))) ∧
  (∀ (s : State) (line : Nat → Bool) (m : Nat) (k : Core) (z : Sleep), (m, k) ∈ s.cores → k.wait = some (.waita z) →
    let v := BitVec.ofNat 64 (s.rdLE z.tag z.place 8)
    (z.pad = false → line (z.place / 64) = true → waitCond z.kind v z.x = true →
      (m, { k with wait := none, issue := { k.issue with woken := some ⟨z, v, s.writes, none⟩ } }) ∈ (s.wakeLines line).cores) ∧
    ((z.pad = true ∨ line (z.place / 64) = false ∨ waitCond z.kind v z.x = false) → (m, k) ∈ (s.wakeLines line).cores)) ∧
  (∀ t : State, t.acquire 0 ⟨[], []⟩ = t ∧ t.dropL1 0 = t ∧
    (t.core.fused = false → ∀ n, 1 ≤ n → t.dropL1 n = t.setCore { t.core with l1 := [] }) ∧
    (∀ n g r i, r ∈ g.rels → r.meets t.me n = true → i ∈ r.view → (∃ w ∈ t.hist, w.id = i) → i ∈ (t.acquire n g).core.view.seen) ∧
    (∀ n i, (∃ w ∈ t.hist, w.id = i) → i ∈ t.core.view.seen → i ∉ t.core.view.nt →
      ∃ r ∈ (t.releaseFence n).core.view.rels, r.agent = t.me ∧ r.scope = n ∧ i ∈ r.view) ∧
    (∀ (seen : List Nat) (who : Nat) (tag : LineTag) (pa n : Nat), ∀ i ∈ (t.readAtom seen who tag pa n).missed, i ∉ seen ∧
      ∃ w ∈ t.hist, w.id = i ∧ t.frame ≤ w.frame + 1)) ∧
  (∀ w b : Dword, (waitCond 0 w b = true ↔ w = b) ∧ (waitCond 1 w b = true ↔ w ≠ b) ∧ (waitCond 2 w b = true ↔ b.toNat ≤ w.toNat) ∧
    (waitCond 3 w b = true ↔ b.toInt ≤ w.toInt) ∧ (waitCond 4 w b = true ↔ ∃ i, w.getLsbD i = true ∧ b.getLsbD i = true))

/-- ENQ, to an MC of this package and to a peer, EXIT and EXIT.S (R158, R159, R160, R161, R335, R336, R414). -/
def Obligations.EnqueueExit : Prop :=
  ∀ (c : Ctl) (o : SY) (s : State), s.enabled c = true →
    let s0 := s.endRegion
    let xb := (s0.getX o.xb.toNat).toNat
    let pk := s0.enqPacket o.xa.toNat
    (∀ i, i < 8 → pk.extractLsb' (64 * i) 64 = s0.getX (o.xa.toNat + i)) ∧
    (∀ st s1, xb < 256 → s0.push (packetMc pk) (s0.mcPart (packetMc pk) == s0.core.part) (withSrc pk 0) s0.before = (st, s1) →
      exec (.enq c o) s = .next
        ((s1.putX o.xd.toNat (BitVec.ofNat 64 st) 1).putP o.pd.toNat (if st ≤ 1 then BitVec.allOnes 128 else 0) 1)) ∧
    (256 ≤ xb → xb < 512 → s0.core.issue.faults = [] → s0.core.issue.stall = none → s0.core.endFaults = [] →
      (∀ d ∈ s0.core.issue.dests, d.2 ≠ (.x, o.xd.toNat)) →
      ((s0.fabV = false ∨ .peer (xb - 256) ∈ s0.linksDown) →
        exec (.enq c o) s = .next ((s0.putX o.xd.toNat 0x10 1).putP o.pd.toNat 0 1)) ∧
      (s0.fabV = true → .peer (xb - 256) ∉ s0.linksDown →
        (∀ g st l, (s0.given.find? fun g => g.agent = s0.cur ∧ g.key = 64) = some g → g.data = 1 :: st :: l →
          exec (.enq c o) s = .next (((s0.dropGiven s0.cur).putX o.xd.toNat (BitVec.ofNat 64 st.toNat) 1).putP o.pd.toNat
            (if st.toNat ≤ 1 then BitVec.allOnes 128 else 0) 1)) ∧
        ((s0.given.find? fun g => g.agent = s0.cur ∧ g.key = 64) = none →
          exec (.enq c o) s = .next (s.recStall .other [.region, .peer s0.cur (xb - 256) 64 (toBytes 64 (withSrc pk 3).toNat)])))) ∧
    (512 ≤ xb → exec (.enq c o) s = .next (s.recFault ⟨0x02, 0, 0, 0⟩ [.region])) ∧
    (∀ s1, leaveUnits s0 = .ok ((), s1) →
      exec (.exit c o) s = .next (s1.onIssue fun i => { i with after := .exit }) ∧
      exec (.exitS c o) s = .next (s1.onIssue fun i =>
        { i with after := .exitS (s0.getX o.xa.toNat) ((List.range 7).map fun j => s0.getX (j + 1)) (s0.core.pc.toNat / 65536) })) ∧
    (s0.core.maps = [] → s0.core.streams = [] → s0.core.ntq = [] →
      ∃ s1, leaveUnits s0 = .ok ((), s1) ∧ s1.core = { s0.core with view := s1.core.view } ∧ s1.mem = s0.mem ∧ s1.csrs = s0.csrs)

/-- BAR.ARR, BAR.WAIT and BAR.TRY (R154, R155, R156, R337). -/
def Obligations.Barriers : Prop :=
  ∀ (c : Ctl) (o : SY) (s : State), s.enabled c = true →
    let s0 := s.endRegion
    let m := s0.core.mcid
    let r := s0.core.rank
    let l := o.lvl.toNat
    let s1 := if (s0.barOf m l r).hasArrived (64 * m + r) then s0 else s0.arrive m l r 0 s0.before
    let ps : List Post := if (s0.barOf m l r).hasArrived (64 * m + r) then [] else [.arrive m l r]
    (s0.member l = true → exec (.barArr c o) s = .next (s0.arrive m l r (s0.getX o.xa.toNat) s0.before)) ∧
    (s0.member l = false → exec (.barArr c o) s = .next s0 ∧ exec (.barWait c o) s = .next s0 ∧
      exec (.barTry c o) s = .next (s0.putP o.pd.toNat (BitVec.allOnes 128) 1)) ∧
    (s0.member l = true → s1.barUnder m l r = true →
      exec (.barWait c o) s = .next (s.recFault ⟨0x07, 0, 0, 0⟩ (.region :: (ps ++ [.under m l r]))) ∧
      exec (.barTry c o) s = .next (s.recFault ⟨0x07, 0, 0, 0⟩ (.region :: (ps ++ [.under m l r])))) ∧
    (s0.member l = true → s1.barUnder m l r = false → s1.barDone m l r = true →
      exec (.barWait c o) s = .next (s1.completeBar l) ∧ exec (.barTry c o) s = .next ((s1.completeBar l).putP o.pd.toNat (BitVec.allOnes 128) 1) ∧
      ∀ i ∈ (s1.barOf m l r).view, (∃ w ∈ s1.hist, w.id = i) → i ∈ (s1.completeBar l).core.view.seen) ∧
    (s0.member l = true → s1.barUnder m l r = false → s1.barDone m l r = false →
      exec (.barWait c o) s = .next (s.recStall .bar (.region :: ps)) ∧ exec (.barTry c o) s = .next (s1.putP o.pd.toNat 0 1))

/-- MCLD, MCST, KSET, RINGF and USEAL end with their result words; an MCB under an uncorrectable error faults MCLD and MCST (R148, R149, R271, R272,
R273, R274, R278, R416). The model's choices: USEAL of a partition that does not exist gives 0x07 (log 51), the bits of an image that the spec does
not name are stored as zero (log 45), every MCST with a non-zero STEEPBASE starts a list (log 90). -/
def Obligations.McbKeysRings : Prop :=
  ∀ (c : Ctl) (o : SR) (s : State), s.enabled c = true → 1 ≤ s.core.pl.toNat →
    let s0 := s.endRegion.fullFence 3
    let xa := (s.getX o.xa.toNat).toNat
    let xb := (s.getX o.xb.toNat).toNat
    ((2 ^ 14 ≤ xa ∨ 2 ^ 52 ≤ xb ∨ xb % 64 ≠ 0) → Results (.mcld c o) s o.xd s0 0x01 0 ∧ Results (.mcst c o) s o.xd s0 0x01 0) ∧
    (xa < 2 ^ 14 → xb < 2 ^ 52 → xb % 64 = 0 →
      (s0.reachesMc xa = false → Results (.mcld c o) s o.xd s0 0x03 0 ∧ Results (.mcst c o) s o.xd s0 0x03 0) ∧
      (s0.reachesMc xa = true → s0.frameOk (s0.mcbPa xa) = true → ∀ l, s0.poisoned (s0.mcbPa xa) 256 = some l →
        exec (.mcld c o) s = .next (s.recFault (uncorrectable l) [.region]) ∧ exec (.mcst c o) s = .next (s.recFault (uncorrectable l) [.region])) ∧
      (s0.reachesMc xa = true → s0.frameOk (s0.mcbPa xa) = true → s0.poisoned (s0.mcbPa xa) 256 = none →
        (∀ t, storeBytes xb (toBytes 256 (s0.mcb xa)) false none s0 = .ok ((), t) → Results (.mcld c o) s o.xd t 0 0) ∧
        (∀ bs t, loadBytes xb 256 s0 = .ok (bs, t) →
          let img := ofBytes bs
          let v := mcbImage img (t.mcb xa)
          Results (.mcst c o) s o.xd (t.mcst xa img).2 (t.mcst xa img).1 0 ∧
          (t.mcbMalformed xa v = true → Results (.mcst c o) s o.xd t 0x01 0) ∧
          (t.mcbMalformed xa v = false → t.mcState xa ≠ 2 → t.mcState xa ≠ 5 → t.hitching xa = false →
            (mcstMoves (t.mcState xa) (v % 16) = false → Results (.mcst c o) s o.xd t 0x07 0) ∧
            (t.mcState xa = 1 → v % 16 = 1 → Results (.mcst c o) s o.xd ((t.setMcb xa v).startSteep xa) 0 0))))) ∧
    ((2 ^ 10 ≤ xa ∨ 2 ^ 52 ≤ xb) → Results (.kset c o) s o.xd s0 0x01 0) ∧
    (xa < 2 ^ 10 → xb < 2 ^ 52 → s0.reachesAsid xa = false → Results (.kset c o) s o.xd s0 0x03 0) ∧
    (xa < 2 ^ 10 → s0.reachesAsid xa = true →
      (xb = 0 → FMap.get 0 s0.kvCount xa ≠ 0 → Results (.kset c o) s o.xd s0 0x02 0) ∧
      (xb = 0 → FMap.get 0 s0.kvCount xa = 0 → ∃ key, Results (.kset c o) s o.xd (s0.rekey xa key) 0 0) ∧
      (xb ≠ 0 → xb < 2 ^ 52 → ∀ bs t, loadBytes xb 96 s0 = .ok (bs, t) →
        (FMap.get 0 s0.kvCount xa ≠ 0 → Results (.kset c o) s o.xd t 0x02 0) ∧
        (FMap.get 0 s0.kvCount xa = 0 → Results (.kset c o) s o.xd (t.rekey xa (BitVec.ofNat 768 (ofBytes bs))) 0 0))) ∧
    ((2 ^ 14 ≤ xa ∨ 2 ^ 16 ≤ xb) → Results (.ringf c o) s o.xd s0 0x01 0) ∧
    (xa < 2 ^ 14 → xb < 2 ^ 16 → s0.reachesMc xa = false → Results (.ringf c o) s o.xd s0 0x03 0) ∧
    (xa < 2 ^ 14 → xb < 2 ^ 16 → s0.reachesMc xa = true → s0.frameOk (s0.mcbPa xa) = true →
      (xb = 0 → Results (.ringf c o) s o.xd s0 0 (2 ^ 16 * 0xFF)) ∧
      (∀ n last t, ringfGo xa xb 0 0xFF s0 = .ok ((n, last), t) → Results (.ringf c o) s o.xd t 0 (n + 2 ^ 16 * last))) ∧
    (let p := if s0.core.pl = 2 then xa else s0.core.part
     ((32 ≤ xa ∨ 16 < p) → Results (.useal c o) s o.xd s0 0x01 0) ∧
     (xa < 32 → p < 16 → s0.partExists p = false → Results (.useal c o) s o.xd s0 0x07 0) ∧
     (xa < 32 → (p = 16 ∨ (p < 16 ∧ s0.partExists p = true)) →
       Results (.useal c o) s o.xd (s0.sealUsage p true false) 0 ((s0.sealOf p).seqno % 2 ^ 56)))

/-- DISPATCH, SIGWAIT and TLBINV: where each has its effect and ends with status 0, and what its other statuses mean (R23, R25, R52, R96, R271,
R275, R276, R277). The model's choices: stores that may have used a removed translation are performed first, and a host request makes TLBINV wait
(log 52); a halt of a job of which no group is on core takes effect at once (log 84). -/
def Obligations.DispatchSigwaitTlbinv : Prop :=
  ∀ (c : Ctl) (o : SR) (s : State), s.enabled c = true → 1 ≤ s.core.pl.toNat →
    let s0 := s.endRegion.fullFence 3
    let xa := (s.getX o.xa.toNat).toNat
    let xb := (s.getX o.xb.toNat).toNat
    let xc := (s.getX o.xc.toNat).toNat
    let a := xa % 1024
    let g := xb / 16
    (∀ mk ∈ ([.dispatchResume, .dispatchTerminate, .dispatchContinue] : List (Ctl → SR → Instr)),
      ((2 ^ 14 ≤ xa ∨ 2 ^ 6 ≤ xb ∨ 2 < xb % 16) → Results (mk c o) s o.xd s0 0x01 0) ∧
      (xa < 2 ^ 14 → xb < 2 ^ 6 → xb % 16 ≤ 2 → s0.reachesMc xa = false → Results (mk c o) s o.xd s0 0x03 0)) ∧
    (xa < 2 ^ 14 → s0.reachesMc xa = true → s0.frameOk (s0.mcbPa xa) = true →
      (xb < 2 ^ 6 → xb % 16 = 0 →
        (s0.job xa = none → Results (.dispatchResume c o) s o.xd s0 0x07 0) ∧
        (∀ j, s0.job xa = some j →
          ((j.ntg < g ∨ (s0.gplace xa g).2.2 ≠ 2) → Results (.dispatchResume c o) s o.xd s0 0x07 0) ∧
          (g ≤ j.ntg → (s0.gplace xa g).2.2 = 2 → let die := (s0.gplace xa g).1
            ((∃ q ∈ s0.dispq, q.mcid = xa ∧ q.grp = g) → Results (.dispatchResume c o) s o.xd s0 0 0) ∧
            ((∀ q ∈ s0.dispq, ¬(q.mcid = xa ∧ q.grp = g)) → 256 ≤ s0.queued die j.part → Results (.dispatchResume c o) s o.xd s0 0x02 0) ∧
            ((∀ q ∈ s0.dispq, ¬(q.mcid = xa ∧ q.grp = g)) → s0.queued die j.part < 256 → Results (.dispatchResume c o) s o.xd
              { s0 with dispq := s0.dispq ++ [⟨die, j.part, xa, g, (s0.groupImages xa g).filterMap (·.ready)⟩] } 0 0)))) ∧
      (xb < 2 ^ 6 → xb % 16 = 1 →
        (s0.hitching xa = true → Results (.dispatchTerminate c o) s o.xd (s0.endLaunch xa) 0 0) ∧
        (s0.hitching xa = false → s0.job xa = none → Results (.dispatchTerminate c o) s o.xd s0 0x07 0) ∧
        (s0.hitching xa = false → s0.job xa ≠ none → Results (.dispatchTerminate c o) s o.xd (s0.killJob xa) 0 0)) ∧
      (xb < 2 ^ 6 → xb % 16 = 2 →
        ((s0.job xa = none ∨ s0.mcState xa ≠ 5) → Results (.dispatchContinue c o) s o.xd s0 0x07 0) ∧
        (∀ j, s0.job xa = some j → s0.mcState xa = 5 → (∀ d, d < 4 → s0.queued d j.part + j.ntg < 256) →
          ∃ t, Results (.dispatchContinue c o) s o.xd t 0 0 ∧ t.mcState xa = 2 ∧ t.resume = s0.resume ∧
            ∀ h, h ≤ j.ntg → s0.groupImages xa h ≠ [] → s0.resumes xa h = false →
              (⟨(s0.gplace xa h).1, j.part, xa, h, []⟩ : DispReq) ∈ t.dispq))) ∧
    (∀ e ∈ ([(.sigwaitHalt, true), (.sigwaitArm, false)] : List ((Ctl → SR → Instr) × Bool)),
      ((2 ^ 14 ≤ xa ∨ 2 ≤ xb) → Results (e.1 c o) s o.xd s0 0x01 0) ∧
      (xa < 2 ^ 14 → xb < 2 → s0.reachesMc xa = false → Results (e.1 c o) s o.xd s0 0x03 0)) ∧
    (xa < 2 ^ 14 → xb < 2 → s0.reachesMc xa = true → s0.frameOk (s0.mcbPa xa) = true →
      (s0.core.wait ≠ some (.sigwait xa) → ∀ e ∈ ([(.sigwaitHalt, true), (.sigwaitArm, false)] : List ((Ctl → SR → Instr) × Bool)),
        ((s0.job xa = none ∨ (s0.mcState xa ≠ 2 ∧ s0.mcState xa ≠ 5)) → Results (e.1 c o) s o.xd s0 0x07 0) ∧
        (s0.job xa ≠ none → (s0.mcState xa = 2 ∨ s0.mcState xa = 5) → (s0.signalJob xa e.2).mcState xa ≠ 5 →
          (xc = 0 → Results (e.1 c o) s o.xd (s0.signalJob xa e.2) 0x08 0) ∧
          (xc ≠ 0 → s0.core.issue.given = [] → exec (e.1 c o) s = .next (s.recStall (.sigwait xa) [.region, .signal xa e.2])))) ∧
      (s0.core.wait ≠ some (.sigwait xa) → s0.job xa ≠ none →
        (s0.mcState xa = 5 ∨ (s0.mcState xa = 2 ∧ s0.onCoreGroups xa = []) →
          Results (.sigwaitHalt c o) s o.xd (s0.haltJob xa) 0 0 ∧ (s0.haltJob xa).mcState xa = 5) ∧
        (s0.mcState xa = 5 → Results (.sigwaitArm c o) s o.xd (s0.onJob xa fun j => { j with armed := true }) 0 0) ∧
        (s0.mcState xa = 2 → xc = 0 → Results (.sigwaitArm c o) s o.xd (s0.onJob xa fun j => { j with armed := true }) 0x08 0)) ∧
      (s0.core.wait = some (.sigwait xa) → ∀ mk ∈ ([.sigwaitHalt, .sigwaitArm] : List (Ctl → SR → Instr)),
        (s0.mcState xa = 5 → Results (mk c o) s o.xd s0 0 0) ∧
        (s0.mcState xa ≠ 5 → (s0.core.issue.given.any fun q => q.1 == sigwaitKey) = true → Results (mk c o) s o.xd s0 0x08 0))) ∧
    ((2 ^ 12 ≤ xa ∨ 2 ^ 52 ≤ xb) → Results (.tlbinvAsid c o) s o.xd s0 0x01 0 ∧ Results (.tlbinvPages c o) s o.xd s0 0x01 0 ∧
      Results (.tlbinvPartition c o) s o.xd s0 0x01 0) ∧
    (xa / 1024 % 4 = 3 → Results (.tlbinvAsid c o) s o.xd s0 0x01 0) ∧ (xb % 2 ^ 16 ≠ 0 → Results (.tlbinvPages c o) s o.xd s0 0x01 0) ∧
    (xa < 1024 → xb < 2 ^ 52 →
      (s0.reachesAsid a = false → Results (.tlbinvAsid c o) s o.xd s0 0x03 0) ∧
      (s0.reachesAsid a = true → (∃ r ∈ s0.hostReqs, (r.fn, r.pasid) ∈ s0.hostIds [a]) →
        exec (.tlbinvAsid c o) s = .next (s.recStall .other [.region])) ∧
      (s0.reachesAsid a = true → (∀ r ∈ s0.hostReqs, (r.fn, r.pasid) ∉ s0.hostIds [a]) →
        ∃ t, Results (.tlbinvAsid c o) s o.xd t 0 0 ∧ (∀ e ∈ t.tlb, e.asid ≠ a) ∧ (∀ e ∈ t.walks, e.asid ≠ a) ∧
          (∀ e ∈ t.dtc, (e.fn, e.pasid) ∉ s0.hostIds [a]) ∧ (∀ n key, key / 2 ^ 36 = a → (t.coreAt n).ibuf.find? key = none) ∧
          ∀ n, ∀ h ∈ (t.coreAt n).unsent, h.asid ≠ a)) ∧
    (xa / 1024 = 1 → xb < 2 ^ 52 → xb % 2 ^ 16 = 0 → let p := xb / 65536
      let n := xc % 65536 + 1
      (s0.reachesAsid a = false → Results (.tlbinvPages c o) s o.xd s0 0x03 0) ∧
      (s0.reachesAsid a = true →
        (∃ r ∈ s0.hostReqs, (r.fn, r.pasid) ∈ s0.hostIds [a] ∧ runsMeet (16 * 0xF00000000 + r.page) 1 (16 * p) (16 * n) = true) →
        exec (.tlbinvPages c o) s = .next (s.recStall .other [.region])) ∧
      (s0.reachesAsid a = true → (∀ r ∈ s0.hostReqs, (r.fn, r.pasid) ∉ s0.hostIds [a]) →
        ∃ t, Results (.tlbinvPages c o) s o.xd t 0 0 ∧
          (∀ e ∈ t.tlb, e.asid = a → (e.level = 3 → runsMeet e.page 1 p n = false) ∧
            (e.level ≠ 3 → runsMeet (e.page / 4096 * 4096) 4096 p n = false)) ∧
          (∀ e ∈ t.walks, e.asid = a → (e.level = 1 → runsMeet (2 ^ 24 * e.index) (2 ^ 24) p n = false) ∧
            (e.level ≠ 1 → runsMeet (4096 * e.index) 4096 p n = false)) ∧
          (∀ e ∈ t.dtc, (e.fn, e.pasid) ∉ s0.hostIds [a] ∨ runsMeet (16 * 0xF00000000 + e.page) e.pages (16 * p) (16 * n) = false) ∧
          (∀ m key, key / 2 ^ 36 = a → p ≤ key % 2 ^ 36 → key % 2 ^ 36 < p + n → (t.coreAt m).ibuf.find? key = none) ∧
          ∀ m, ∀ h ∈ (t.coreAt m).unsent, h.asid ≠ a)) ∧
    (xa / 1024 = 2 → xb < 2 ^ 52 → (∃ r ∈ s0.hostReqs, (r.fn, r.pasid) ∈ s0.hostIds s0.modeTwo) →
      exec (.tlbinvPartition c o) s = .next (s.recStall .other [.region])) ∧
    (xa / 1024 = 2 → xb < 2 ^ 52 → (∀ r ∈ s0.hostReqs, (r.fn, r.pasid) ∉ s0.hostIds s0.modeTwo) →
      ∃ t, Results (.tlbinvPartition c o) s o.xd t 0 0 ∧ (∀ e ∈ t.tlb, e.asid ∉ s0.modeTwo) ∧ (∀ e ∈ t.walks, e.asid ∉ s0.modeTwo) ∧
        (∀ e ∈ t.dtc, (e.fn, e.pasid) ∉ s0.hostIds s0.modeTwo) ∧ ∀ m, ∀ h ∈ (t.coreAt m).unsent, h.asid ∉ s0.modeTwo) ∧
    (∀ b, b ∈ s0.modeTwo ↔ b < 1024 ∧ (s0.core.pl = 2 ∨ s0.asidPart b = s0.core.part))

/-- PCFG CREATE, DESTROY, QUOTA and STATE end with their result words (R15, R271, R279, R280, R379, R380, R381, R382, R383, R384,
R385). The model's choices: the root's KIND 3 and KIND 6 and a partition's own ASID in QUOTA (log 53); an ACTIVE request reports the phase before
its boundary (log 54); what of SCRUB is done at once (log 55); STATE of a partition that does not exist ends with 0x07 (log 101). -/
def Obligations.PartitionsPhases : Prop :=
  (∀ (c : Ctl) (o : SR) (s s1 : State) (bs : List Byte), s.enabled c = true → s.core.pl = 2 →
    let s0 := s.endRegion.fullFence 3
    let xa := (s.getX o.xa.toNat).toNat
    let xb := (s.getX o.xb.toNat).toNat
    xa < 8 → xb < 2 ^ 52 → xb % 64 = 0 → loadBytes xb 64 s0 = .ok (bs, s1) →
    let d := ofBytes bs
    let p := d % 32
    let a := d / 2 ^ 16 % 1024
    let ph := d / 2 ^ 8 % 8
    (blockOk [(4, 0), (25, 16)] d = true →
      (15 < p → Results (.pcfgCreate c o) s o.xd s1 0x01 0) ∧
      (p ≤ 15 → s1.partExists p = true → Results (.pcfgCreate c o) s o.xd s1 0x07 0) ∧
      (p ≤ 15 → s1.partExists p = false → (a = 0 ∨ s1.asidPart a ≠ 16 ∨ s1.rootNames a = true) →
        Results (.pcfgCreate c o) s o.xd s1 0x06 0) ∧
      (p ≤ 15 → s1.partExists p = false → a ≠ 0 → s1.asidPart a = 16 → s1.rootNames a = false →
        ∃ t, Results (.pcfgCreate c o) s o.xd t 0 0 ∧ t.csr (0x070 + p) = BitVec.ofNat 64 (a + 2 ^ 63) ∧ t.phase p = 0 ∧
          t.grants = s1.grants ∧ (t.sealOf p).seqno = 0 ∧ p ∉ t.hold)) ∧
    (blockOk [(4, 0)] d = true →
      (15 < p → Results (.pcfgDestroy c o) s o.xd s1 0x01 0) ∧
      (p ≤ 15 → (s1.partExists p = false ∨ s1.phase p ≠ 5 ∨ s1.grants.any (·.part == p) = true ∨ s1.csrF (0x0D0 + p) 15 0 ≠ 0 ∨
          s1.partMcs p ≠ []) → Results (.pcfgDestroy c o) s o.xd s1 0x07 0) ∧
      (p ≤ 15 → s1.partExists p = true → s1.phase p = 5 → s1.grants.any (·.part == p) = false → s1.csrF (0x0D0 + p) 15 0 = 0 →
        s1.partMcs p = [] → ∃ t, Results (.pcfgDestroy c o) s o.xd t 0 0 ∧ t.partExists p = false ∧
          t.csrF (0x070 + p) 9 0 = s1.csrF (0x070 + p) 9 0)) ∧
    (blockOk quotaFields d = true →
      (∀ st, s1.quotaBlock d = .error st → Results (.pcfgQuotaGrant c o) s o.xd s1 st 0 ∧ Results (.pcfgQuotaRevoke c o) s o.xd s1 st 0) ∧
      (∀ q, s1.quotaBlock d = .ok q → Results (.pcfgQuotaGrant c o) s o.xd (s1.grant q).2 (s1.grant q).1 0 ∧
        Results (.pcfgQuotaRevoke c o) s o.xd (s1.revoke q).2 (s1.revoke q).1 0 ∧
        (q.kind ≠ 5 → q.kind ≠ 9 → s1.quotaTaken q = false → ∃ t, Results (.pcfgQuotaGrant c o) s o.xd t 0 0 ∧ ∀ g ∈ s1.grants, g ∈ t.grants) ∧
        (q.kind = 5 → s1.splOthers q.part + q.count ≤ 32768 →
          Results (.pcfgQuotaGrant c o) s o.xd (s1.setCsr (0x0D0 + q.part) (BitVec.ofNat 64 q.count)) 0 0) ∧
        (q.kind ≠ 5 → q.part ≠ 16 → s1.phase q.part = 4 → s1.ungranted q = [] →
          Results (.pcfgQuotaRevoke c o) s o.xd { s1 with grants := cutGrants q s1.grants } 0 0))) ∧
    (blockOk [(4, 0), (10, 8)] d = true →
      ∀ e ∈ ([(.pcfgStateDrain, [0], State.drain), (.pcfgStateScrub, [2], State.scrub), (.pcfgStateRelease, [4], State.releasePart),
          (.pcfgStateActive, [1, 2, 4, 5], fun s p => { s with staged := s.staged ++ [(0xCA0 + p, 0)] })] :
          List ((Ctl → SR → Instr) × List Nat × (State → Nat → State))),
        ((15 < p ∨ 5 < ph) → Results (e.1 c o) s o.xd s1 0x01 0) ∧
        (p ≤ 15 → ph ≤ 5 → (ph = 2 ∨ ph = 4 ∨ s1.partExists p = false ∨ s1.phase p ∉ e.2.1) → Results (e.1 c o) s o.xd s1 0x07 0) ∧
        (p ≤ 15 → ph ≤ 5 → ph ≠ 2 → ph ≠ 4 → s1.partExists p = true → s1.phase p ∈ e.2.1 →
          Results (e.1 c o) s o.xd (e.2.2 s1 p) 0 ((e.2.2 s1 p).phase p)))) ∧
  (∀ (s : State) (q : Grant), (s.grant q).1 = 0 → q.kind ≠ 5 → q.kind ≠ 9 → ¬(q.part = 16 ∧ (q.kind = 3 ∨ q.kind = 6)) →
    ∀ i, q.base ≤ i → i < q.base + q.count → (s.grant q).2.holds q.part q.kind i = true ∨
      (q.kind = 3 ∧ q.part < 16 ∧ s.partExists q.part = true ∧ i = s.csrF (0x070 + q.part) 9 0)) ∧
  (∀ (s : State) (q : Grant), (s.revoke q).1 = 0 → q.kind ≠ 5 → q.part ≠ 16 →
    ∀ g ∈ (s.revoke q).2.grants, g.part = q.part → g.kind = q.kind → g.aux = q.aux → meets g.span q.span = false) ∧
  (∀ (s : State) (p : Nat), p ≤ 15 → (s.drain p).phase p = 1 ∧ (s.releasePart p).phase p = 5)

/-- PCFG CAL, BAND, SLICE and GMAP end with their result words (R32, R195, R198, R199, R271, R279). That BAND of a partition that does not exist
ends with 0x07 is the model's choice (log 101). -/
def Obligations.CalendarBandsSlicesMappings : Prop :=
  (∀ (c : Ctl) (o : SR) (s s1 : State) (bs : List Byte), s.enabled c = true → s.core.pl = 2 →
    let s0 := s.endRegion.fullFence 3
    let xa := (s.getX o.xa.toNat).toNat
    let xb := (s.getX o.xb.toNat).toNat
    xa < 8 → xb < 2 ^ 52 → xb % 64 = 0 → loadBytes xb 64 s0 = .ok (bs, s1) →
    let d := ofBytes bs
    let n := d / 2 ^ 8 % 512
    let own := d / 2 ^ 24 % 32
    let p := d % 32
    (blockOk [(7, 0), (16, 8), (28, 24)] d = true →
      ((n = 0 ∨ 256 < n ∨ 256 < d % 256 + n ∨ (17 ≤ own ∧ own ≤ 30)) → Results (.pcfgCal c o) s o.xd s1 0x01 0) ∧
      (n ≠ 0 → d % 256 + n ≤ 256 → own < 16 → s1.partExists own = false → Results (.pcfgCal c o) s o.xd s1 0x07 0) ∧
      (n ≠ 0 → d % 256 + n ≤ 256 → (own = 31 ∨ own = 16 ∨ (own < 16 ∧ s1.partExists own = true)) →
        Results (.pcfgCal c o) s o.xd
          { s1 with staged := s1.staged ++ (List.range n).map fun i => (0x200 + d % 256 + i, BitVec.ofNat 64 own) } 0 (s1.frame + 1))) ∧
    (blockOk [(4, 0), (127, 64), (191, 128), (255, 192)] d = true →
      (16 < p → Results (.pcfgBand c o) s o.xd s1 0x01 0) ∧
      (p < 16 → s1.partExists p = false → Results (.pcfgBand c o) s o.xd s1 0x07 0) ∧
      ((p = 16 ∨ (p < 16 ∧ s1.partExists p = true)) →
        Results (.pcfgBand c o) s o.xd
          { s1 with staged := s1.staged ++ [(0x150 + p, BitVec.ofNat 64 (d / 2 ^ 64)), (0x170 + p, BitVec.ofNat 64 (d / 2 ^ 128)),
            (0x190 + p, BitVec.ofNat 64 (d / 2 ^ 192 % 512))] } 0 0)) ∧
    (blockOk [(63, 0)] d = true → 15 < p → Results (.pcfgSlice c o) s o.xd s1 0x01 0) ∧
    (blockOk [(63, 0)] d = true → p ≤ 15 →
      Results (.pcfgSlice c o) s o.xd { s1 with staged := s1.staged ++ [(0x062, BitVec.ofNat 64 d &&& 0xFFFF003F)] } 0 0)) ∧
  (∀ (c : Ctl) (o : SR) (s s1 : State) (bs : List Byte), s.enabled c = true → 1 ≤ s.core.pl.toNat →
    let xa := (s.getX o.xa.toNat).toNat
    let xb := (s.getX o.xb.toNat).toNat
    xa < 8 → xb < 2 ^ 52 → xb % 64 = 0 → loadBytes xb 64 (s.endRegion.fullFence 3) = .ok (bs, s1) →
    let d := ofBytes bs
    let page := d / 2 ^ 256 % 2 ^ 52
    let a := d / 2 ^ 308 % 1024
    let h := BitVec.ofNat 256 d
    blockOk [(255, 0), (307, 256), (317, 308), (318, 318)] d = true →
      (s1.reachesAsid a = false → Results (.pcfgGmapMap c o) s o.xd s1 0x03 0 ∧ Results (.pcfgGmapUnmap c o) s o.xd s1 0x03 0) ∧
      (s1.reachesAsid a = true → Results (.pcfgGmapMap c o) s o.xd (s1.gmapMap a page h).2 (s1.gmapMap a page h).1 0 ∧
        Results (.pcfgGmapUnmap c o) s o.xd (s1.gmapUnmap a page h).2 (s1.gmapUnmap a page h).1 0 ∧
        (∀ t f, s1.gmapTable a page = .ok t → s1.hashFrame h = some f → s1.gristF f 257 256 ≠ 3 → s1.leafBusy t page = false →
          Results (.pcfgGmapMap c o) s o.xd (s1.mapSegment (s1.asidPart a) t page f) 0 0) ∧
        (∀ t f, s1.gmapTable a page = .ok t → s1.isGrist f = true → s1.gristHash f = h → f % 2 ^ 21 = 0 → f < 2 ^ 48 →
          (∀ i, i < 32 → let e := s1.rd (t + 8 * (page / 2 ^ 16 % 4096 + i)) 8
            e % 2 = 1 ∧ e / 8 % 2 = 1 ∧ e / 2 ^ 16 % 2 ^ 32 * 65536 = f + 65536 * i) →
          ∃ u, Results (.pcfgGmapUnmap c o) s o.xd u 0 0 ∧ ∀ e ∈ u.tlb, e.asid = a →
            (e.level = 3 → runsMeet e.page 1 (page / 65536) 32 = false) ∧
            (e.level ≠ 3 → runsMeet (e.page / 4096 * 4096) 4096 (page / 65536) 32 = false)))) ∧
  (∀ (c : Ctl) (o : SR) (s : State), s.enabled c = true → s.core.pl = 2 →
    (8 ≤ (s.getX o.xa.toNat).toNat ∨ 2 ^ 52 ≤ (s.getX o.xb.toNat).toNat ∨ (s.getX o.xb.toNat).toNat % 64 ≠ 0) →
    ∀ mk ∈ ([.pcfgCreate, .pcfgQuotaGrant, .pcfgQuotaRevoke, .pcfgCal, .pcfgBand, .pcfgSlice, .pcfgStateDrain, .pcfgStateScrub,
        .pcfgStateRelease, .pcfgStateActive, .pcfgDestroy] : List (Ctl → SR → Instr)),
      Results (mk c o) s o.xd (s.endRegion.fullFence 3) 0x01 0)

/-- The lane-by-lane arithmetic of the V slots (R201, R202, R225, R236, R282, R284, R285, R286, R287). -/
def Obligations.VectorArithmetic : Prop :=
  (let r (x : Machine.Num) : BitVec 32 := toF32 x
   Lanes2 .vfadd (fun a b => r ((f32 a).add (f32 b))) ∧ Lanes2 .vfsub (fun a b => r ((f32 a).add (f32 b).neg)) ∧
   Lanes2 .vfmul (fun a b => r ((f32 a).mul (f32 b))) ∧ Lanes3 .vfma (fun a b d => r (((f32 a).mul (f32 b)).add (f32 d))) ∧
   Lanes3 .vfms (fun a b d => r (((f32 a).mul (f32 b)).add (f32 d).neg)) ∧
   Lanes3 .vfnma (fun a b d => r ((f32 d).add ((f32 a).mul (f32 b)).neg))) ∧
  (let two (a b v w : BitVec 32) : BitVec 32 := if (f32 a).isNan ∨ (f32 b).isNan then 0x7FC00000 else if (f32 a).below (f32 b) then v else w
   Lanes2 .vfmin (fun a b => if (f32 b).below (f32 a) then two a b b b else two a b a a) ∧ Lanes2 .vfmax (fun a b => two a b b a) ∧
   Lanes1 .vfabs (fun a => if (f32 a).isNan then 0x7FC00000 else a &&& 0x7FFFFFFF) ∧
   Lanes1 .vfneg (fun a => if (f32 a).isNan then 0x7FC00000 else a ^^^ 0x80000000)) ∧
  (let half (f : FpFmt) (op : Machine.Num → Machine.Num → Machine.Num → Machine.Num) (a b d : BitVec 32) : BitVec 32 :=
     let e (i : Nat) : BitVec 16 := BitVec.ofNat 16 (f.round false (op (f.value (a.extractLsb' (16 * i) 16).toNat)
       (f.value (b.extractLsb' (16 * i) 16).toNat) (f.value (d.extractLsb' (16 * i) 16).toNat)))
     e 1 ++ e 0
   Lanes2 .vhaddBf16 (fun a b => half bf16 (fun x y _ => x.add y) a b 0) ∧
   Lanes2 .vhaddF16 (fun a b => half fp16 (fun x y _ => x.add y) a b 0) ∧
   Lanes2 .vhmulBf16 (fun a b => half bf16 (fun x y _ => x.mul y) a b 0) ∧
   Lanes2 .vhmulF16 (fun a b => half fp16 (fun x y _ => x.mul y) a b 0) ∧
   Lanes3 .vhfmaBf16 (half bf16 fun x y z => (x.mul y).add z) ∧ Lanes3 .vhfmaF16 (half fp16 fun x y z => (x.mul y).add z)) ∧
  (let sat (v : Int) : BitVec 32 := BitVec.ofInt 32 (max (-2 ^ 31) (min (2 ^ 31 - 1) v))
   Lanes2 .vadd (fun a b => BitVec.ofNat 32 (a.toNat + b.toNat)) ∧
   Lanes2 .vsub (fun a b => BitVec.ofInt 32 ((a.toNat : Int) - (b.toNat : Int))) ∧
   Lanes2 .vmul (fun a b => BitVec.ofNat 32 (a.toNat * b.toNat)) ∧
   Lanes2 .vmulh (fun a b => BitVec.ofInt 32 (a.toInt * b.toInt / 2 ^ 32)) ∧
   Lanes2 .vadds (fun a b => sat (a.toInt + b.toInt)) ∧ Lanes2 .vsubs (fun a b => sat (a.toInt - b.toInt)) ∧
   Lanes2 .vmin (fun a b => BitVec.ofInt 32 (min a.toInt b.toInt)) ∧ Lanes2 .vmax (fun a b => BitVec.ofInt 32 (max a.toInt b.toInt)) ∧
   Lanes2 .vminu (fun a b => BitVec.ofNat 32 (min a.toNat b.toNat)) ∧ Lanes2 .vmaxu (fun a b => BitVec.ofNat 32 (max a.toNat b.toNat)) ∧
   Lanes2 .vand (fun a b => a &&& b) ∧ Lanes2 .vor (fun a b => a ||| b) ∧ Lanes2 .vxor (fun a b => a ^^^ b) ∧
   Lanes2 .vshl (fun a b => BitVec.ofNat 32 (a.toNat * 2 ^ (b.toNat % 32))) ∧
   Lanes2 .vshr (fun a b => BitVec.ofNat 32 (a.toNat / 2 ^ (b.toNat % 32))) ∧
   Lanes2 .vsra (fun a b => BitVec.ofInt 32 (a.toInt / 2 ^ (b.toNat % 32))) ∧
   Lanes1 .vabs (fun a => BitVec.ofInt 32 (a.toInt.natAbs : Int)))

/-- Dot products and special functions: the exact cases; otherwise a result within the stated number of ulps of an enclosure of the exact result.
That the enclosures of VRCP and VRSQ hold it is stated; that those of the other four do is deduced (log 23) (R281, R282, R288, R289, R290). -/
def Obligations.DotsAndSpecials : Prop :=
  (let el (w : Nat) (sg : Bool) (x : BitVec 32) (k : Nat) : Int :=
     if sg then (x.extractLsb' (w * k) w).toInt else ((x.extractLsb' (w * k) w).toNat : Int)
   let dot (n w : Nat) (sa sb sat : Bool) (a b d : BitVec 32) : BitVec 32 :=
     let v : Int := d.toInt + ((List.range n).map fun k => el w sa a k * el w sb b k).sum
     BitVec.ofInt 32 (if sat then max (-2 ^ 31) (min (2 ^ 31 - 1) v) else v)
   Lanes3 .vdot4SS (dot 4 8 true true false) ∧ Lanes3 .vdot4SU (dot 4 8 true false false) ∧ Lanes3 .vdot4US (dot 4 8 false true false) ∧
   Lanes3 .vdot4UU (dot 4 8 false false false) ∧ Lanes3 .vdot4sSS (dot 4 8 true true true) ∧ Lanes3 .vdot4sSU (dot 4 8 true false true) ∧
   Lanes3 .vdot4sUS (dot 4 8 false true true) ∧ Lanes3 .vdot4sUU (dot 4 8 false false true) ∧ Lanes3 .vdot8SS (dot 8 4 true true false) ∧
   Lanes3 .vdot8SU (dot 8 4 true false false) ∧ Lanes3 .vdot8US (dot 8 4 false true false) ∧ Lanes3 .vdot8UU (dot 8 4 false false false) ∧
   Lanes3 .vdot8sSS (dot 8 4 true true true) ∧ Lanes3 .vdot8sSU (dot 8 4 true false true) ∧ Lanes3 .vdot8sUS (dot 8 4 false true true) ∧
   Lanes3 .vdot8sUU (dot 8 4 false false true)) ∧
  (let val (x : BitVec 32) : Option Int :=
     match f32 x with
     | .fin neg m e => some ((if neg then -1 else 1) * (m : Int) * 2 ^ (e + 320).toNat)
     | _ => none
   ∀ (fn ulps : Nat) (a : BitVec 32) (neg : Bool) (r : Enclosure), 1 ≤ ulps → ulps ≤ 2 → 0 ≤ r.lo → r.lo ≤ r.hi →
     let u : Int := ulps * 2 ^ ulpPlace r.lo.natAbs
     let x := within fn ulps a neg r
     (∀ v, val x = some v → r.lo - u ≤ (if neg then -v else v) ∧ (if neg then -v else v) ≤ r.hi + u) ∧
     (val x = none → x = inf32 neg ∧ 2 ^ 448 ≤ r.hi + u)) ∧
  (∀ a neg m e, f32 a = .fin neg m e → m ≠ 0 →
    let v := fixOf m e
    let x : Int := if neg then -(v : Int) else v
    (isPow2 m = false → ∃ r : Enclosure, 0 ≤ r.lo ∧ r.lo * m ≤ 2 ^ (320 - e).toNat ∧ 2 ^ (320 - e).toNat ≤ r.hi * m ∧
      2 ^ 40 * (r.hi - r.lo) ≤ r.lo ∧ sfRcp a = within 2 1 a neg r) ∧
    (neg = false → ¬(isPow2 m = true ∧ ((ilog2 m : Int) + e) % 2 = 0) → ∃ r : Enclosure, 0 ≤ r.lo ∧
      r.lo * r.lo * m ≤ 2 ^ (640 - e).toNat ∧ 2 ^ (640 - e).toNat ≤ r.hi * r.hi * m ∧ 2 ^ 40 * (r.hi - r.lo) ≤ r.lo ∧ sfRsq a = within 3 1 a false r) ∧
    (-150 * 2 ^ 320 ≤ x → x < 128 * 2 ^ 320 → ¬(x % 2 ^ 320 = 0 ∧ -149 * 2 ^ 320 ≤ x) → sfExp2 a = within 0 1 a false (enclose (exp2Fix x))) ∧
    (x % 2 ^ 320 = 0 → -149 * 2 ^ 320 ≤ x → x < 128 * 2 ^ 320 → sfExp2 a = toF32 (.fin false 1 (x / 2 ^ 320))) ∧
    (128 * 2 ^ 320 ≤ x → sfExp2 a = 0x7F800000) ∧ (x < -150 * 2 ^ 320 → sfExp2 a = 0) ∧
    (neg = false → isPow2 m = true → sfLog2 a = toF32 (.ofInt ((ilog2 m : Int) + e))) ∧
    (neg = false → isPow2 m = false → let l : Int := ((ilog2 m : Int) + e) * 2 ^ 320 + log2Frac (m * 2 ^ (320 - ilog2 m))
      sfLog2 a = within 1 1 a (decide (l < 0)) (enclose l.natAbs)) ∧
    (isPow2 m = true → sfRcp a = toF32 (.fin neg 1 (-((ilog2 m : Int) + e)))) ∧
    (neg = false → isPow2 m = true → ((ilog2 m : Int) + e) % 2 = 0 → sfRsq a = toF32 (.fin false 1 (-(((ilog2 m : Int) + e) / 2)))) ∧
    (let t := expNeg (2 * v)
     ∃ r : Enclosure, 1 ≤ r.lo ∧ r.hi < 2 ^ 320 ∧ r.hi < v ∧ r.hi ≤ (enclose ((2 ^ 320 - t) * 2 ^ 320 / (2 ^ 320 + t))).hi ∧
       (enclose ((2 ^ 320 - t) * 2 ^ 320 / (2 ^ 320 + t))).lo ≤ r.lo ∧ sfTanh a = within 4 2 a neg r) ∧
    (let t := expNeg v
     let w := (if neg then t else 2 ^ 320) * 2 ^ 320 / (2 ^ 320 + t)
     ∃ r : Enclosure, 1 ≤ r.lo ∧ r.hi < 2 ^ 320 ∧ r.hi ≤ (enclose w).hi ∧ (enclose w).lo ≤ r.lo ∧ sfSigm a = within 5 2 a false r)) ∧
  Lanes1 .vexp2 sfExp2 ∧ Lanes1 .vlog2 sfLog2 ∧ Lanes1 .vrcp sfRcp ∧ Lanes1 .vrsq sfRsq ∧ Lanes1 .vtanh sfTanh ∧ Lanes1 .vsigm sfSigm ∧
  (∀ a, (f32 a).isNan = true → ∀ f ∈ [sfExp2, sfLog2, sfRcp, sfRsq, sfTanh, sfSigm], f a = 0x7FC00000) ∧
  sfExp2 0xFF800000 = 0 ∧ sfExp2 0x7F800000 = 0x7F800000 ∧ sfExp2 0x43000000 = 0x7F800000 ∧ sfExp2 0 = 0x3F800000 ∧
  sfLog2 0 = 0xFF800000 ∧ sfLog2 0x80000000 = 0xFF800000 ∧ sfLog2 0x7F800000 = 0x7F800000 ∧ sfLog2 0x3F800000 = 0 ∧
  (∀ a, 0x80000000 < a.toNat → sfLog2 a = 0x7FC00000) ∧
  sfRcp 0 = 0x7F800000 ∧ sfRcp 0x80000000 = 0xFF800000 ∧ sfRcp 0x7F800000 = 0 ∧ sfRcp 0xFF800000 = 0x80000000 ∧
  sfRcp 0x40000000 = 0x3F000000 ∧
  sfRsq 0 = 0x7F800000 ∧ sfRsq 0x80000000 = 0xFF800000 ∧ sfRsq 0x7F800000 = 0 ∧ sfRsq 0x40800000 = 0x3F000000 ∧
  (∀ a, 0x80000000 < a.toNat → sfRsq a = 0x7FC00000) ∧
  sfTanh 0 = 0 ∧ sfTanh 0x80000000 = 0x80000000 ∧ sfTanh 0x7F800000 = 0x3F800000 ∧ sfTanh 0xFF800000 = 0xBF800000 ∧
  sfSigm 0xFF800000 = 0 ∧ sfSigm 0x7F800000 = 0x3F800000 ∧ sfSigm 0 = 0x3F000000 ∧ sfSigm 0x80000000 = 0x3F000000

/-- Conversions and quantisation of the V slots (R201, R204, R283, R291, R292, R293, R294). -/
def Obligations.VectorConversions : Prop :=
  Lanes1 .vcvtF32Int (fun a => toF32 (.ofInt a.toInt)) ∧ Lanes1 .vcvtF32Uint (fun a => toF32 (.ofInt a.toNat)) ∧
  Lanes1 .vcvtIntF32 (fun a => BitVec.ofInt 32 ((f32 a).toInt false (-2 ^ 31) (2 ^ 31 - 1))) ∧
  Lanes1 .vcvtIntF32Rtz (fun a => BitVec.ofInt 32 ((f32 a).toInt true (-2 ^ 31) (2 ^ 31 - 1))) ∧
  Lanes1 .vcvtUintF32 (fun a => BitVec.ofInt 32 ((f32 a).toInt false 0 (2 ^ 32 - 1))) ∧
  Lanes1 .vcvtUintF32Rtz (fun a => BitVec.ofInt 32 ((f32 a).toInt true 0 (2 ^ 32 - 1))) ∧
  (let pack (f : FpFmt) (rtz : Bool) (a b : BitVec 32) : BitVec 32 :=
     BitVec.ofNat 16 (f.round rtz (f32 b)) ++ BitVec.ofNat 16 (f.round rtz (f32 a))
   Lanes2 .vcvtBf16F32 (pack bf16 false) ∧ Lanes2 .vcvtBf16F32Rtz (pack bf16 true) ∧ Lanes2 .vcvtF16F32 (pack fp16 false) ∧
   Lanes2 .vcvtF16F32Rtz (pack fp16 true)) ∧
  (∀ (c : Ctl) (o : VR) (s s1 : State) (a : Vec), s.enabledV c = true → Reads s o.opa a s1 →
    let h (j : Nat) : Nat := ((lane a j).extractLsb' (16 * (o.fn.toNat % 2)) 16).toNat
    Lanes (.vcvtF32Bf16 c o) s s1 o.dst (fun j => toF32 (bf16.value (h j))) c ∧
    Lanes (.vcvtF32F16 c o) s s1 o.dst (fun j => toF32 (fp16.value (h j))) c) ∧
  (∀ (c : Ctl) (o : VR) (s : State), s.enabledV c = true →
    let f := nfmt (s.getF o.fsel.toNat)
    (fmtValid (s.getF o.fsel.toNat) = false → Faults (.vscl c o) s illegalSlot ∧ Faults (.vqnt c o) s illegalSlot ∧
      Faults (.vdqnt c o) s illegalSlot) ∧
    (fmtValid (s.getF o.fsel.toNat) = true → f.blk = 0 → Faults (.vscl c o) s illegalSlot) ∧
    (fmtValid (s.getF o.fsel.toNat) = true → ∀ a s1, Reads s o.opa a s1 →
      (f.blk ≠ 0 → Lanes (.vscl c o) s s1 o.dst (fun j => BitVec.ofNat 32 (clusterScale f
        (((List.range 16).filter fun l => (s.effPred c).getLsbD (j / 16 * 16 + l)).map fun l => f32 (lane a (j / 16 * 16 + l))))) c) ∧
      (f.blk = 0 → o.opb ≠ 0 → Faults (.vqnt c o) s illegalSlot ∧ Faults (.vdqnt c o) s illegalSlot) ∧
      (f.blk = 0 → o.opb = 0 →
        Lanes (.vqnt c o) s s1 o.dst (fun j => BitVec.ofNat 32 (vqntLane f (f32 (lane a j)) 0 % 256)) c ∧
        Lanes (.vdqnt c o) s s1 o.dst (fun j => toF32 (f.decode (lane a j).toNat)) c) ∧
      (f.blk ≠ 0 → ∀ b s2, Reads s1 o.opb b s2 →
        Lanes (.vqnt c o) s s2 o.dst (fun j => BitVec.ofNat 32
          (vqntLane f (f32 (lane a j)) ((lane b j).toNat % 256) % 256 + 256 * ((lane b j).toNat % 256))) c ∧
        Lanes (.vdqnt c o) s s2 o.dst (fun j => toF32 ((f.decode (lane a j).toNat).mul (scaleOf f.scf ((lane b j).toNat % 256)))) c)))

/-- Moves, permutes, compares, VEXTR, VINS and VRAND (R237, R281, R282, R285, R287, R295, R296). -/
def Obligations.VectorMoves : Prop :=
  (∀ (c : Ctl) (o : VR) (s s1 : State) (a : Vec), s.enabledV c = true → Reads s o.opa a s1 →
    Lanes (.vmov c o) s s1 o.dst (fun j => lane a j) c ∧
    Lanes (.vbcast c o) s s1 o.dst (fun j => lane a (16 * (j / 16) + o.fn.toNat % 16)) c ∧
    Lanes (.vxclX c o) s s1 o.dst (fun j => lane a (j ^^^ (o.fn.toNat % 128))) c ∧
    (s1.isFreed (o.dst.toNat % 64) = false → Lanes (.vins c o) s s1 o.dst
      (fun j => if j = o.fn.toNat % 128 then lane a j else lane (s1.getV (o.dst.toNat % 64)) j) c) ∧
    (s1.isFreed (o.dst.toNat % 64) = true → Faults (.vins c o) s deadreg) ∧
    ∀ b s2, Reads s1 o.opb b s2 →
      Lanes (.vsel c o) s s2 o.dst (fun j => if (s2.getPq (o.fn.toNat % 32)).getLsbD j then lane a j else lane b j) c ∧
      Lanes (.vperm c o) s s2 o.dst
        (fun j => if (lane b j).getLsbD 4 then 0 else lane a (16 * (j / 16) + (lane b j).toNat % 16)) c ∧
      Lanes (.vxcl c o) s s2 o.dst (fun j => if (lane b j).getLsbD 7 then 0 else lane a ((lane b j).toNat % 128)) c) ∧
  (∀ (c : Ctl) (o : VI) (s : State), s.enabledV c = true → Lanes (.vmovi c o) s s o.dst (fun _ => o.imm) c) ∧
  (∀ (c : Ctl) (o : VP) (s s1 s2 : State) (a b : Vec), s.enabledV c = true → Reads s o.opa a s1 → Reads s1 o.opb b s2 →
    (∃ w, exec (.vcmp c o) s = .next (s2.putPMask o.pd.toNat w (s.effPred c) c.lat.toNat) ∧ ∀ j, j < 128 →
      (o.cond = 0 → (w.getLsbD j = true ↔ lane a j = lane b j)) ∧ (o.cond = 1 → (w.getLsbD j = true ↔ lane a j ≠ lane b j)) ∧
      (o.cond = 2 → (w.getLsbD j = true ↔ (lane a j).toInt < (lane b j).toInt)) ∧
      (o.cond = 3 → (w.getLsbD j = true ↔ (lane a j).toInt ≤ (lane b j).toInt)) ∧
      (o.cond = 4 → (w.getLsbD j = true ↔ (lane a j).toNat < (lane b j).toNat)) ∧
      (o.cond = 5 → (w.getLsbD j = true ↔ (lane a j).toNat ≤ (lane b j).toNat))) ∧
    (∃ w, exec (.vfcmp c o) s = .next (s2.putPMask o.pd.toNat w (s.effPred c) c.lat.toNat) ∧ ∀ j, j < 128 →
      let x := f32 (lane a j)
      let y := f32 (lane b j)
      let un : Bool := x.isNan || y.isNan
      (o.cond = 0 → w.getLsbD j = (!un && !x.lt y && !y.lt x)) ∧ (o.cond = 1 → w.getLsbD j = (un || x.lt y || y.lt x)) ∧
      (o.cond = 2 → w.getLsbD j = (!un && x.lt y)) ∧ (o.cond = 3 → w.getLsbD j = (!un && !y.lt x)) ∧
      (o.cond = 4 → w.getLsbD j = un) ∧ (o.cond = 5 → w.getLsbD j = !un))) ∧
  (∀ (c : Ctl) (o : VX) (s s1 : State) (a : Vec), s.enabledV c = true → Reads s o.opa a s1 →
    ((s.effPred c).getLsbD o.lane.toNat = true →
      exec (.vextr c o) s = .next (s1.putX o.xd.toNat ((lane a o.lane.toNat).setWidth 64) c.lat.toNat)) ∧
    ((s.effPred c).getLsbD o.lane.toNat = false →
      exec (.vextr c o) s = .next (if o.xd = 0 then s1 else s1.noteDest .x o.xd.toNat))) ∧
  (∀ (c : Ctl) (o : VK) (s : State), s.enabledV c = true →
    let key := s.getX o.xk.toNat
    Lanes (.vrand c o) s (s.onCore fun k => { k with rng := k.rng + 32 }) o.dst
      (fun j => ((philox (s.core.rng + BitVec.ofNat 128 (j / 4)) (key.setWidth 32) (key.extractLsb' 32 32))[j % 4]?).getD 0) c)

/-- VLD, VST, VGATH and VSCAT (R205, R230, R297, R298, R299, R300). That a VST and a VLD in mode .N leave out the container bits above the code is the
model's reading (log entry 85). -/
def Obligations.VectorMemory : Prop :=
  (∀ (c : Ctl) (o : VM) (s : State), let s0 := s.vmCursor o
    (s.enabledV c = false → exec (.vld c o) s = .next s0 ∧ exec (.vst c o) s = .next s0) ∧
    (s.enabledV c = true → ∀ off run f s1 s2, vmRun o s1 = .ok ((off, run, f), s1) →
      let w := match o.mode.toNat with | 0 => 32 | 1 => 16 | _ => f.container
      let z := match o.mode.toNat with | 0 => 32 | 1 => 16 | _ => f.w
      (s1 = s0 → touchRun off run false s1 = .ok ((), s2) →
        (o.mode ≠ 3 → Lanes (.vld c o) s s2 (o.data.extractLsb' 1 8) (fun j => BitVec.ofNat 32 (s2.spRun off run / 2 ^ (w * j) % 2 ^ w % 2 ^ z)) c) ∧
        (o.mode = 3 → Lanes (.vld c o) s s2 (o.data.extractLsb' 1 8)
          (fun j => BitVec.ofNat 32 (s2.spRun off run / 2 ^ (8 * (j / f.blk)) % 256)) c)) ∧
      (∀ d, Reads s0 o.data d s1 → touchRun off run true s1 = .ok ((), s2) →
        ∃ val mask, exec (.vst c o) s = .next (s2.putRun off run val mask c.lat.toNat) ∧
          (o.mode ≠ 3 → ∀ j, j < 128 → val / 2 ^ (w * j) % 2 ^ w = (lane d j).toNat % 2 ^ z % 2 ^ w ∧
            mask / 2 ^ (w * j) % 2 ^ w = if (s.effPred c).getLsbD j then 2 ^ w - 1 else 0) ∧
          (o.mode = 3 → ∀ b, b < run → val / 2 ^ (8 * b) % 256 = (lane d (f.blk * b)).toNat / 256 % 256 ∧
            mask / 2 ^ (8 * b) % 256 = if (s.effPred c).getLsbD (f.blk * b) then 255 else 0))) ∧
    (s.enabledV c = true → let f := nfmt (s0.getF o.fsel.toNat)
      (2 ≤ o.mode.toNat → fmtValid (s0.getF o.fsel.toNat) = true) → (o.mode = 3 → f.blk ≠ 0) → s0.cursor 0 % (spRunA o.mode.toNat f).2 ≠ 0 →
      exec (.vld c o) s = .next (s0.recFault ⟨0x06, 0, 0, 0⟩ []) ∧
      ∀ d s1, Reads s0 o.data d s1 → exec (.vst c o) s = .next (s0.recFault ⟨0x06, 0, 0, 0⟩ [])) ∧
    (∀ f, spRunA 0 f = (512, 64) ∧ spRunA 1 f = (256, 64) ∧ spRunA 2 f = (16 * f.container, min (16 * f.container) 64) ∧
      spRunA 3 f = (128 / f.blk, 128 / f.blk)) ∧
    (s.enabledV c = true → ∀ off run f s1 s2, vmRun o s1 = .ok ((off, run, f), s1) →
      (s1 = s0 → touchRun off run false s1 = .ok ((), s2) → dstCls (o.data.extractLsb' 1 8) ≠ 1 →
        (Answers (exec (.vld c o) s) fun t => t.mem = s2.mem) ∧ (s.core.maps = [] → s2.mem = s.mem)) ∧
      (∀ d, Reads s0 o.data d s1 → touchRun off run true s1 = .ok ((), s2) →
        (Answers (exec (.vst c o) s) fun t => t.mem = s2.mem) ∧ (s.core.maps = [] → srcCls o.data ≠ 1 → s2.mem = s.mem))) ∧
    (o.mode = 0 → s0.cursor 0 % 64 = 0 → vmRun o s0 = .ok ((s0.cursor 0, 512, nfmt 0), s0)) ∧
    (o.mode = 1 → s0.cursor 0 % 64 = 0 → vmRun o s0 = .ok ((s0.cursor 0, 256, nfmt 0), s0))) ∧
  (∀ (c : Ctl) (o : VG) (s : State), let s0 := s.vgCursor o
    let at_ (x : Nat) (i : BitVec 32) : Nat := x / 2 ^ 20 % 2 * 2 ^ 20 + (x % 2 ^ 20 + i.toNat % 2 ^ 20) % 2 ^ 20 / 4 * 4
    (s.enabledV c = false → exec (.vgath c o) s = .next s0 ∧ exec (.vscat c o) s = .next s0) ∧
    (s.enabledV c = true → ∀ idx s1,
      let ks := (((List.range 128).filter (s.effPred c).getLsbD).map fun i => at_ (s1.cursor 0) (lane idx i) / 64).eraseDups
      (s1.cursor 0 % 64 ≠ 0 ∨ ∃ b, b < 16 ∧ 8 < (ks.filter fun k => k % 16 = b).length) →
        (Reads s0 o.idx idx s1 → exec (.vgath c o) s = .next (s0.recFault ⟨0x06, 0, 0, 0⟩ [])) ∧
        (∀ d s', Reads s0 o.data d s' → Reads s' o.idx idx s1 → exec (.vscat c o) s = .next (s0.recFault ⟨0x06, 0, 0, 0⟩ []))) ∧
    (s.enabledV c = true → ∀ idx s1 ws s2, gatherWords idx (s.effPred c) s1 = .ok (ws, s2) →
      (Reads s0 o.idx idx s1 → s2.core.spBad = [] → dstCls (o.data.extractLsb' 1 8) ≠ 1 → Answers (exec (.vgath c o) s) fun t => t.mem = s2.mem) ∧
      (s1.core.maps = [] → s2.mem = s1.mem) ∧
      ws = ((List.range 128).filter (s.effPred c).getLsbD).map (fun i => (i, at_ (s1.cursor 0) (lane idx i))) ∧
      (Reads s0 o.idx idx s1 → s2.core.spBad = [] → Lanes (.vgath c o) s s2 (o.data.extractLsb' 1 8)
        (fun j => if (s.effPred c).getLsbD j then BitVec.ofNat 32 (s2.spRun (at_ (s1.cursor 0) (lane idx j)) 4) else 0) c) ∧
      (∀ d s', Reads s0 o.data d s' → Reads s' o.idx idx s1 → exec (.vscat c o) s = .next (s2.scatter d ws c.lat.toNat) ∧
        let k := (s2.scatter d ws c.lat.toNat).core
        k.x = s2.core.x ∧ k.v = s2.core.v ∧ k.p = s2.core.p ∧ k.sp = s2.core.sp ∧ k.streams = s2.core.streams ∧
        (s2.scatter d ws c.lat.toNat).mem = s2.mem)))

/-- What a write to a vector register leaves, freed registers, and the bypass history (R232, R236, R237, R239). -/
def Obligations.VectorRegisters : Prop :=
  (∀ (s : State) (i : Nat) (v : Vec) (m : Pred) (lat : Nat), let t := s.putV i v m lat
    (t.onIssue fun r => { r with revived := 0 }).isFreed i = false ∧ (s.isFreed i = false → t.isFreed i = false) ∧
    (∀ n, s.core.issueNo + lat ≤ n → ∀ j, j < 128 → m.getLsbD j = true → lane (vAt t i n) j = lane v j) ∧
    (s.isFreed i = false → ∀ n j, j < 128 → m.getLsbD j = false → lane (vAt t i n) j = lane (vAt s i n) j) ∧
    (∀ f r, (f, r) ≠ (RegFile.v, s.core.physV i) → ∀ n, regAt t f r n = regAt s f r n) ∧
    t = s.setCore { s.core with pend := t.core.pend, issue := t.core.issue, freed := t.core.freed }) ∧
  (∀ (c : Ctl) (o : VR) (s : State), s.enabledV c = true → srcCls o.opa = 0 → s.isFreed (srcIdx o.opa) = true →
    ∀ mk ∈ ([.vmov, .vabs, .vfabs, .vfneg, .vadd, .vfadd, .vfma, .vsel, .vperm, .vxcl, .vdot4SS, .vexp2, .vcvtF32Int] :
      List (Ctl → VR → Instr)), Faults (mk c o) s ⟨0x04, 0, 0, 0⟩) ∧
  (∀ (s : State) (a b d e : Bypass) (v : Vec) (lat : Nat), s.core.y = [a, b, d, e] →
    (s.core.issue.slot = 1 → (s.enterBypass v lat).core.y = [⟨v, s.core.issueNo, s.core.issueNo + lat⟩, a, d, e]) ∧
    (s.core.issue.slot = 2 → (s.enterBypass v lat).core.y = [a, b, ⟨v, s.core.issueNo, s.core.issueNo + lat⟩, d])) ∧
  (∀ (s : State) (i : Nat) (e : Bypass), s.core.issue.y[i]? = some e → e.due ≤ s.core.issueNo → s.getY i = e.val)

/-- MMA, MMAS, MMAT, MMAV, MRED and MSCAN (R211, R212, R213, R302, R307, R308, R309, R310, R311). -/
def Obligations.MatrixMultiply : Prop :=
  (∀ (c : Ctl) (o : MX) (s s1 s2 : State) (fa fb : MatFmt), let s0 := s.mxCursor o
    let K := kOf o.kb
    let td := o.td.toNat
    s.enabled c = true → td < 12 → needFmt o.kind.toNat o.fa.toNat s0 = .ok (fa, s0) →
    (needFmt o.kind.toNat o.fb.toNat s0 = .ok (fb, s0) → fa.c = fb.c →
      needOperand (s0.cursor 0) o.pd.toNat (fa.steps K) 0 s0 = .ok ((), s1) →
      needOperand (s0.cursor 1) o.pd.toNat (fb.steps K) 1 s1 = .ok ((), s2) → TilesFree s2 [td] →
      Answers (exec (.mma c o) s) fun t => Fetches s2 t (max (fa.steps K) (fb.steps K)) ∧
        TilesWritten s2 t [td] fun u i j => accumulate (s2.core.tiles.get u i j) ((List.range (K / 32)).map fun q => (kBlock q).map fun k =>
          (operandAt fa K (s2.fetchSteps (s0.cursor 0) o.pd.toNat (fa.steps K)) i k).mul
            (operandAt fb K (s2.fetchSteps (s0.cursor 1) o.pd.toNat (fb.steps K)) j k))) ∧
    (needOperand (s0.cursor 0) o.pd.toNat (fa.steps K) 0 s0 = .ok ((), s1) → TilesFree s1 [td] →
      ∀ e ∈ ([(.mred, fun _ _ => 1), (.mscan, fun k j => if k ≤ j then 1 else 0)] : List ((Ctl → MX → Instr) × (Nat → Nat → Nat))),
        Answers (exec (e.1 c o) s) fun t => Fetches s1 t (fa.steps K) ∧
          TilesWritten s1 t [td] fun u i j => accumulate (s1.core.tiles.get u i j) ((List.range (K / 32)).map fun q => (kBlock q).map fun k =>
            (operandAt fa K (s1.fetchSteps (s0.cursor 0) o.pd.toNat (fa.steps K)) i k).mul (.fin false (e.2 k j) 0)))) ∧
  (∀ (c : Ctl) (o : MS) (s s1 s2 : State), let s0 := s.msCursor o
    let K := kOf o.kb
    let td := o.td.toNat
    let nt := 2 ^ o.ntc.toNat
    let lv := 32 * (o.lvf.toNat + 1)
    let fa := nfmt (s0.getF o.fa.toNat)
    let fb := nfmt (s0.getF o.fb.toNat)
    let na := (MatFmt.narrow fa).steps K
    let nb := K / 32 * sparseSteps fb lv
    let ts := (List.range nt).map (td + ·)
    s.enabled c = true → fmtValid (s0.getF o.fa.toNat) = true → fmtValid (s0.getF o.fb.toNat) = true → fa.container = fb.container →
    (fb.blk = 0 ∨ fb.blk = 32) → lv ≤ 128 * nt → td + nt ≤ 12 →
    needOperand (s0.cursor 0) o.pd.toNat na 0 s0 = .ok ((), s1) → needOperand (s0.cursor 1) o.pd.toNat nb 1 s1 = .ok ((), s2) →
    TilesFree s2 ts → Answers (exec (.mmas c o) s) fun t => Fetches s2 t (max na nb) ∧
      TilesWritten s2 t ts fun u i j => accumulate (s2.core.tiles.get u i j) ((List.range (K / 32)).map fun q =>
        (sparseColumn fb lv q (s2.fetchSteps (s0.cursor 1) o.pd.toNat nb) (128 * (u - td) + j)).map fun e =>
          (operandAt (.narrow fa) K (s2.fetchSteps (s0.cursor 0) o.pd.toNat na) i e.1).mul e.2)) ∧
  (∀ (c : Ctl) (o : MK) (s s1 s2 : State) (t : Stream) (fa fb : MatFmt) (rows : List Nat), let s0 := s.mkCursor o
    let K := kOf o.kb
    let td := o.td.toNat
    s.enabled c = true → td < 12 → s0.strm o.sk.toNat = some t → t.kind = .kv →
    (t.ekind = 0 → o.fa = 0 ∧ fa = .wide bf16 ∧ fb = .wide bf16) → (t.ekind = 1 → o.fa = 0 ∧ fa = .wide fp16 ∧ fb = .wide fp16) →
    (t.ekind = 2 → fmtValid (s0.getF o.fa.toNat) = true ∧ fa = .narrow (nfmt (s0.getF o.fa.toNat)) ∧ fb = .narrow (nfmt t.fmt)) →
    t.ekind ≤ 2 → fa.c = fb.c → needOperand (s0.cursor 0) o.pd.toNat (fa.steps K) 0 s0 = .ok ((), s1) →
    popRows o.sk.toNat (o.nr.toNat + 1) s1 = .ok (rows, s2) → TilesFree s2 [td] →
    let a := operandAt fa K (s2.fetchSteps (s0.cursor 0) o.pd.toNat (fa.steps K))
    (o.kb.toNat ≤ 7 → Answers (exec (.mmat c o) s) fun r => Fetches s2 r (fa.steps K) ∧
      TilesWritten s2 r [td] fun u i j => accumulate (s2.core.tiles.get u i j) ((List.range (K / 32)).map fun q => (kBlock q).filterMap fun k =>
        if k < min K t.dim ∧ j ≤ o.nr.toNat then some ((a i k).mul (rowElement t fb ((rows[j]?).getD 0) k)) else none)) ∧
    (o.kb.toNat ≤ 3 → o.nr.toNat < K → Answers (exec (.mmav c o) s) fun r => Fetches s2 r (fa.steps K) ∧
      TilesWritten s2 r [td] fun u i j => accumulate (s2.core.tiles.get u i j) ((List.range (K / 32)).map fun q => (kBlock q).filterMap fun k =>
        if k ≤ o.nr.toNat ∧ j < min t.dim 128 then some ((a i k).mul (rowElement t fb ((rows[k]?).getD 0) j)) else none)))

/-- MLD, MST and the tile-only operations (R91, R213, R214, R215, R304, R312, R313, R314, R315). -/
def Obligations.MatrixMoves : Prop :=
  (∀ (c : Ctl) (o : MT) (s : State), s.enabled c = true → o.td.toNat < 12 →
    let td := o.td.toNat
    let ta := o.ta.toNat
    let tb := o.tb.toNat
    (TilesFree s [td] → Answers (exec (.mzero c o) s) fun t => TilesWritten s t [td] fun _ _ _ => 0) ∧
    (TilesFree s [td, ta, tb] → Answers (exec (.madd c o) s) fun t => TilesWritten s t [td]
      fun _ i j => toAcc ((accNum (s.core.tiles.get ta i j)).add (accNum (s.core.tiles.get tb i j)))) ∧
    (TilesFree s [td, ta] → Answers (exec (.mcopy c o) s) fun t => TilesWritten s t [td] fun _ i j => s.core.tiles.get ta i j) ∧
    (TilesFree s [td, ta] → Answers (exec (.mxpose c o) s) fun t => TilesWritten s t [td] fun _ i j => s.core.tiles.get ta j i) ∧
    (∀ v s1, Reads s o.src v s1 → TilesFree s1 [td] → Answers (exec (.mscale c o) s) fun t => TilesWritten s1 t [td]
      fun _ i j => toAcc ((accNum (s1.core.tiles.get td i j)).mul (f32 (lane v i)))) ∧
    (s.core.mfetch = none → s.core.tileBusy.getLsbD td = true → ∀ mk ∈ ([.mzero, .madd, .mcopy, .mxpose] : List (Ctl → MT → Instr)),
      ∃ n, exec (mk c o) s = .next (s.recStall .other [.cycles n]))) ∧
  (∀ (c : Ctl) (o : MV) (s : State), s.enabled c = true → TilesFree s [o.ta.toNat] → ∀ v t,
    (∀ j, j < 128 → lane v j = toF32 (rowMax ((List.range 128).map fun q => accNum (s.core.tiles.get o.ta.toNat j q)))) →
    Delivers s o.dst v (BitVec.allOnes 128) 1 t → exec (.mrmax c o) s = .next t) ∧
  (∀ (c : Ctl) (o : MR) (s s1 : State) (m : MatFmt) (c0 steps row : Nat), let s0 := s.mrCursor o
    let td := o.td.toNat
    s.enabled c = true → td < 12 → rowFmt o.ty.toNat o.fs.toNat s0 = .ok (m, s0) → rowsAt o m s0 = .ok ((c0, steps, row), s1) →
    s1.core.spBad = [] →
    let per := m.rowStride / 64
    let w := m.rowBits
    (Answers (exec (.mld c o) s) fun t => Fetches s1 t steps ∧ TilesWritten s1 t [td] fun _ i j =>
      let n := (i + 128 - row) % 128
      let code (p k : Nat) : Nat := s1.fetchChunk (c0 / 64 + per * n + p / 512) / 2 ^ (p % 512) % 2 ^ k
      if n ≤ o.nr.toNat then toAcc (m.value (code (w * j) w) (if m.blk = 0 then 0 else code (8 * (16 * w + j / m.blk)) 8))
      else s1.core.tiles.get td i j) ∧
    (Answers (exec (.mst c o) s) fun t => t = s1.setCore { s1.core with mfetch := t.core.mfetch } ∧ ∃ f, t.core.mfetch = some f ∧
      f.start = s1.core.fetchCycle ∧ f.len = steps ∧ f.writes = (List.range steps).map fun k =>
        (⟨f.start + k, c0 + 64 * k, BitVec.ofNat 512 (m.rowOut ((List.range 128).map fun j =>
          accNum (s1.core.tiles.get td ((row + k / per) % 128) j)) / 2 ^ (512 * (k % per)))⟩ : ChunkWrite))) ∧
  (∀ (f : FpFmt) (xs : List Machine.Num) (j : Nat), j < 128 →
    let w := (MatFmt.wide f).rowBits
    f.round false ((xs[j]?).getD .nan) < 2 ^ w → (MatFmt.wide f).rowOut xs / 2 ^ (w * j) % 2 ^ w = f.round false ((xs[j]?).getD .nan))

/-- KVBIND, SBIND, SBINDG, SUNBIND and SFLUSH (R316, R320, R338, R343, R346). -/
def Obligations.StreamBinds : Prop :=
  ∀ (c : Ctl) (o : CK) (s s1 : State) (d : Nat), s.enabled c = true → let i := o.sidx.toNat
    let s0 := s.ckCursor o
    (∀ t, s.strm i = some t → exec (.sunbind c o) s = .next (s.unbind i t)) ∧
    (s.strm i = none → Faults (.sunbind c o) s illegalSlot) ∧
    (readDesc s0 = .ok (d, s1) →
      (∀ e ∈ ([(.kvbind, 0x46, State.kvbindOk, State.kvStream), (.sbind, 0x01, fun _ => sbindOk false, (·.elemStream false)),
          (.sbindg, 0x02, fun _ => sbindOk true, (·.elemStream true))] :
          List ((Ctl → CK → Instr) × Nat × (State → Nat → Bool) × (State → Nat → Stream))),
        (s1.strm i = none → bindCompl d = true → e.2.2.1 s1 d = true → ∀ held t, issueFlags e.2.1 d s1 = .ok (held, t) →
          exec (e.1 c o) s = .next (t.setStrm i (e.2.2.2 t d))) ∧
        (¬(s1.strm i = none ∧ bindCompl d = true ∧ e.2.2.1 s1 d = true) → exec (e.1 c o) s = .next (s0.recFault illegalSlot []))) ∧
      (s1.strm i = none → exec (.sflush c o) s = .next (s0.recFault illegalSlot [])) ∧
      (∀ t, s1.strm i = some t → 32 ≤ s1.mine Cmd.isCopy → exec (.sflush c o) s = .next (s0.recStall .other [])) ∧
      (∀ t cmd u, s1.strm i = some t → s1.mine Cmd.isCopy < 32 → sendCmd 0x04 d (s1.cursor 0) s1 = .ok (cmd, u) →
        exec (.sflush c o) s = .next (if complOnlyBad 0x04 d then u else u.flushStream cmd i t))) ∧
    (s0.cursor 0 % 64 ≠ 0 → ∀ mk ∈ ([.kvbind, .sbind, .sbindg, .sflush] : List (Ctl → CK → Instr)),
      exec (mk c o) s = .next (s0.recFault bankConflict []))

/-- Commands leave for their engines at their issue; SPMAP, its UNMAP, SPSYNC and SPINV settle their status there, write back what they have to, and
change the maps when their bundle commits (R44, R67, R123, R316, R318, R338, R342, R352, R353, R354). The checks of SPSYNC in one pass before its
write-backs, and a failing write-back of UNMAP as at EXIT, are the model's choices (log 57). -/
def Obligations.CommandsIssue : Prop :=
  (∀ (c : Ctl) (o : CK) (s s1 : State) (d : Nat), s.enabled c = true → readDesc (s.ckCursor o) = .ok (d, s1) →
    let off := s1.cursor 0
    (∀ e ∈ ([(.kvnew, 0x40), (.kvapp, 0x41), (.kvtrunc, 0x42), (.kvfork, 0x43), (.kvfree, 0x44), (.kvqry, 0x47)] :
        List ((Ctl → CK → Instr) × Nat)),
      (16 ≤ s1.mine Cmd.isKv → exec (e.1 c o) s = .next ((s.ckCursor o).recStall .other [])) ∧
      (s1.mine Cmd.isKv < 16 → ∀ held t, issueFlags e.2 d s1 = .ok (held, t) →
        exec (e.1 c o) s = .next { t with nextId := t.nextId + 1, cmds := t.cmds ++ [{ t.newCmd e.2 d off with held := held }] })) ∧
    (∀ e ∈ ([(.cpy, 0x08), (.cpy2d, 0x09), (.mcstMulticast, 0x0A), (.migrMove, 0x60), (.migrFetch, 0x60), (.migrFlush, 0x60),
        (.migrPooladd, 0x60), (.migrPooltake, 0x60)] : List ((Ctl → CK → Instr) × Nat)),
      (32 ≤ s1.mine Cmd.isCopy → exec (e.1 c o) s = .next ((s.ckCursor o).recStall .other [])) ∧
      (s1.mine Cmd.isCopy < 32 → ∀ held t, issueFlags e.2 d s1 = .ok (held, t) →
        exec (e.1 c o) s = .next { t with nextId := t.nextId + 1, cmds := t.cmds ++ [{ t.newCmd e.2 d off with held := held }] })) ∧
    (let queue := (s1.racks.filter fun r => r.die = s1.die ∧ r.part = s1.core.part).length
      ∀ mk ∈ ([.kvrackRack, .kvrackPooladd, .kvrackPooltake] : List (Ctl → CK → Instr)),
        (256 ≤ queue → exec (mk c o) s = .next ((s.ckCursor o).recStall .other [])) ∧
        (queue < 256 → ∀ cmd t, sendCmd 0x45 d off s1 = .ok (cmd, t) →
          exec (mk c o) s = .next { t with racks := t.racks ++ [⟨t.die, t.core.part, none, some cmd.id⟩] })) ∧
    (∀ e ∈ ([(.cred, 0x61), (.cbcast, 0x62)] : List ((Ctl → CK → Instr) × Nat)),
      (32 ≤ s1.mine Cmd.isCopy → exec (e.1 c o) s = .next ((s.ckCursor o).recStall .other [])) ∧
      (s1.mine Cmd.isCopy < 32 → ∀ cmd t, sendCmd e.2 d off s1 = .ok (cmd, t) →
        (¬(cmd.level ≤ 4 ∧ s1.member cmd.level = true) → exec (e.1 c o) s = .next t) ∧
        (cmd.level ≤ 4 ∧ s1.member cmd.level = true → ∃ ring, let n := FMap.get 0 s1.core.colls (collKey e.2 cmd.level) + 1
          ((t.cmds.all fun x => x.id == cmd.id || !(t.sameColl x { cmd with coll := n })) = true → ring = t.ringOf cmd.level) ∧
          exec (e.1 c o) s = .next ((t.setCmd { cmd with coll := n, members := ring }).onCore fun k =>
            { k with colls := k.colls.insert (collKey e.2 cmd.level) n })))) ∧
    (∀ e ∈ ([(.spmap, 0x10, mapNew), (.spmapUnmap, 0x10, mapRemove), (.spsync, 0x11, mapSync), (.spinv, 0x12, mapInv)] :
        List ((Ctl → CK → Instr) × Nat × (Nat → M Nat))),
      (32 ≤ s1.mine Cmd.isCopy → exec (e.1 c o) s = .next ((s.ckCursor o).recStall .other [])) ∧
      (s1.mine Cmd.isCopy < 32 → ∀ cmd t, sendCmd e.2.1 d off s1 = .ok (cmd, t) →
        ((complOf e.2.1 d).bad = true → exec (e.1 c o) s = .next (t.setCmd { cmd with progress := 0x01, before := t.before })) ∧
        ((complOf e.2.1 d).bad = false → ∀ st u, e.2.2 d t = .ok (st, u) →
          exec (e.1 c o) s = .next ((u.setCmd { cmd with progress := st, before := u.before }).cmdSaw cmd (u.madeSince t)))))) ∧
  (∀ (s : State) (d : Nat), let so := bits d 20 0
    let len := bits d 52 32
    let gva := bits d 115 64
    (rangeBad d = true → mapNew d s = .ok (0x01, s) ∧ mapRemove d s = .ok (0x01, s) ∧ mapSync d s = .ok (0x01, s) ∧ mapInv d s = .ok (0x01, s)) ∧
    (rangeBad d = false →
    (bit d 116 = false → gva % 256 = 0 → spGroup so = spGroup (so + len - 1) →
      (s.core.nextMaps.length < 8 → (∀ m ∈ s.core.nextMaps, m.off + m.len ≤ so ∨ so + len ≤ m.off) →
        mapNew d s = .ok (0, s.post (.mapNew so len gva))) ∧
      ((8 ≤ s.core.nextMaps.length ∨ ∃ m ∈ s.core.nextMaps, m.off < so + len ∧ so < m.off + m.len) → mapNew d s = .ok (0x08, s))) ∧
    (bit d 116 = true → gva % 256 = 0 →
      ((∀ m ∈ s.core.nextMaps, ¬(m.off = so ∧ m.len = len)) → mapRemove d s = .ok (0x08, s)) ∧
      ((∃ m ∈ s.core.nextMaps, m.off = so ∧ m.len = len) →
        let gs := s.core.dirty.filter fun e => (s.core.maps[e.1]?).any (·.off == so)
        (gs = [] → mapRemove d s = .ok (0, s.post (.mapDrop so len))) ∧
        (∀ l u, (gs.mapM fun (i, g) => finalWriteBack i g) s = .ok (l, u) → mapRemove d s = .ok (0, u.post (.mapDrop so len))))) ∧
    (bit d 116 = false → gva = 0 →
      (s.core.dirtyIn so len = [] → mapSync d s = .ok (0, s.syncRange so len)) ∧
      (∀ u, syncChecks so (s.core.dirtyIn so len) s = .ok ((), u) → mapSync d s = .ok (0, u.syncRange so len)) ∧
      mapInv d s = .ok (0, s.post (.mapInv so len))))) ∧
  (∀ (s : State) (i g : Nat) (m : RegMap) (l : Loc) (s1 : State), s.core.maps[i]? = some m →
    xlateAs m.asid ((m.gva + 256 * g) % 2 ^ 52) .write s = .ok (l, s1) →
    let bs := { s.core with sp := s.snapshot }.marked (m.off + 256 * g) (m.granule g)
    (∀ b ∈ bs, b.1 < 256 ∧ (m.granule g).mask.getLsbD b.1 = true ∧ b.2 = s.snapshot.byte (m.off + 256 * g + b.1)) ∧
    (s1.wbWatched l bs = false → finalWriteBack i g s = .ok ((), s1.wbTo l m.asid bs (s1.core.badLines (m.off + 256 * g))))) ∧
  (∀ (s : State) (pa asid : Nat) (tag : LineTag) (bs : List (Nat × Byte)), s.core.ntq = [] → s.core.held = [] → (bs.map (·.1)).Nodup →
    (∀ w, w < 8 → (s.csr (0xC98 + w)).getLsbD 0 = false) →
    let t := s.wbTo (.dev pa tag) asid bs []
    (∀ b ∈ bs, t.mem.read (pa + b.1) = b.2) ∧ (∀ a, (∀ b ∈ bs, a / 64 ≠ (pa + b.1) / 64) → t.mem.read a = s.mem.read a) ∧
    ((∀ b ∈ bs, s.lineTagOf (pa + b.1) = tagAt tag (pa + b.1)) → ∀ a, (∀ b ∈ bs, a ≠ pa + b.1) → t.mem.read a = s.mem.read a)) ∧
  (∀ (s : State) (so len gva : Nat),
    (s.applyPost (.mapNew so len gva)).core.maps = s.core.maps ++ [⟨so, len, gva, s.core.asid, []⟩] ∧
    s.applyPost (.mapDrop so len) = s.setCore { s.core with maps := s.core.maps.filter fun m => !(decide (m.off = so ∧ m.len = len)) } ∧
    (let t := s.applyPost (.mapInv so len)
     t = s.setCore { s.core with maps := t.core.maps, pend := s.core.pend.filter fun e =>
        !(decide (e.file = .sp) && decide (so ≤ 64 * e.key) && decide (64 * e.key < so + len) && (s.core.mapOf (64 * e.key)).isSome) } ∧
      t.core.maps.length = s.core.maps.length ∧ ∀ (i : Nat) (m : RegMap), s.core.maps[i]? = some m → ∃ m' : RegMap, t.core.maps[i]? = some m' ∧
        m' = { m with gran := m'.gran } ∧ m'.gran = m.gran.filter fun g => !(decide (so ≤ m.off + 256 * g.1 ∧ m.off + 256 * g.1 < so + len))))

/-- What befalls a task at its core (R41, R72, R93, R115, R127, R276, R358, R362, R363, R369, R370, R374, R378, R416). A
fault of an event is ranked with the other conditions of the issue that it stops. When a stop and an expiry come is the model's reading (log 27, 50). -/
def Obligations.TaskUnits : Prop :=
  ∀ (s : State) (n : Nat), let k := s.coreAt n
    let here := { s with cur := n }
    let back (t : State) : State := { t with cur := s.cur }
    let waitEnds (u : State) (fi : FaultInfo) : State :=
      let fs := ⟨u.core.wslot, fi⟩ :: u.core.met
      if u.core.wslot < 6 then u.takeFault (faultMask fs) u.core.rpt u.core.pc.toNat ((chooseFault fs).getD fi)
      else u.takeFault 0 u.core.rpt u.core.pc.toNat fi
    (∀ z, k.wait = some (.waita z) → exec (.waitaWake n) s = .next (s.setCoreAt n { k with wait := none })) ∧
    (∀ m, k.wait = some (.sigwait m) →
      exec (.sigwaitTimeout n) s = .next (s.setCoreAt n { k with issue := { k.issue with given := (sigwaitKey, []) :: k.issue.given } })) ∧
    (k.run = .running →
      (∀ e ∈ ([.kvwaitExpire, .steepwaitExpire] : List (Holder → Instr)), ∀ fi,
        ((e (.core n) = .kvwaitExpire (.core n) ∧ ∃ i pos gbn, k.wait = some (.kv i pos gbn fi) ∧ s.stillMissing gbn fi = true) ∨
          (e (.core n) = .steepwaitExpire (.core n) ∧ ∃ fr, k.wait = some (.steep fr fi) ∧ s.segSteeping fr = true)) →
        (here.stopHeader = none → exec (e (.core n)) s = .next (back (waitEnds here fi))) ∧
        (∀ h, here.stopHeader = some h → exec (e (.core n)) s = .next (back (here.stopTask 0 h.lmi.toNat none false none)))) ∧
      (∀ own fi h b u, fetchBundle here = .ok ((h, b), u) → let fs := u.metWith h b own
        (∀ f ∈ own, f ∈ fs) ∧ (∀ f ∈ decodeFaults h (decodeSlots h.pm b), f ∈ fs) ∧
        (∀ f, chooseFault fs = some f → here.eventFault own fi =
          if f.cause ∈ [0x20, 0x21, 0x22] then ((here.recordPrecise (here.queueOf k.mcid)
              (here.taskRecord n (faultMask fs) k.rpt false k.pc.toNat f)).killTask k.mcid k.rank).endJob k.mcid
          else here.parkFault (faultMask fs) k.rpt k.pc.toNat f)) ∧
      (∀ line fs, here.consuming line = some fs → let t := back (here.eventFault fs (uncorrectable line))
        (∀ pa, pa / 64 * 64 = line → exec (.uncorrectable n pa) s = .next t) ∧
        (List.find? (fun l => (here.consuming l).isSome) ((s.poison.map fun e => 64 * e.1) ++ k.spBad.map fun e => e.2 / 64 * 64) = some line →
          exec (.taskTerminate n 0x20) s = .next t)) ∧
      (∀ pa, here.consuming (pa / 64 * 64) = none → exec (.uncorrectable n pa) s = .next s) ∧
      (∀ j l, s.job k.mcid = some j → l ∈ s.linksDown → s.dependsOn j l = true →
        exec (.taskTerminate n 0x21) s = .next ((s.recordPrecise (s.queueOf k.mcid) (mkRecord ⟨0, 0, false, false, j.part, k.mcid, 0, 0, 0, 0, 0⟩
          ⟨0x21, 0, 0, j.retired.setWidth 192⟩ s.time)).killJob k.mcid)) ∧
      (∀ why h b u, k.preq = some why → fetchBundle here = .ok ((h, b), u) → u.core.preq = some why → u.cur = n →
        let stop (r : Host.Outcome State Fault Refusal) : Prop := exec (.taskStop n) s = r
        let w := u.core.wait
        (why = .halt → u.atSafe h = true → stop (.next (back (u.stopTask 4 h.lmi.toNat none false none)))) ∧
        (why ≠ .fault → why ≠ .halt → u.atSafe h = true → let base := u.mcbF u.core.mcid 563 512
          (base = 0 → stop (.next (back (u.stopTask 0 h.lmi.toNat none false none)))) ∧
          (base ≠ 0 → ∀ bs s1, loadBytes ((base + 64 * h.lmi.toNat) % 2 ^ 52) 64 u = .ok (bs, s1) →
            stop (.next (back (s1.stopTask 0 h.lmi.toNat none false none (if liveOk (ofBytes bs) then some (ofBytes bs) else none)))))) ∧
        (why = .fault ∨ u.atSafe h = false →
          (∀ fi, (∃ i pos gbn, w = some (.kv i pos gbn fi)) ∨ (∃ fr, w = some (.steep fr fi)) → stop (.next (back (waitEnds u fi)))) ∧
          ((∃ z, w = some (.waita z)) ∨ w = some .bar ∨ w = some .motion ∨ (∃ m, w = some (.sigwait m)) →
            stop (.next (back (u.stopTask (if why = .halt then 4 else 3) 0 none false none)))) ∧
          (w = none → (why ≠ .fault → stop (.next s)) ∧
            (why = .fault → u.core.rpt = 0 → u.outside = false → u.core.issue.woken = none →
              stop (.next (back (u.stopTask 1 0 none false none))))))) ∧
      (∀ why c, k.preq = some why → why ≠ .fault → k.restart = true → k.ckpt = some c → ∃ u : State, u.cur = n ∧
        u.core.pc = c.pc ∧ u.core.lc = c.lc ∧ u.core.sgate = c.sgate ∧ u.core.rwin = c.rwin ∧ u.core.slots = c.slots ∧ u.core.rpt = 0 ∧
        u.core.held = [] ∧ (∀ q ∈ u.cmds, q.core = n → q.held = false) ∧
        exec (.rollback n) s = .next (back (u.stopTask 2 0 none false none))) ∧
      (∀ h b u a w pa tag, fetchBundle here = .ok ((h, b), u) →
        (here.core.slotOps (decodeSlots h.pm b)).findSome? (fun o => here.storeVa o.op) = some (a, w) →
        (here.xlate here.asker here.die k.asid a .write).1 = .hit (.dev pa tag) →
        (here.watchHits pa w).any (fun i => here.watchMc i == k.mcid) = true →
        exec (.watch n a) s = .next (back (here.eventFault [⟨0, ⟨0x30, 0, 0, vaInfo a true false⟩⟩] ⟨0x30, 0, 0, vaInfo a true false⟩))) ∧
      (∀ bank, n < 256 → bank < 32 → k.windowHolds (bank / 16 * 2 ^ 20) 64 = false → exec (.backgroundBankTake n bank) s = .next { s with cycle := min 2047 (s.cycle + 1) })) ∧
    (k.held ≠ [] ∨ (∃ c ∈ s.cmds, c.core = n ∧ c.held = true) → Answers (exec (.regionHoldExpire n) s) fun t => (t.coreAt n).held = [] ∧ (t.coreAt n).restart = false ∧
      t.cur = s.cur ∧ ∀ q ∈ t.cmds, q.core = n → q.held = false)

/-- Walks, prefetches and fills ahead of a task (R19, R22, R36, R43, R62, R75, R321, R345). -/
def Obligations.StreamUnits : Prop :=
  (∀ (s s1 : State) (asid va : Nat) (acc : Access) (l : Loc), inHost (va % 2 ^ 52) = false →
    s.xlateWalk s.die asid (va % 2 ^ 52) acc = (.hit l, s1) → exec (.pageWalk asid va acc) s = .next s1) ∧
  (∀ (s : State) (n i : Nat) (t : Stream), (s.coreAt n).run = .running → let here := { s with cur := n }
    let back (t : State) : State := { t with cur := s.cur }
    here.strm i = some t →
    (t.kind = .kv → ∀ v pins s1,
      (t.cur + t.ahead.length < t.stop → kvFetch i t (t.cur + t.ahead.length) here = .ok ((v, pins), s1) →
        exec (.kvWalk n i) s = .next (back (s1.setStrm i { t with pins := pins })) ∧
        (t.ahead.length < 128 → (∀ a ∈ t.ahead, a.bad = none) →
          exec (.kvStreamPrefetch n i) s = .next (back (s1.setStrm i { t with pins := pins, ahead := t.ahead ++ [⟨v, none⟩] })))) ∧
      (t.cur < t.stop → kvFetch i t t.cur here = .ok ((v, pins), s1) →
        exec (.pinWaitRelease n i) s = .next (back (s1.setStrm i { t with pins := pins })))) ∧
    (t.kind = .kv → t.ahead.length < 128 → t.cur + t.ahead.length < t.stop → (∀ a ∈ t.ahead, a.bad = none) → ∀ f ps,
      kvFetch i t (t.cur + t.ahead.length) here = .error (.fault f, ps) → f.cause ∉ [0x12, 0x15, 0x16] →
      exec (.kvStreamPrefetch n i) s = .next (back ((ps.foldl State.applyPost here).setStrm i { t with ahead := t.ahead ++ [⟨0, some f⟩] }))) ∧
    (t.kind = .global → t.push = false → t.ahead.length < 32 → t.ahead.length < t.left → (∀ a ∈ t.ahead, a.bad = none) → ∀ v ids s1,
      globalElement t.asid (t.place (2 ^ 52) (t.index + t.ahead.length)) t.view here = .ok ((v, ids), s1) →
      exec (.streamPrefetch n i) s = .next (back (s1.setStrm i { t with view := addIds t.view ids, ahead := t.ahead ++ [⟨v, none⟩] })))) ∧
  (∀ (s s1 : State) (n map gran : Nat) (m : RegMap), (s.coreAt n).run = .running → (s.coreAt n).maps[map]? = some m → 256 * gran < m.len →
    (s.coreAt n).windowHolds (m.off + 256 * gran) 256 = false → needGranule (m.off + 256 * gran) { s with cur := n } = .ok ((), s1) → exec (.granuleFill n map gran) s = .next { s1 with cur := s.cur })

/-- The engines' turns at commands, racks and steeping lists (R36, R37, R39, R61, R69, R76, R80, R110, R114, R185, R317, R340). What a list does
where its header or an entry cannot be read, the bytes of an answer to a peer, and the release of a block in the step that leaves it free are the
model's choices (log 34, 39, 78). -/
def Obligations.CommandEngines : Prop :=
  (∀ (s : State) (id : Nat) (c : Cmd), s.cmds.find? (·.id = id) = some c → c.held = false → let c' := { c with expired := false }
    (c.op ≠ 0x45 → c.op ≠ 0x60 → s.seqHeld c = true → exec (.commandCompletion id) s = .next s) ∧
    (c.op ≠ 0x45 → c.op ≠ 0x60 → s.seqHeld c = false →
      ((complOf c.op c.desc.toNat).bad = true → ∀ u t, c'.finish (.fail (malformedOf c.op) 0) s = .ok (u, t) →
        exec (.commandCompletion id) s = .next t) ∧
      ((complOf c.op c.desc.toNat).bad = false →
        (∀ r s1 u t, engineBody c' s = .ok (some r, s1) → c'.finish r s1 = .ok (u, t) → exec (.commandCompletion id) s = .next t) ∧
        (∀ s1, engineBody c' s = .ok (none, s1) → exec (.commandCompletion id) s = .next s1) ∧
        (∀ w ps, engineBody c' s = .error (.stall w, ps) →
          exec (.commandCompletion id) s = .next (((w.postsAnew c.wait ps).foldl State.applyPost s).setCmd { c with wait := some w })) ∧
        (c.op = 0x08 → c.isEgress = true → ∀ r s1 u t, egressBody c' s = .ok (r, s1) → c'.finish r s1 = .ok (u, t) →
          exec (.crpEgress id) s = .next t))) ∧
    (c.op = 0x45 → ∀ u t, rackTurn c' s = .ok (u, t) → exec (.commandCompletion id) s = .next t) ∧
    (c.op = 0x60 → c.pagesLeft = true → ∀ io u t, migrTurn io c' s = .ok (u, t) →
      exec (.migrPageComplete id io) s = .next t ∧ (io = false → exec (.commandCompletion id) s = .next t)) ∧
    (∀ r, (complOf c.op c.desc.toNat).bad = false → (complOf c.op c.desc.toNat).cwa = 0 → (complOf c.op c.desc.toNat).cwsp = false →
      r.status = 0 → c.finish r s = .ok ((), { s with
        cmds := s.cmds.filter (·.id ≠ id), racks := s.racks.filter (·.cmd ≠ some id), given := s.given.filter (·.agent ≠ 256 + id),
        ats := s.ats.filter (·.who ≠ 256 + id), atsBad := s.atsBad.filter (·.who ≠ 256 + id), pri := s.pri.filter (·.who ≠ 256 + id) }))) ∧
  (∀ (s : State) (die : Nat) (m : Move) (before rest : List Move) (g : Nat), s.moves = before ++ m :: rest → (∀ x ∈ before, x.gbn % 4 ≠ die) →
    m.gbn % 4 = die → s.gbtPa m.gbn = some g → s.gbtF g 59 48 = 0 → ∀ rf, let e := s.endMove m.gbn g rf
      let u := e.2.countMove m (s.rd g 32) e.1
      exec (.rackBlockMove die rf) s = .next (({ u with
        moves := u.moves.filter (· ≠ m),
        cmds := u.cmds.map fun (c : Cmd) => if some c.id = m.cmd ∨ c.waitsFor m.gbn = true then c.moved e.1 else c }.answerMove m e.1).settleBlock m.gbn)) ∧
  (∀ (s : State) (die : Nat) (r : Rack) (gbn : Nat), (∀ m ∈ s.moves, m.gbn % 4 ≠ die) →
    s.racks.find? (fun r => r.die = die ∧ r.part = 16) = some r → r.gbn = some gbn → ∀ rf,
    (s.autoWaits gbn = false → exec (.rackBlockMove die rf) s = .next ({ s with racks := s.racks.erase r }.startAuto gbn)) ∧
    (s.autoWaits gbn = true → exec (.rackBlockMove die rf) s = .next s)) ∧
  (∀ (s : State) (gbn g : Nat), s.gbtPa gbn = some g → let e := s.rd g 32
    (bits e 3 2 ≠ 0 → bits e 31 16 = 0 → bits e 59 48 = 0 → (∀ m ∈ s.moves, m.gbn ≠ gbn) →
      exec (.blockRelease gbn) s = .next ((((s.wr g (setBits e 3 2 0) 32).countBlock (bits e 41 32) false).kvPut (bits e 46 42) 0 gbn).kvPut
        (bits e 46 42) (1 + 3 * bits e 1 0 + bits e 131 130) (bits e 127 64))) ∧
    (∀ fab, s.peerUp fab = true → s.gbtF g 3 2 ≠ 0 → s.gbtF g 31 16 ≠ 0 →
      exec (.remoteDecrement fab gbn) s = .next ((s.setGbtF g 31 16 (s.gbtF g 31 16 - 1)).settleBlock gbn))) ∧
  (∀ (s : State) (fab part gbn : Nat), s.peerUp fab = true → let answer (code : Nat) (data : List Byte) : State :=
      { s with out := .peerReply fab (toBytes 1 code ++ toBytes 8 gbn ++ data) :: s.out }
    (s.paired fab part = none → ∀ read, exec (.remoteKvResolve fab part ⟨gbn, read⟩) s = .next (answer 0x14 [])) ∧
    (∀ p g v tier loc slot, s.paired fab part = some p → s.gbtWalk p s.fabId gbn 0 = .hit g v tier loc slot →
      let found := toBytes 8 loc ++ toBytes 2 slot ++ toBytes 1 (s.gbtF g 131 130)
      exec (.remoteKvResolve fab part ⟨gbn, false⟩) s = .next (answer 0x10 found) ∧
      (s.gbtF g 59 48 = 4095 → exec (.remoteKvResolve fab part ⟨gbn, true⟩) s = .next s) ∧
      (s.gbtF g 59 48 ≠ 4095 → exec (.remoteKvResolve fab part ⟨gbn, true⟩) s =
        let u := s.setGbtF g 59 48 (s.gbtF g 59 48 + 1)
        .next { u with peerPins := s.peerPins ++ [(fab, gbn)], out := .peerReply fab (toBytes 1 0x10 ++ toBytes 8 gbn ++ found) :: u.out }))) ∧
  (∀ (s s1 : State) (m : Nat) (t : Steep) (bs : List Byte), s.steeps.find? (fun t => t.mcid = m) = some t → (∀ e ∈ t.shared, e.result = 0) →
    (t.count = 0 → engRead (2 ^ 65 + m) (m / 4096) t.asid t.base 64 s = .ok (bs, s1) → let n := bits (ofBytes bs) 15 0
      exec (.steepEntry m) s = .next ((s1.setSteep t (if n = 0 then none else some { t with count := n })).dropGiven (2 ^ 65 + m))) ∧
    (t.count ≠ 0 → t.next < t.count → engRead (2 ^ 65 + m) (m / 4096) t.asid ((t.base + 64 + 64 * t.next) % 2 ^ 52) 64 s = .ok (bs, s1) →
      ∀ u s2, steepStep t t.next (ofBytes bs) s1 = .ok (u, s2) → exec (.steepEntry m) s = .next s2) ∧
    (∀ fi ps, let u := ps.foldl State.applyPost s
      (t.count = 0 → engRead (2 ^ 65 + m) (m / 4096) t.asid t.base 64 s = .error (.fault fi, ps) → exec (.steepEntry m) s = .next (u.setSteep t none)) ∧
      (t.count ≠ 0 → t.next < t.count → engRead (2 ^ 65 + m) (m / 4096) t.asid ((t.base + 64 + 64 * t.next) % 2 ^ 52) 64 s = .error (.fault fi, ps) →
        exec (.steepEntry m) s = .next (u.setSteep t (if t.done < t.next then some { t with count := t.next } else none))))) ∧
  (∀ (s : State) (m ent : Nat) (t : Steep) (f : SteepFetch), s.steeps.find? (fun t => t.mcid = m ∧ (t.fetching.take 16).any (·.ent == ent)) = some t →
    (t.fetching.take 16).find? (·.ent == ent) = some f → ∀ rf peer, let h := s.gristHash f.frame
    let finishes (s0 : State) (st arrive own : Nat) : Prop := let u := s0.arriveSegment f.frame st arrive own 0x2
      ∀ t1 x s2, u.steeps.find? (fun t => t.mcid = m ∧ (t.fetching.take 16).any (·.ent == ent)) = some t1 →
        endEntry t1 { t1 with fetching := t1.fetching.filter (· ≠ f) } ent own u = .ok (x, s2) →
        exec (.steepFetchComplete m ent rf peer) s =
          .next ({ s2 with peerReqs := s2.peerReqs.filter fun q => !(q.agent == 2 ^ 65 + m && q.key == ent) }.sendFetches m)
    (s.fetched t f.desc.toNat rf peer = none → finishes s 3 0x8000000000000001 0x8000000000000002) ∧
    (∀ d, s.fetched t f.desc.toNat rf peer = some d →
      let s0 := (s.agentWrite 5 0 0 (.seg h 0) f.frame d).count m 0 5 (if bits f.desc.toNat 257 256 = 0 then 2 ^ 21 else 0)
      if sha256 d = h then finishes s0 2 1 1 else finishes s0 3 0x8000000000000001 0x8000000000000001))

/-- The scanner, launches, swaps, parking, the calendar and the phases of partitions: each event completes with its effect (R153, R155, R189,
R190, R193, R195, R197, R199, R362, R371, R382, R384, R393, R421). How the scrub is cut into steps and the time it needs, what restores and launches
wait for, the places and victims of equal rank, one slot a unit, and what follows at once from a last arrival or stop are the model's readings and
choices (log 55, 66, 72, 79, 84). -/
def Obligations.DispatchUnits : Prop :=
  (∀ (s : State) (m lvl dom : Nat), exec (.barrierPhaseComplete m lvl dom) s = .next { s with
    bars := s.bars.map fun b => if b.mcid = m ∧ b.lvl = lvl ∧ b.dom = dom then s.settleBar b else b }) ∧
  (∀ (s : State) (die : Nat), die < 4 → (∀ b ∈ s.back, b.die ≠ die) →
    (s.scanPick die = .nothing → exec (.scanStep die) s = .next s) ∧
    (∀ r core, s.scanPick die = .restore r core →
      exec (.scanStep die) s = .next ({ s with dispq := s.dispq.filter (· ≠ r) }.restoreGroup r.mcid r.grp die core)) ∧
    (∀ r core, s.scanPick die = .resume r core [] →
      exec (.scanStep die) s = .next ({ s with resume := s.resume.filter (· ≠ r) }.restoreGroup r.mcid r.grp die core)) ∧
    (∀ r core v vs, s.scanPick die = .resume r core (v :: vs) →
      exec (.scanStep die) s = .next ((v :: vs).foldl (fun u w => u.askStop w.1 w.2 .victim)
        { s with resume := s.resume.filter (· ≠ r), back := s.back ++ [⟨r.mcid, r.grp, die, core⟩] })) ∧
    (∀ m c, m / 4096 = die → s.scanPick die = .job m c → (∀ p ∈ s.plans, p.mcid / 4096 ≠ die) →
      let u := { s with rot := s.rot.insert (rotKey die c) ((m % 4096 + 1) % 4096) }
      let w := { u with plans := ⟨m, [], 2 ^ s.mcbF m 38 36, 0⟩ :: s.plans }
      (w.choosePlaces (s.mcPart m) (s.mcPrio m) (s.hitchDies m) (s.mcbF m 40 39 + 1) [] = none → let t := { u with defer := s.defer.insert m true }
        exec (.hitch m) s = .next t ∧ exec (.scanStep die) s = .next t) ∧
      (∀ w1 vs r u1, w.choosePlaces (s.mcPart m) (s.mcPrio m) (s.hitchDies m) (s.mcbF m 40 39 + 1) [] = some (w1, vs) →
        u.pop m (s.mcbF m 431 416) (s.mcbF m 479 448) = (.popped r, u1) →
        let t := vs.foldl (fun u v => u.askStop v.1 v.2 .victim) { u1 with plans := u1.plans ++ (w1.plans.take 1).map fun p => { p with record := r } }
        exec (.hitch m) s = .next t ∧ exec (.scanStep die) s = .next t)) ∧
    (∀ m c, m / 4096 = die → s.scanPick die = .job m c → (∃ p ∈ s.plans, p.mcid / 4096 = die) →
      exec (.hitch m) s = .next s ∧ exec (.scanStep die) s = .next s)) ∧
  (∀ (s : State) (m : Nat) (p : HitchPlan), s.plans.find? (·.mcid = m) = some p →
    (∀ q ∈ p.places, ∀ i, i < p.size → (s.coreAt (64 * q.1 + q.2 + i)).run = .free) →
    ((s.poisoned (s.mcbPa m) 256).isSome = true → exec (.jobLaunch m) s = exec (.launch m) s) ∧
    (s.poisoned (s.mcbPa m) 256 = none → ∀ u : State, u = { (s.releaseRec m) with plans := s.plans.filter (·.mcid ≠ m) }.startJob m p.places p.record false (s.takenView m) →
    (u.phase (u.mcPart m) ≠ 1 → exec (.jobLaunch m) s = .next u) ∧
    (u.phase (u.mcPart m) = 1 → exec (.jobLaunch m) s = .next ((u.onCoreGroups m).foldl (fun u g => u.askStop m g .drain) u)))) ∧
  (∀ (s : State) (m : Nat),
    ((∃ p ∈ s.plans, p.mcid = m) → let t := s.endLaunch m
      exec (.launch m) s = .next (t.recordPrecise (t.queueOf m) (mkRecord ⟨0, 0, false, false, t.mcPart m, m, 0, 0, 0, 0, 0⟩ (.plain 0x22) t.time))) ∧
    ((∀ p ∈ s.plans, p.mcid ≠ m) → exec (.launch m) s = .next s)) ∧
  (∀ (s : State) (m g : Nat), s.groupStopped m g = true →
    ((∀ im ∈ s.groupImages m g, im.rec_ = none) → exec (.groupSwapOut m g) s = .next (s.swapOut m g) ∧ exec (.groupPark m g) s = .next s) ∧
    ((∃ im ∈ s.groupImages m g, im.rec_ ≠ none) → exec (.groupPark m g) s = .next (s.parkGroup m g) ∧ exec (.groupSwapOut m g) s = .next s)) ∧
  (∀ (s : State) (m g : Nat), (s.gplace m g).2.2 ≠ 1 → Answers (exec (.spillImage m g) s) fun t =>
    t.images.length = s.images.length ∧ ∀ (i : Nat) (im : Image), s.images[i]? = some im →
      t.images[i]? = some (if im ∈ s.groupImages m g then { im with spilled := true } else im)) ∧
  (∀ (s : State) (m g : Nat), exec (.parkConditionClear m g) s = .next { s with
    dispq := s.dispq.map fun (r : DispReq) => if r.mcid = m ∧ r.grp = g then { r with ready := r.ready.filter fun c => !s.cleared c } else r }) ∧
  (∀ (s : State) (m g : Nat), let cs := (s.groupCores m g).filter fun n => (s.coreAt n).run == .running
    cs ≠ [] → (∀ n ∈ cs, (s.coreAt n).slice ≠ 0 ∧ (s.coreAt n).since + 1 + (s.coreAt n).slice ≤ s.frame) →
    (s.sliceWanted = true → exec (.sliceEnd m g) s = .next (s.askStop m g .slice)) ∧
    (s.sliceWanted = false → exec (.sliceEnd m g) s = .next (cs.foldl (fun u n =>
      u.setCoreAt n { u.coreAt n with since := u.frame - 1, slice := max 1 (u.csrF 0x062 31 16) }) s))) ∧
  (∀ (s : State) (cls unit owner : Nat) (ws : List Nat), cls < 8 → (cls = 0 → ∀ p, p < 16 → s.holds p 1 unit = false) →
    s.csrF (0x200 + s.cycle / 8) 4 0 = owner →
    let w := (ws.filter (· ≤ 16)).eraseDups
    let u := 1 + cls + 8 * unit
    let slot := 256 * s.frame + s.cycle / 8
    (s.calSlot.find? u = some slot → exec (.calendarSlot cls unit ws) s = .next s) ∧
    (s.calSlot.find? u ≠ some slot → let served (t : State) : State := { t with calSlot := s.calSlot.insert u slot }
      (owner ∈ w → let e := s.calUse u owner
        exec (.calendarSlot cls unit ws) s = .next (served (s.setCal u owner { e with used := e.used + 1, owned := e.owned + 1 }))) ∧
      (owner ∉ w → let under (p : Nat) := decide ((s.calUse u p).used < s.ceiling cls p)
        let q2 := w.filter fun p => decide (0 < (s.calUse u p).credit) && under p && decide ((s.calUse u p).drawn < s.ceiling cls p - s.csrF (0x130 + p) 8 0)
        let q3 := w.filter fun p => under p && decide (0 < s.weight cls p)
        (∀ p t, s.rotate cls u q2 = some (p, t) → let e := t.calUse u p
          exec (.calendarSlot cls unit ws) s = .next (served (t.setCal u p { e with used := e.used + 1, drawn := e.drawn + 1, credit := e.credit - 1 }))) ∧
        (q2 = [] → ∀ p t, s.rotate cls u q3 = some (p, t) → let e := t.calUse u p
          exec (.calendarSlot cls unit ws) s = .next (served (t.setCal u p { e with used := e.used + 1 }))) ∧
        (q2 = [] → q3 = [] → exec (.calendarSlot cls unit ws) s = .next (served s))))) ∧
  (∀ (s : State), Answers (exec .frameBoundary s) fun t => t.frame = s.frame + 1 ∧ t.cycle = 0 ∧ t.defer = [] ∧ t.staged = []) ∧
  (∀ (s : State) (p : Nat), p < 16 →
    (s.cycle = 0 → s.drained p = true → exec (.drainComplete p) s = .next (s.pause p) ∧ (s.pause p).phase p = 2) ∧
    (s.phase p = 3 → (s.csrF (0x130 + p) 8 0 = 0 ∧ ∃ r, r < 8 ∧ s.csrF (0x170 + p) (8 * r + 7) (8 * r) = 0) → exec (.scrubComplete p) s = .next s) ∧
    (s.phase p = 3 → (s.csrF (0x130 + p) 8 0 ≠ 0 ∨ ∀ r, r < 8 → s.csrF (0x170 + p) (8 * r + 7) (8 * r) ≠ 0) →
      let u := ((s.freeSequences p).freeBlocks p).dropGrist p
      (∀ r ∈ u.hostReqs, (r.fn, r.pasid) ∉ u.hostIds (u.partAsids p)) → Answers (exec (.scrubComplete p) s) fun t => t.phase p = 4)) ∧
  (∀ (s : State) (p : Nat), p ≤ 16 → (p = 16 ∨ s.partExists p = true) → (s.sealOf p).due ≤ s.frame → let t := s.sealUsage p false false
    exec (.usageSeal p) s = .next { t with seals := t.seals.insert p { t.sealOf p with due := (s.sealOf p).due + 2 ^ 20 } })

/-- Work intake, Ethernet, errors, links and peers (R139, R142, R163, R169, R170, R178, R179, R184, R366, R388, R415, R416). The bytes of requests and
answers of peers, what an answer to a frame holds that no rule states, the writes of a raw ring, the reach of a host write and the counting of errors
are the model's readings and choices (log 39, 63, 64, 70, 73); that ring-pending is cleared where the ring is empty is one too (log 100). -/
def Obligations.PackageUnits : Prop :=
  (∀ (s : State) (src part : Nat) (pk : BitVec 512), let m := packetMc pk
    let n := pk.toNat
    let op := bits n 135 128
    let r0 := (withSrc pk src).extractLsb' 256 256
    s.mcPart m = part → bits n 143 137 = 0 → bits n 159 158 = 0 → bits n 255 162 = 0 → 1 ≤ op → op ≤ 12 → s.mcState m ≠ 0 →
    s.csrF (0xCA0 + part) 2 0 ≠ 3 →
    (s.waiting m (pk.extractLsb' 0 128) = none → s.heldRecs part (m % 8) < s.csrF (0x0D0 + part) 15 0 → s.freeRecs (m % 8) ≠ 0 →
      let t : State := { s with
        recs := s.recs ++ [⟨pk.extractLsb' 0 128, BitVec.ofNat 8 op, bit n 136, false, 1, m, part, s.time, initPayload op r0, []⟩],
        pending := s.pending.insert m true, defer := s.defer.erase m }
      exec (.push src part pk) s = .next (t.count m 0 6 1)) ∧
    (∀ i r, s.waiting m (pk.extractLsb' 0 128) = some i → s.recs[i]? = some r → r.op.toNat = op → r.count ≤ spliceCap op →
      let t : State := { s with
        recs := setAt s.recs i { r with payload := foldPayload op r.count r.payload r0, count := r.count + 1, view := addIds r.view [], sealed_ := bit n 136 },
        defer := s.defer.erase m }
      exec (.push src part pk) s = .next (t.count m 0 6 1)) ∧
    (∀ i r, s.waiting m (pk.extractLsb' 0 128) = some i → s.recs[i]? = some r → r.op.toNat ≠ op → exec (.push src part pk) s = .next s)) ∧
  (∀ (s : State) (fn m : Nat) (v : BitVec 64), m < 16384 → s.mcState m ≠ 0 → s.fnReaches fn m = true → exec (.notifyWrite fn m v) s =
    .next { s.setMcbF m 383 352 (bits v.toNat 31 0) with ringPend := s.ringPend.insert m true }) ∧
  (∀ (s t : State) (m : Nat), FMap.get false s.ringPend m = true → s.ringHeld m = false →
    (∀ st, ringStep m s = .ok (.pushed st, t) → exec (.ringFetch (m / 4096) m) s =
      .next (if st = 2 ∨ st = 3 then { t with ringHold := t.ringHold.insert m t.frame } else t)) ∧
    (∀ r, ringStep m s = .ok (r, t) → r = .empty ∨ r = .badMark → exec (.ringFetch (m / 4096) m) s = .next { t with ringPend := t.ringPend.erase m })) ∧
  (∀ (s : State) (port p : Nat) (f : List (BitVec 8)), s.framePart f = some p → s.phase p = 3 →
    exec (.crpIngress port f) s = .next s ∧ exec (.rawFrameReceive port f) s = .next s) ∧
  (∀ (s t : State) (port p : Nat) (f : List (BitVec 8)), port < 8 → s.framePart f = some p → s.phase p ≠ 3 →
    (∀ hdr msg, frameKind (s.csrF 0x060 15 0) f = .crp hdr msg →
      (crpIngest port p hdr msg s = .ok ((), t) → exec (.crpIngress port f) s = .next t) ∧
      (msg.length < 64 → exec (.crpIngress port f) s = .next s)) ∧
    (frameKind (s.csrF 0x060 15 0) f = .raw → (rawReceive port p f s = .ok ((), t) → exec (.rawFrameReceive port f) s = .next t) ∧
      (bit (s.csrN (0xCE0 + p)) 0 = false → rawLost p port (s.csrF (0x070 + p) 9 0) (bits (s.csrN (0xCE0 + p)) 51 12 * 4096) s = .ok ((), t) →
        exec (.rawFrameReceive port f) s = .next (t.dropGiven (2 ^ 66 + p))))) ∧
  (∀ (s : State) (die slot : Nat), exec (.returnSlotExpire die slot) s =
    .next { s with rslots := s.rslots.filter fun r => !(r.die == die && r.slot == slot && decide (r.stop ≤ s.frame)) }) ∧
  (∀ (s : State) (pa : Nat), s.frameOk pa = true → exec (.poison pa) s = .next (s.poisonLine (pa / 64))) ∧
  (∀ (s : State), let v := s.csrN 0xCFA
    exec .softErrorCorrect s = .next (s.setCsr 0xCFA (BitVec.ofNat 64 (setBits v 31 0 (min (bits v 31 0 + 1) (2 ^ 32 - 1)))))) ∧
  (∀ (s : State) (line : Nat), s.frameOk (64 * line) = true → exec (.patrolScrub line) s = .next { s with patrol := line }) ∧
  (∀ (s : State) (link : Link), let l := normLink link
    (l ∉ s.linksDown → let u := { s with linksDown := l :: s.linksDown }
      let t := (((u.jobs.filter fun j => u.dependsOn j l).map (·.mcid)).foldl State.cutJob u).dropPeer l
      exec (.linkDown link) s = .next ((t.cutPlans l).foldl State.failLaunch t)) ∧
    (l ∈ s.linksDown → exec (.linkDown link) s = .next s) ∧
    exec (.linkRestore link) s = .next { s with linksDown := s.linksDown.filter (· ≠ l) }.sendDecs) ∧
  (∀ (s s1 : State) (fab part va : Nat) (data : List (BitVec 8)) (ep sys : Bool), s.peerUp fab = true →
    (s.paired fab part = none → ∀ op, exec (.peerAccess fab part op va data ⟨ep, sys⟩) s = .next (s.answerPeer fab 0 [])) ∧
    (∀ p, s.paired fab part = some p → let asid := s.csrF (0x070 + p) 9 0
      let answered (u : State) (status : Nat) (bs : List Byte) : Host.Outcome State Fault Refusal :=
        .next (((u.answerPeer fab status bs).dropGiven (2 ^ 67 + fab)).forgetAsks (· == 2 ^ 67 + fab))
      (∀ bs bad, peerRead fab asid (va % 2 ^ 52) data.length sys s = .ok ((bs, bad), s1) →
        exec (.peerAccess fab part 0 va data ⟨ep, sys⟩) s = answered s1 (if bad then 3 else 1) bs) ∧
      (peerStore fab asid (va % 2 ^ 52) data ep sys s = .ok ((), s1) → exec (.peerAccess fab part 1 va data ⟨ep, sys⟩) s = answered s1 1 []) ∧
      (∀ rop, peerReduce fab asid rop (va % 2 ^ 52) data ep sys s = .ok ((), s1) →
        exec (.peerAccess fab part (rop + 2) va data ⟨ep, sys⟩) s = answered s1 1 []) ∧
      (∀ pk st u, s.push (packetMc pk) (s.mcPart (packetMc pk) == p) (withSrc pk 3) (s.alive (s.peerView fab)) = (st, u) →
        exec (.peerEnq fab part pk) s = .next (u.answerPeer fab 1 (toBytes 1 st))))) ∧
  (∀ (s : State) (req : Nat) (q : PeerReq) (ok ep : Bool) (data : List (BitVec 8)), s.peerReqs.find? (·.id = req) = some q →
    let u := { s with peerReqs := s.peerReqs.filter (·.id ≠ req) }
    (q.agent = nobody → let gbn := ofBytes ((q.data.drop 1).take 8)
      (ok = false → exec (.peerAcknowledgement req ok ep data) s = .next u) ∧
      (ok = true → q.key < 16 → q.data.head? = some 0 → exec (.peerAcknowledgement req ok ep data) s = .next (u.sendOwner q.fab (.peerUnpin q.fab gbn))) ∧
      (ok = true → q.data.head? = some 3 → q.data.length = 17 →
        exec (.peerAcknowledgement req ok ep data) s = .next (u.sendOwner q.fab (.peerDec q.fab gbn)))) ∧
    (q.agent ≠ nobody → 256 ≤ q.agent ∨ 16 ≤ q.key → exec (.peerAcknowledgement req ok ep data) s =
      .next { u with given := u.given ++ [⟨q.agent, q.key, BitVec.ofNat 8 (ok.toNat + 2 * (ok && ep).toNat) :: data⟩] }) ∧
    (q.agent < 256 → q.key < 16 → exec (.peerAcknowledgement req ok ep data) s = .next (u.rowAnswer q ok ep data))) ∧
  (∀ (s : State) (fn pa : Nat) (data : List (BitVec 8)) (ro : Bool), data ≠ [] → s.fnMay fn pa data.length = true →
    let t := if ro then s.writeInPlace 4 fn 0 [] pa data else s.hostPosted fn pa data
    exec (.hostWrite fn pa data ⟨false, ro⟩) s = .next t ∧ exec (.hostWrite fn pa data ⟨true, ro⟩) s = .next (t.poisonLines pa data.length)) ∧
  (∀ (s : State) (kind who wmc pa : Nat) (data : List (BitVec 8)), s.rangeValid 16 pa data.length = true → s.watchHits pa data.length ≠ [] →
    exec (.watchev kind who wmc pa data) s = .next (s.writeInPlace kind who wmc [] pa data))

/-- The host's answers and invalidations, and reset and bring-up (R48, R49, R50, R51, R141, R387, R395, R411, R413). What the boot record holds and
what a reset leaves are the model's choices (log 25, 26); that requests under way are given up by an invalidation is its reading of R51 (log 69). -/
def Obligations.HostUnits : Prop :=
  (∀ (s : State) (die fn pasid page : Nat), let asked (r : AtsReq) : Prop := r.die = die ∧ r.fn = fn ∧ r.pasid = pasid ∧ r.page = page
    let u := { s with ats := s.ats.filter fun r => !(r.die == die && r.fn == fn && r.pasid == pasid && r.page == page) }
    let held := s.invals.any fun i => i.covers fn pasid page
    (held = true ∨ (∀ r ∈ s.ats, ¬asked r) → ∀ res, exec (.atsCompletion die fn pasid page res) s = .next s) ∧
    (held = false → (∃ r ∈ s.ats, asked r) →
      (∀ rd wr xpage pages, (rd || wr) = true → let n := max 1 pages
        let e : DtcEntry := ⟨die, fn, pasid, page / n * n, n, xpage / n * n, rd, wr⟩
        Answers (exec (.atsCompletion die fn pasid page (.granted rd wr xpage pages)) s) fun t =>
          e ∈ t.dtc ∧ t.ats = u.ats ∧ (∀ x ∈ t.dtc, e.meets x = true → x = e)) ∧
      Answers (exec (.atsCompletion die fn pasid page .unsupported) s) (fun t =>
        t.ats = u.ats ∧ t.dtc = s.dtc ∧ t.pri = s.pri ∧ ∀ r ∈ s.ats, asked r → t.isBad die fn pasid page r.who = true) ∧
      (∀ xpage pages, Answers (exec (.atsCompletion die fn pasid page (.granted false false xpage pages)) s) fun t =>
        t.ats = u.ats ∧ t.dtc = s.dtc ∧ t.atsBad = s.atsBad ∧ ∀ r ∈ s.ats, asked r →
          (s.priState fn pasid page r.who = none → t.priState fn pasid page r.who = some .absent) ∧
          (s.priState fn pasid page r.who = some .succeeded → t.priState fn pasid page r.who = some .again)))) ∧
  (∀ (s : State) (fn pasid page : Nat) (res : PrgResult), exec (.prgResponse fn pasid page res) s = .next { s with
    pri := s.pri.map fun (r : PriReq) => if r.fn = fn ∧ r.pasid = pasid ∧ r.page = page ∧ r.st = .waiting then
        { r with st := if res = .success then .succeeded else .failed } else r }) ∧
  (∀ (s : State) (fn page pages : Nat) (pasid : Option Nat), let i : Inval := ⟨fn, pasid, page, pages, [], true⟩
    let gone (f p a : Nat) : Prop := i.meets f p a 1 = true ∨ ∃ e ∈ s.dtc, i.meets e.fn e.pasid e.page e.pages = true ∧
      e.fn = f ∧ e.pasid = p ∧ e.page ≤ a ∧ a < e.page + e.pages
    let dropped : State := { s with
      dtc := s.dtc.filter fun e => !i.meets e.fn e.pasid e.page e.pages, ats := s.ats.filter fun r => !i.covers r.fn r.pasid r.page,
      atsBad := s.atsBad.filter fun r => !i.meets r.fn r.pasid r.page 1,
      pri := (s.pri.filter fun r => !(r.st == .absent && i.meets r.fn r.pasid r.page 1)).map fun r =>
        if r.st = .again ∧ i.meets r.fn r.pasid r.page 1 = true then { r with st := .succeeded } else r }
    s.invals = [] → (∀ e ∈ s.cores, ∀ h ∈ e.2.unsent, ∀ p, h.host = some p → ¬gone p.fn p.pasid p.page) →
    ((∀ r ∈ s.hostReqs, ¬gone r.fn r.pasid r.page) →
      exec (.atsInvalidation fn pasid page pages) s = .next { dropped with out := .invalDone fn page :: s.out }) ∧
    ((∃ r ∈ s.hostReqs, gone r.fn r.pasid r.page) → Answers (exec (.atsInvalidation fn pasid page pages) s) fun t =>
      t = { dropped with invals := t.invals } ∧ ∃ j : Inval, t.invals = [j] ∧ j = { i with reqs := j.reqs } ∧
        ∀ r ∈ s.hostReqs, gone r.fn r.pasid r.page → r.id ∈ j.reqs)) ∧
  (∀ (s : State) (fn : Nat), 1 ≤ fn → fn ≤ 16 →
    (∀ e ∈ s.cores, ∀ h ∈ e.2.unsent, ∀ p, h.host = some p → s.hostGone (⟨fn, none, 0, 2 ^ 36, [], false⟩ : Inval).meets p.fn p.pasid p.page = false) →
    Answers (exec (.vfFlr fn) s) fun t =>
    (∀ e ∈ t.dtc, e.fn = fn → 0 < e.pages → 2 ^ 36 ≤ e.page) ∧
    t.csrs = s.csrs.map fun (e : Nat × Dword) => if 0x400 ≤ e.1 ∧ e.1 < 0x800 ∧ bits e.2.toNat 35 32 = fn then
      (e.1, e.2 &&& ~~~(BitVec.ofNat 64 (2 ^ 31))) else e) ∧
  (∀ (s : State) (req : Nat) (q : HostReq) (data : List (BitVec 8)), s.hostReqs.find? (·.id = req) = some q → data.length = q.len →
    s.invals = [] → let u := { s with hostReqs := s.hostReqs.filter (·.id ≠ req) }
    (q.core < 256 → exec (.hostCompletion req data) s =
      .next (u.at_ q.core fun s => s.onIssue fun i => { i with given := i.given ++ [(q.key, data)] })) ∧
    (q.core = nobody → exec (.hostCompletion req data) s = .next u) ∧
    (256 ≤ q.core → q.core ≠ nobody → exec (.hostCompletion req data) s = .next { u with given := s.given ++ [⟨q.core, q.key, data⟩] })) ∧
  (∀ (s : State) (b : BootRecord), s.boot.inReset = true → s.boot.fail = false →
    (b.signatureOk = false → exec (.bringUp b) s =
      .next { s with boot := { s.boot with step := 0, fail := true, code := 1 }, out := .faultPin :: s.out }) ∧
    (b.signatureOk = true → (b.certificateOk = false → Answers (exec (.bringUp b) s) fun t => t.boot.fail = true ∧ t.boot.code = 2 ∧ t.boot.inReset = true) ∧
      (b.certificateOk = true → b.recordOk = false ∨ (b.record.drop 32).take 32 ≠ toBytes 32 Config.idHash.toNat →
        Answers (exec (.bringUp b) s) fun t => t.boot.fail = true ∧ t.boot.code = 3 ∧ t.boot.inReset = true) ∧
      (b.certificateOk = true → b.recordOk = true → (b.record.drop 32).take 32 = toBytes 32 Config.idHash.toNat → ∀ n, rootCoreOf (disabledBy b.record) = some n →
        (b.trainingOk = false → Answers (exec (.bringUp b) s) fun t => t.boot.fail = true ∧ t.boot.code = 4 ∧ t.boot.inReset = true) ∧
        (b.trainingOk = true → Answers (exec (.bringUp b) s) fun t => t.boot.fail = false ∧ t.boot.step = 5 ∧ t.boot.inReset = false ∧
          t.boot.rootCore = n ∧ (t.coreAt n).run = .running ∧ (t.coreAt n).pl = 2 ∧ (t.coreAt n).pc = b.entry ∧
          t.boot.fwMeas = sha256 b.image ∧ t.boot.cfgHash = sha256 b.record)))) ∧
  (∀ b : Boot, b.step < 8 → b.code < 16 →
    bits b.stat.toNat 2 0 = b.step ∧ bit b.stat.toNat 3 = b.fail ∧ bits b.stat.toNat 7 4 = b.code ∧ bits b.stat.toNat 63 8 = 0) ∧
  (∀ (s : State), let r := { State.reset with tick := s.tick, turns := s.turns, out := s.out, nvme := s.nvme }
    exec .perstAssert s = .next r ∧ exec .thermtrip s = .next { r with out := .faultPin :: .therm :: s.out })
end

