-- ==== Sys2Proof/Laws/Slot.lean ====
section
/-! SUPPORT. Laws of the computations of a slot: what each building block does when it is run on a state, and what a slot or an event answers for it. -/

namespace Sys2Proof.Machine

variable {α β : Type}

@[simp] theorem M.pure_run (a : α) (s : State) : (pure a : M α) s = .ok (a, s) := rfl

@[simp] theorem M.bind_run (m : M α) (f : α → M β) (s : State) :
    (m >>= f) s = match m s with
      | .ok (a, t) => f a t
      | .error e => .error e := by
  show (StateT.bind m f) s = _
  unfold StateT.bind
  cases h : m s <;> simp [bind, Except.bind]

@[simp] theorem M.get_run (s : State) : (get : M State) s = .ok (s, s) := rfl
@[simp] theorem M.set_run (t s : State) : (set t : M PUnit) s = .ok (⟨⟩, t) := rfl
@[simp] theorem M.change_run (f : State → State) (s : State) : M.change f s = .ok ((), f s) := rfl
@[simp] theorem M.asks_run (f : State → α) (s : State) : M.asks f s = .ok (f s, s) := rfl
@[simp] theorem M.stop_run (a : Abort) (ps : List Post) (s : State) : (M.stop a ps : M α) s = .error (a, ps) := rfl
@[simp] theorem M.need_true (a : Abort) : M.need true a = pure () := rfl
@[simp] theorem M.need_false (a : Abort) : M.need false a = M.stop a := rfl

@[simp] theorem M.map_run (f : α → β) (m : M α) (s : State) :
    (f <$> m) s = match m s with
      | .ok (a, t) => .ok (f a, t)
      | .error e => .error e := by
  show (StateT.map f m) s = _
  unfold StateT.map
  cases h : m s <;> simp [bind, Except.bind, pure, Except.pure]

@[simp] theorem M.leaving_run (ps : List Post) (m : M α) (s : State) :
    M.leaving ps m s = match m s with
      | .ok r => .ok r
      | .error e => .error (e.1, ps ++ e.2) := by
  unfold M.leaving
  cases m s <;> rfl

@[simp] theorem M.ite_run (b : Prop) [Decidable b] (m n : M α) (s : State) : (if b then m else n) s = if b then m s else n s := by
  split <;> rfl

theorem M.need_run (b : Bool) (a : Abort) (s : State) : M.need b a s = if b then .ok ((), s) else .error (a, []) := by
  cases b <;> rfl

/-- What a slot answers for a computation that completes. -/
theorem runSlot_ok {m : M Unit} {s t : State} {u : Unit} (h : m s = .ok (u, t)) : runSlot m s = .next t := by simp [runSlot, h]
/-- What a slot answers for a computation that meets a fault condition. -/
theorem runSlot_fault {m : M Unit} {s : State} {fi : FaultInfo} {ps : List Post} (h : m s = .error (.fault fi, ps)) :
    runSlot m s = .next (s.recFault fi ps) := by simp [runSlot, h]
/-- What a slot answers for a computation that has to wait. -/
theorem runSlot_stall {m : M Unit} {s : State} {w : Wait} {ps : List Post} (h : m s = .error (.stall w, ps)) :
    runSlot m s = .next (s.recStall w ps) := by simp [runSlot, h]

theorem slotOp_on {c : Ctl} {m : M Unit} {s : State} (h : s.enabled c = true) : slotOp c m s = runSlot m s := by simp [slotOp, h]
theorem scalarOp_on {c : Ctl} {f : State → State} {s : State} (h : s.enabled c = true) : scalarOp c f s = .next (f s) := by simp [scalarOp, h]
theorem slotOp_off {c : Ctl} {m : M Unit} {s : State} (h : s.enabled c = false) : slotOp c m s = .next s := by simp [slotOp, h]
theorem scalarOp_off {c : Ctl} {f : State → State} {s : State} (h : s.enabled c = false) : scalarOp c f s = .next s := by simp [scalarOp, h]

/-- What an event answers for a computation that completes. -/
theorem runEvent_ok {m : M Unit} {s t : State} {u : Unit} (h : m s = .ok (u, t)) : runEvent m s = .next t := by simp [runEvent, h]
/-- An event that ends early for another reason than a hole has no effect. -/
theorem runEvent_fault {m : M Unit} {s : State} {fi : FaultInfo} {ps : List Post} (h : m s = .error (.fault fi, ps)) :
    runEvent m s = .next s := by simp [runEvent, h]

end Sys2Proof.Machine
end

