-- ==== Sys2Proof/Laws/Map.lean ====
section
/-! SUPPORT. Laws of finite maps: reading after writing, and the canonical form. -/

namespace Sys2Proof.Machine

variable {α : Type}

theorem FMap.find?_erase (m : FMap α) (a b : Nat) : (m.erase a).find? b = if a = b then none else m.find? b := by
  induction m with
  | nil => simp [FMap.erase, FMap.find?]
  | cons e m ih =>
    obtain ⟨k, v⟩ := e
    simp only [FMap.erase, FMap.find?]
    by_cases h : k = a
    · subst h
      rw [if_pos rfl, ih]
      by_cases h2 : k = b <;> simp [h2]
    · simp only [h, if_false, FMap.find?, ih]
      by_cases h2 : k = b
      · subst h2
        simp [Ne.symm h]
      · simp [h2]

theorem FMap.find?_put_self (m : FMap α) (a : Nat) (v : α) (h : m.find? a = none) : (m.put a v).find? a = some v := by
  induction m with
  | nil => simp [FMap.put, FMap.find?]
  | cons e m ih =>
    obtain ⟨k, w⟩ := e
    simp only [FMap.find?] at h
    by_cases hk : k = a
    · simp [hk] at h
    · simp only [hk, if_false] at h
      simp only [FMap.put]
      split
      · simp [FMap.find?]
      · simp [FMap.find?, hk, ih h]

theorem FMap.find?_put_ne (m : FMap α) (a b : Nat) (v : α) (h : a ≠ b) : (m.put a v).find? b = m.find? b := by
  induction m with
  | nil => simp [FMap.put, FMap.find?, h]
  | cons e m ih =>
    obtain ⟨k, w⟩ := e
    simp only [FMap.put]
    split
    · simp [FMap.find?, h]
    · simp [FMap.find?, ih]

theorem FMap.find?_insert (m : FMap α) (a b : Nat) (v : α) : (m.insert a v).find? b = if a = b then some v else m.find? b := by
  unfold FMap.insert
  by_cases h : a = b
  · subst h
    simp [FMap.find?_put_self, FMap.find?_erase]
  · simp [FMap.find?_put_ne _ _ _ _ h, FMap.find?_erase, h]

theorem FMap.get_insert (d : α) (m : FMap α) (a b : Nat) (v : α) :
    FMap.get d (m.insert a v) b = if a = b then v else FMap.get d m b := by
  unfold FMap.get
  rw [FMap.find?_insert]
  split <;> rfl

theorem FMap.get_set [DecidableEq α] (d : α) (m : FMap α) (a b : Nat) (v : α) :
    FMap.get d (m.set d a v) b = if a = b then v else FMap.get d m b := by
  unfold FMap.set
  by_cases hv : v = d
  · simp only [hv, if_true, FMap.get, FMap.find?_erase]
    split <;> rfl
  · have := FMap.get_insert d m a b v
    unfold FMap.insert at this
    simp only [hv, if_false, this]

theorem FMap.erase_erase (m : FMap α) (a : Nat) : (m.erase a).erase a = m.erase a := by
  induction m with
  | nil => rfl
  | cons e m ih =>
    obtain ⟨k, v⟩ := e
    simp only [FMap.erase]
    split
    · exact ih
    · simp only [FMap.erase, ih]
      rw [if_neg ‹_›]

theorem FMap.erase_put (m : FMap α) (a : Nat) (v : α) : (m.put a v).erase a = m.erase a := by
  induction m with
  | nil => simp [FMap.put, FMap.erase]
  | cons e m ih =>
    obtain ⟨k, w⟩ := e
    simp only [FMap.put]
    split
    · simp [FMap.erase]
    · simp only [FMap.erase, ih]

/-- The last write of a key stands. -/
theorem FMap.insert_insert (m : FMap α) (a : Nat) (v w : α) : (m.insert a v).insert a w = m.insert a w := by
  unfold FMap.insert
  rw [FMap.erase_put, FMap.erase_erase]

/-- Every key of a map lies above a bound. -/
def FMap.above (b : Nat) (m : FMap α) : Prop := ∀ e ∈ m, b < e.1

theorem FMap.sorted_cons (k : Nat) (v : α) (m : FMap α) : FMap.sorted ((k, v) :: m) = true ↔ FMap.above k m ∧ m.sorted = true := by
  induction m generalizing k v with
  | nil => simp [FMap.sorted, FMap.above]
  | cons e m ih =>
    obtain ⟨j, w⟩ := e
    simp only [FMap.sorted, Bool.and_eq_true, decide_eq_true_eq]
    rw [ih]
    constructor
    · rintro ⟨hk, ha, hs⟩
      refine ⟨?_, ha, hs⟩
      intro x hx
      rcases List.mem_cons.1 hx with rfl | hx
      · exact hk
      · exact Nat.lt_trans hk (ha x hx)
    · rintro ⟨h, ha, hs⟩
      exact ⟨h _ (List.mem_cons_self ..), ha, hs⟩

theorem FMap.mem_erase (m : FMap α) (a : Nat) (e : Nat × α) (h : e ∈ m.erase a) : e ∈ m ∧ e.1 ≠ a := by
  induction m with
  | nil => simp [FMap.erase] at h
  | cons x m ih =>
    obtain ⟨k, v⟩ := x
    simp only [FMap.erase] at h
    split at h
    · exact ⟨List.mem_cons_of_mem _ (ih h).1, (ih h).2⟩
    · rcases List.mem_cons.1 h with rfl | h
      · exact ⟨List.mem_cons_self .., ‹_›⟩
      · exact ⟨List.mem_cons_of_mem _ (ih h).1, (ih h).2⟩

theorem FMap.mem_put (m : FMap α) (a : Nat) (v : α) (e : Nat × α) (h : e ∈ m.put a v) : e = (a, v) ∨ e ∈ m := by
  induction m with
  | nil => simpa [FMap.put] using h
  | cons x m ih =>
    obtain ⟨k, w⟩ := x
    simp only [FMap.put] at h
    split at h
    · simpa using h
    · rcases List.mem_cons.1 h with rfl | h
      · exact .inr (List.mem_cons_self ..)
      · exact (ih h).imp_right (List.mem_cons_of_mem _)

theorem FMap.sorted_erase (m : FMap α) (a : Nat) (h : m.sorted = true) : (m.erase a).sorted = true := by
  induction m with
  | nil => rfl
  | cons x m ih =>
    obtain ⟨k, v⟩ := x
    rw [FMap.sorted_cons] at h
    simp only [FMap.erase]
    split
    · exact ih h.2
    · rw [FMap.sorted_cons]
      exact ⟨fun e he => h.1 e (FMap.mem_erase m a e he).1, ih h.2⟩

theorem FMap.sorted_put (m : FMap α) (a : Nat) (v : α) (h : m.sorted = true) (ha : ∀ e ∈ m, e.1 ≠ a) :
    (m.put a v).sorted = true := by
  induction m with
  | nil => rfl
  | cons x m ih =>
    obtain ⟨k, w⟩ := x
    simp only [FMap.put]
    split
    · rw [FMap.sorted_cons]
      refine ⟨?_, h⟩
      rw [FMap.sorted_cons] at h
      intro e he
      rcases List.mem_cons.1 he with rfl | he
      · assumption
      · exact Nat.lt_trans ‹a < k› (h.1 e he)
    · rw [FMap.sorted_cons] at h
      rw [FMap.sorted_cons]
      refine ⟨?_, ih h.2 fun e he => ha e (List.mem_cons_of_mem _ he)⟩
      intro e he
      rcases FMap.mem_put m a v e he with rfl | he
      · have := ha (k, w) (List.mem_cons_self ..)
        have : k ≠ a := this
        show k < a
        omega
      · exact h.1 e he

/-- Writing a key keeps the canonical form. -/
theorem FMap.wf_set [DecidableEq α] (d : α) (m : FMap α) (a : Nat) (v : α) (h : m.wf d = true) : (m.set d a v).wf d = true := by
  unfold FMap.wf at *
  simp only [Bool.and_eq_true, List.all_eq_true] at *
  unfold FMap.set
  split
  · exact ⟨FMap.sorted_erase m a h.1, fun e he => h.2 e (FMap.mem_erase m a e he).1⟩
  · refine ⟨FMap.sorted_put _ a v (FMap.sorted_erase m a h.1) fun e he => (FMap.mem_erase m a e he).2, ?_⟩
    intro e he
    rcases FMap.mem_put _ a v e he with rfl | he
    · simpa using ‹¬v = d›
    · exact h.2 e (FMap.mem_erase m a e he).1

end Sys2Proof.Machine
end

