-- ==== Sys2Proof/Laws/State.lean ====
section
/-! SUPPORT. The state after each of the named updates, field by field. -/

namespace Sys2Proof.Machine

@[simp] theorem State.setCoreAt_tick (s : State) (n : Nat) (k : Core) : (s.setCoreAt n k).tick = s.tick := rfl
@[simp] theorem State.setCoreAt_turns (s : State) (n : Nat) (k : Core) : (s.setCoreAt n k).turns = s.turns := rfl
@[simp] theorem State.setCoreAt_cur (s : State) (n : Nat) (k : Core) : (s.setCoreAt n k).cur = s.cur := rfl
@[simp] theorem State.setCoreAt_out (s : State) (n : Nat) (k : Core) : (s.setCoreAt n k).out = s.out := rfl
@[simp] theorem State.setCoreAt_boot (s : State) (n : Nat) (k : Core) : (s.setCoreAt n k).boot = s.boot := rfl
@[simp] theorem State.setCoreAt_frame (s : State) (n : Nat) (k : Core) : (s.setCoreAt n k).frame = s.frame := rfl
@[simp] theorem State.setCoreAt_cycle (s : State) (n : Nat) (k : Core) : (s.setCoreAt n k).cycle = s.cycle := rfl
@[simp] theorem State.setCoreAt_mem (s : State) (n : Nat) (k : Core) : (s.setCoreAt n k).mem = s.mem := rfl
@[simp] theorem State.setCoreAt_lineTag (s : State) (n : Nat) (k : Core) : (s.setCoreAt n k).lineTag = s.lineTag := rfl
@[simp] theorem State.setCoreAt_poison (s : State) (n : Nat) (k : Core) : (s.setCoreAt n k).poison = s.poison := rfl
@[simp] theorem State.setCoreAt_nvme (s : State) (n : Nat) (k : Core) : (s.setCoreAt n k).nvme = s.nvme := rfl
@[simp] theorem State.setCoreAt_mcs (s : State) (n : Nat) (k : Core) : (s.setCoreAt n k).mcs = s.mcs := rfl
@[simp] theorem State.setCoreAt_csrs (s : State) (n : Nat) (k : Core) : (s.setCoreAt n k).csrs = s.csrs := rfl
@[simp] theorem State.setCoreAt_staged (s : State) (n : Nat) (k : Core) : (s.setCoreAt n k).staged = s.staged := rfl
@[simp] theorem State.setCoreAt_keys (s : State) (n : Nat) (k : Core) : (s.setCoreAt n k).keys = s.keys := rfl
@[simp] theorem State.setCoreAt_kvCount (s : State) (n : Nat) (k : Core) : (s.setCoreAt n k).kvCount = s.kvCount := rfl
@[simp] theorem State.setCoreAt_pendRows (s : State) (n : Nat) (k : Core) : (s.setCoreAt n k).pendRows = s.pendRows := rfl
@[simp] theorem State.setCoreAt_grants (s : State) (n : Nat) (k : Core) : (s.setCoreAt n k).grants = s.grants := rfl
@[simp] theorem State.setCoreAt_tlb (s : State) (n : Nat) (k : Core) : (s.setCoreAt n k).tlb = s.tlb := rfl
@[simp] theorem State.setCoreAt_motion (s : State) (n : Nat) (k : Core) : (s.setCoreAt n k).motion = s.motion := rfl
@[simp] theorem State.setCoreAt_dtc (s : State) (n : Nat) (k : Core) : (s.setCoreAt n k).dtc = s.dtc := rfl
@[simp] theorem State.setCoreAt_ats (s : State) (n : Nat) (k : Core) : (s.setCoreAt n k).ats = s.ats := rfl
@[simp] theorem State.setCoreAt_atsBad (s : State) (n : Nat) (k : Core) : (s.setCoreAt n k).atsBad = s.atsBad := rfl
@[simp] theorem State.setCoreAt_pri (s : State) (n : Nat) (k : Core) : (s.setCoreAt n k).pri = s.pri := rfl
@[simp] theorem State.setCoreAt_grist (s : State) (n : Nat) (k : Core) : (s.setCoreAt n k).grist = s.grist := rfl
@[simp] theorem State.setCoreAt_gristPtr (s : State) (n : Nat) (k : Core) : (s.setCoreAt n k).gristPtr = s.gristPtr := rfl
@[simp] theorem State.setCoreAt_gristKeys (s : State) (n : Nat) (k : Core) : (s.setCoreAt n k).gristKeys = s.gristKeys := rfl
@[simp] theorem State.setCoreAt_steeps (s : State) (n : Nat) (k : Core) : (s.setCoreAt n k).steeps = s.steeps := rfl
@[simp] theorem State.setCoreAt_recs (s : State) (n : Nat) (k : Core) : (s.setCoreAt n k).recs = s.recs := rfl
@[simp] theorem State.setCoreAt_hold (s : State) (n : Nat) (k : Core) : (s.setCoreAt n k).hold = s.hold := rfl
@[simp] theorem State.setCoreAt_pending (s : State) (n : Nat) (k : Core) : (s.setCoreAt n k).pending = s.pending := rfl
@[simp] theorem State.setCoreAt_defer (s : State) (n : Nat) (k : Core) : (s.setCoreAt n k).defer = s.defer := rfl
@[simp] theorem State.setCoreAt_rot (s : State) (n : Nat) (k : Core) : (s.setCoreAt n k).rot = s.rot := rfl
@[simp] theorem State.setCoreAt_resume (s : State) (n : Nat) (k : Core) : (s.setCoreAt n k).resume = s.resume := rfl
@[simp] theorem State.setCoreAt_dispq (s : State) (n : Nat) (k : Core) : (s.setCoreAt n k).dispq = s.dispq := rfl
@[simp] theorem State.setCoreAt_plans (s : State) (n : Nat) (k : Core) : (s.setCoreAt n k).plans = s.plans := rfl
@[simp] theorem State.setCoreAt_back (s : State) (n : Nat) (k : Core) : (s.setCoreAt n k).back = s.back := rfl
@[simp] theorem State.setCoreAt_jobs (s : State) (n : Nat) (k : Core) : (s.setCoreAt n k).jobs = s.jobs := rfl
@[simp] theorem State.setCoreAt_images (s : State) (n : Nat) (k : Core) : (s.setCoreAt n k).images = s.images := rfl
@[simp] theorem State.setCoreAt_cmds (s : State) (n : Nat) (k : Core) : (s.setCoreAt n k).cmds = s.cmds := rfl
@[simp] theorem State.setCoreAt_racks (s : State) (n : Nat) (k : Core) : (s.setCoreAt n k).racks = s.racks := rfl
@[simp] theorem State.setCoreAt_moves (s : State) (n : Nat) (k : Core) : (s.setCoreAt n k).moves = s.moves := rfl
@[simp] theorem State.setCoreAt_bars (s : State) (n : Nat) (k : Core) : (s.setCoreAt n k).bars = s.bars := rfl
@[simp] theorem State.setCoreAt_left (s : State) (n : Nat) (k : Core) : (s.setCoreAt n k).left = s.left := rfl
@[simp] theorem State.setCoreAt_ringPend (s : State) (n : Nat) (k : Core) : (s.setCoreAt n k).ringPend = s.ringPend := rfl
@[simp] theorem State.setCoreAt_rslots (s : State) (n : Nat) (k : Core) : (s.setCoreAt n k).rslots = s.rslots := rfl
@[simp] theorem State.setCoreAt_decs (s : State) (n : Nat) (k : Core) : (s.setCoreAt n k).decs = s.decs := rfl
@[simp] theorem State.setCoreAt_linksDown (s : State) (n : Nat) (k : Core) : (s.setCoreAt n k).linksDown = s.linksDown := rfl
@[simp] theorem State.setCoreAt_peerReqs (s : State) (n : Nat) (k : Core) : (s.setCoreAt n k).peerReqs = s.peerReqs := rfl
@[simp] theorem State.setCoreAt_hostReqs (s : State) (n : Nat) (k : Core) : (s.setCoreAt n k).hostReqs = s.hostReqs := rfl
@[simp] theorem State.setCoreAt_invals (s : State) (n : Nat) (k : Core) : (s.setCoreAt n k).invals = s.invals := rfl
@[simp] theorem State.setCoreAt_given (s : State) (n : Nat) (k : Core) : (s.setCoreAt n k).given = s.given := rfl
@[simp] theorem State.setCoreAt_hist (s : State) (n : Nat) (k : Core) : (s.setCoreAt n k).hist = s.hist := rfl
@[simp] theorem State.setCoreAt_writes (s : State) (n : Nat) (k : Core) : (s.setCoreAt n k).writes = s.writes := rfl
@[simp] theorem State.setCoreAt_fences (s : State) (n : Nat) (k : Core) : (s.setCoreAt n k).fences = s.fences := rfl
@[simp] theorem State.setCoreAt_posted (s : State) (n : Nat) (k : Core) : (s.setCoreAt n k).posted = s.posted := rfl
@[simp] theorem State.setCoreAt_cxl (s : State) (n : Nat) (k : Core) : (s.setCoreAt n k).cxl = s.cxl := rfl
@[simp] theorem State.setCoreAt_seqView (s : State) (n : Nat) (k : Core) : (s.setCoreAt n k).seqView = s.seqView := rfl
@[simp] theorem State.setCoreAt_ended (s : State) (n : Nat) (k : Core) : (s.setCoreAt n k).ended = s.ended := rfl
@[simp] theorem State.setCoreAt_xidHosts (s : State) (n : Nat) (k : Core) : (s.setCoreAt n k).xidHosts = s.xidHosts := rfl
@[simp] theorem State.setCoreAt_att (s : State) (n : Nat) (k : Core) : (s.setCoreAt n k).att = s.att := rfl
@[simp] theorem State.setCoreAt_vclock (s : State) (n : Nat) (k : Core) : (s.setCoreAt n k).vclock = s.vclock := rfl
@[simp] theorem State.setCoreAt_walks (s : State) (n : Nat) (k : Core) : (s.setCoreAt n k).walks = s.walks := rfl
@[simp] theorem State.setCoreAt_outer (s : State) (n : Nat) (k : Core) : (s.setCoreAt n k).outer = s.outer := rfl
@[simp] theorem State.setCoreAt_exchanges (s : State) (n : Nat) (k : Core) : (s.setCoreAt n k).exchanges = s.exchanges := rfl
@[simp] theorem State.setCoreAt_ringHold (s : State) (n : Nat) (k : Core) : (s.setCoreAt n k).ringHold = s.ringHold := rfl
@[simp] theorem State.setCoreAt_calSlot (s : State) (n : Nat) (k : Core) : (s.setCoreAt n k).calSlot = s.calSlot := rfl
@[simp] theorem State.setCoreAt_peerPins (s : State) (n : Nat) (k : Core) : (s.setCoreAt n k).peerPins = s.peerPins := rfl
@[simp] theorem State.setCoreAt_nextId (s : State) (n : Nat) (k : Core) : (s.setCoreAt n k).nextId = s.nextId := rfl
@[simp] theorem State.setCoreAt_use (s : State) (n : Nat) (k : Core) : (s.setCoreAt n k).use = s.use := rfl
@[simp] theorem State.setCoreAt_totals (s : State) (n : Nat) (k : Core) : (s.setCoreAt n k).totals = s.totals := rfl
@[simp] theorem State.setCoreAt_seals (s : State) (n : Nat) (k : Core) : (s.setCoreAt n k).seals = s.seals := rfl
@[simp] theorem State.setCoreAt_pendRecs (s : State) (n : Nat) (k : Core) : (s.setCoreAt n k).pendRecs = s.pendRecs := rfl
@[simp] theorem State.setCoreAt_cal (s : State) (n : Nat) (k : Core) : (s.setCoreAt n k).cal = s.cal := rfl
@[simp] theorem State.setCoreAt_patrol (s : State) (n : Nat) (k : Core) : (s.setCoreAt n k).patrol = s.patrol := rfl
@[simp] theorem State.setCoreAt_touched (s : State) (n : Nat) (k : Core) : (s.setCoreAt n k).touched = s.touched := rfl

@[simp] theorem State.onCore_tick (s : State) (f : Core → Core) : (s.onCore f).tick = s.tick := rfl
@[simp] theorem State.onCore_turns (s : State) (f : Core → Core) : (s.onCore f).turns = s.turns := rfl
@[simp] theorem State.onCore_cur (s : State) (f : Core → Core) : (s.onCore f).cur = s.cur := rfl
@[simp] theorem State.onCore_out (s : State) (f : Core → Core) : (s.onCore f).out = s.out := rfl
@[simp] theorem State.onCore_boot (s : State) (f : Core → Core) : (s.onCore f).boot = s.boot := rfl
@[simp] theorem State.onCore_frame (s : State) (f : Core → Core) : (s.onCore f).frame = s.frame := rfl
@[simp] theorem State.onCore_cycle (s : State) (f : Core → Core) : (s.onCore f).cycle = s.cycle := rfl
@[simp] theorem State.onCore_mem (s : State) (f : Core → Core) : (s.onCore f).mem = s.mem := rfl
@[simp] theorem State.onCore_lineTag (s : State) (f : Core → Core) : (s.onCore f).lineTag = s.lineTag := rfl
@[simp] theorem State.onCore_poison (s : State) (f : Core → Core) : (s.onCore f).poison = s.poison := rfl
@[simp] theorem State.onCore_nvme (s : State) (f : Core → Core) : (s.onCore f).nvme = s.nvme := rfl
@[simp] theorem State.onCore_mcs (s : State) (f : Core → Core) : (s.onCore f).mcs = s.mcs := rfl
@[simp] theorem State.onCore_csrs (s : State) (f : Core → Core) : (s.onCore f).csrs = s.csrs := rfl
@[simp] theorem State.onCore_staged (s : State) (f : Core → Core) : (s.onCore f).staged = s.staged := rfl
@[simp] theorem State.onCore_keys (s : State) (f : Core → Core) : (s.onCore f).keys = s.keys := rfl
@[simp] theorem State.onCore_kvCount (s : State) (f : Core → Core) : (s.onCore f).kvCount = s.kvCount := rfl
@[simp] theorem State.onCore_pendRows (s : State) (f : Core → Core) : (s.onCore f).pendRows = s.pendRows := rfl
@[simp] theorem State.onCore_grants (s : State) (f : Core → Core) : (s.onCore f).grants = s.grants := rfl
@[simp] theorem State.onCore_tlb (s : State) (f : Core → Core) : (s.onCore f).tlb = s.tlb := rfl
@[simp] theorem State.onCore_motion (s : State) (f : Core → Core) : (s.onCore f).motion = s.motion := rfl
@[simp] theorem State.onCore_dtc (s : State) (f : Core → Core) : (s.onCore f).dtc = s.dtc := rfl
@[simp] theorem State.onCore_ats (s : State) (f : Core → Core) : (s.onCore f).ats = s.ats := rfl
@[simp] theorem State.onCore_atsBad (s : State) (f : Core → Core) : (s.onCore f).atsBad = s.atsBad := rfl
@[simp] theorem State.onCore_pri (s : State) (f : Core → Core) : (s.onCore f).pri = s.pri := rfl
@[simp] theorem State.onCore_grist (s : State) (f : Core → Core) : (s.onCore f).grist = s.grist := rfl
@[simp] theorem State.onCore_gristPtr (s : State) (f : Core → Core) : (s.onCore f).gristPtr = s.gristPtr := rfl
@[simp] theorem State.onCore_gristKeys (s : State) (f : Core → Core) : (s.onCore f).gristKeys = s.gristKeys := rfl
@[simp] theorem State.onCore_steeps (s : State) (f : Core → Core) : (s.onCore f).steeps = s.steeps := rfl
@[simp] theorem State.onCore_recs (s : State) (f : Core → Core) : (s.onCore f).recs = s.recs := rfl
@[simp] theorem State.onCore_hold (s : State) (f : Core → Core) : (s.onCore f).hold = s.hold := rfl
@[simp] theorem State.onCore_pending (s : State) (f : Core → Core) : (s.onCore f).pending = s.pending := rfl
@[simp] theorem State.onCore_defer (s : State) (f : Core → Core) : (s.onCore f).defer = s.defer := rfl
@[simp] theorem State.onCore_rot (s : State) (f : Core → Core) : (s.onCore f).rot = s.rot := rfl
@[simp] theorem State.onCore_resume (s : State) (f : Core → Core) : (s.onCore f).resume = s.resume := rfl
@[simp] theorem State.onCore_dispq (s : State) (f : Core → Core) : (s.onCore f).dispq = s.dispq := rfl
@[simp] theorem State.onCore_plans (s : State) (f : Core → Core) : (s.onCore f).plans = s.plans := rfl
@[simp] theorem State.onCore_back (s : State) (f : Core → Core) : (s.onCore f).back = s.back := rfl
@[simp] theorem State.onCore_jobs (s : State) (f : Core → Core) : (s.onCore f).jobs = s.jobs := rfl
@[simp] theorem State.onCore_images (s : State) (f : Core → Core) : (s.onCore f).images = s.images := rfl
@[simp] theorem State.onCore_cmds (s : State) (f : Core → Core) : (s.onCore f).cmds = s.cmds := rfl
@[simp] theorem State.onCore_racks (s : State) (f : Core → Core) : (s.onCore f).racks = s.racks := rfl
@[simp] theorem State.onCore_moves (s : State) (f : Core → Core) : (s.onCore f).moves = s.moves := rfl
@[simp] theorem State.onCore_bars (s : State) (f : Core → Core) : (s.onCore f).bars = s.bars := rfl
@[simp] theorem State.onCore_left (s : State) (f : Core → Core) : (s.onCore f).left = s.left := rfl
@[simp] theorem State.onCore_ringPend (s : State) (f : Core → Core) : (s.onCore f).ringPend = s.ringPend := rfl
@[simp] theorem State.onCore_rslots (s : State) (f : Core → Core) : (s.onCore f).rslots = s.rslots := rfl
@[simp] theorem State.onCore_decs (s : State) (f : Core → Core) : (s.onCore f).decs = s.decs := rfl
@[simp] theorem State.onCore_linksDown (s : State) (f : Core → Core) : (s.onCore f).linksDown = s.linksDown := rfl
@[simp] theorem State.onCore_peerReqs (s : State) (f : Core → Core) : (s.onCore f).peerReqs = s.peerReqs := rfl
@[simp] theorem State.onCore_hostReqs (s : State) (f : Core → Core) : (s.onCore f).hostReqs = s.hostReqs := rfl
@[simp] theorem State.onCore_invals (s : State) (f : Core → Core) : (s.onCore f).invals = s.invals := rfl
@[simp] theorem State.onCore_given (s : State) (f : Core → Core) : (s.onCore f).given = s.given := rfl
@[simp] theorem State.onCore_hist (s : State) (f : Core → Core) : (s.onCore f).hist = s.hist := rfl
@[simp] theorem State.onCore_writes (s : State) (f : Core → Core) : (s.onCore f).writes = s.writes := rfl
@[simp] theorem State.onCore_fences (s : State) (f : Core → Core) : (s.onCore f).fences = s.fences := rfl
@[simp] theorem State.onCore_posted (s : State) (f : Core → Core) : (s.onCore f).posted = s.posted := rfl
@[simp] theorem State.onCore_cxl (s : State) (f : Core → Core) : (s.onCore f).cxl = s.cxl := rfl
@[simp] theorem State.onCore_seqView (s : State) (f : Core → Core) : (s.onCore f).seqView = s.seqView := rfl
@[simp] theorem State.onCore_ended (s : State) (f : Core → Core) : (s.onCore f).ended = s.ended := rfl
@[simp] theorem State.onCore_xidHosts (s : State) (f : Core → Core) : (s.onCore f).xidHosts = s.xidHosts := rfl
@[simp] theorem State.onCore_att (s : State) (f : Core → Core) : (s.onCore f).att = s.att := rfl
@[simp] theorem State.onCore_vclock (s : State) (f : Core → Core) : (s.onCore f).vclock = s.vclock := rfl
@[simp] theorem State.onCore_walks (s : State) (f : Core → Core) : (s.onCore f).walks = s.walks := rfl
@[simp] theorem State.onCore_outer (s : State) (f : Core → Core) : (s.onCore f).outer = s.outer := rfl
@[simp] theorem State.onCore_exchanges (s : State) (f : Core → Core) : (s.onCore f).exchanges = s.exchanges := rfl
@[simp] theorem State.onCore_ringHold (s : State) (f : Core → Core) : (s.onCore f).ringHold = s.ringHold := rfl
@[simp] theorem State.onCore_calSlot (s : State) (f : Core → Core) : (s.onCore f).calSlot = s.calSlot := rfl
@[simp] theorem State.onCore_peerPins (s : State) (f : Core → Core) : (s.onCore f).peerPins = s.peerPins := rfl
@[simp] theorem State.onCore_nextId (s : State) (f : Core → Core) : (s.onCore f).nextId = s.nextId := rfl
@[simp] theorem State.onCore_use (s : State) (f : Core → Core) : (s.onCore f).use = s.use := rfl
@[simp] theorem State.onCore_totals (s : State) (f : Core → Core) : (s.onCore f).totals = s.totals := rfl
@[simp] theorem State.onCore_seals (s : State) (f : Core → Core) : (s.onCore f).seals = s.seals := rfl
@[simp] theorem State.onCore_pendRecs (s : State) (f : Core → Core) : (s.onCore f).pendRecs = s.pendRecs := rfl
@[simp] theorem State.onCore_cal (s : State) (f : Core → Core) : (s.onCore f).cal = s.cal := rfl
@[simp] theorem State.onCore_patrol (s : State) (f : Core → Core) : (s.onCore f).patrol = s.patrol := rfl
@[simp] theorem State.onCore_touched (s : State) (f : Core → Core) : (s.onCore f).touched = s.touched := rfl

@[simp] theorem State.onIssue_tick (s : State) (f : Issue → Issue) : (s.onIssue f).tick = s.tick := rfl
@[simp] theorem State.onIssue_turns (s : State) (f : Issue → Issue) : (s.onIssue f).turns = s.turns := rfl
@[simp] theorem State.onIssue_cur (s : State) (f : Issue → Issue) : (s.onIssue f).cur = s.cur := rfl
@[simp] theorem State.onIssue_out (s : State) (f : Issue → Issue) : (s.onIssue f).out = s.out := rfl
@[simp] theorem State.onIssue_boot (s : State) (f : Issue → Issue) : (s.onIssue f).boot = s.boot := rfl
@[simp] theorem State.onIssue_frame (s : State) (f : Issue → Issue) : (s.onIssue f).frame = s.frame := rfl
@[simp] theorem State.onIssue_cycle (s : State) (f : Issue → Issue) : (s.onIssue f).cycle = s.cycle := rfl
@[simp] theorem State.onIssue_mem (s : State) (f : Issue → Issue) : (s.onIssue f).mem = s.mem := rfl
@[simp] theorem State.onIssue_lineTag (s : State) (f : Issue → Issue) : (s.onIssue f).lineTag = s.lineTag := rfl
@[simp] theorem State.onIssue_poison (s : State) (f : Issue → Issue) : (s.onIssue f).poison = s.poison := rfl
@[simp] theorem State.onIssue_nvme (s : State) (f : Issue → Issue) : (s.onIssue f).nvme = s.nvme := rfl
@[simp] theorem State.onIssue_mcs (s : State) (f : Issue → Issue) : (s.onIssue f).mcs = s.mcs := rfl
@[simp] theorem State.onIssue_csrs (s : State) (f : Issue → Issue) : (s.onIssue f).csrs = s.csrs := rfl
@[simp] theorem State.onIssue_staged (s : State) (f : Issue → Issue) : (s.onIssue f).staged = s.staged := rfl
@[simp] theorem State.onIssue_keys (s : State) (f : Issue → Issue) : (s.onIssue f).keys = s.keys := rfl
@[simp] theorem State.onIssue_kvCount (s : State) (f : Issue → Issue) : (s.onIssue f).kvCount = s.kvCount := rfl
@[simp] theorem State.onIssue_pendRows (s : State) (f : Issue → Issue) : (s.onIssue f).pendRows = s.pendRows := rfl
@[simp] theorem State.onIssue_grants (s : State) (f : Issue → Issue) : (s.onIssue f).grants = s.grants := rfl
@[simp] theorem State.onIssue_tlb (s : State) (f : Issue → Issue) : (s.onIssue f).tlb = s.tlb := rfl
@[simp] theorem State.onIssue_motion (s : State) (f : Issue → Issue) : (s.onIssue f).motion = s.motion := rfl
@[simp] theorem State.onIssue_dtc (s : State) (f : Issue → Issue) : (s.onIssue f).dtc = s.dtc := rfl
@[simp] theorem State.onIssue_ats (s : State) (f : Issue → Issue) : (s.onIssue f).ats = s.ats := rfl
@[simp] theorem State.onIssue_atsBad (s : State) (f : Issue → Issue) : (s.onIssue f).atsBad = s.atsBad := rfl
@[simp] theorem State.onIssue_pri (s : State) (f : Issue → Issue) : (s.onIssue f).pri = s.pri := rfl
@[simp] theorem State.onIssue_grist (s : State) (f : Issue → Issue) : (s.onIssue f).grist = s.grist := rfl
@[simp] theorem State.onIssue_gristPtr (s : State) (f : Issue → Issue) : (s.onIssue f).gristPtr = s.gristPtr := rfl
@[simp] theorem State.onIssue_gristKeys (s : State) (f : Issue → Issue) : (s.onIssue f).gristKeys = s.gristKeys := rfl
@[simp] theorem State.onIssue_steeps (s : State) (f : Issue → Issue) : (s.onIssue f).steeps = s.steeps := rfl
@[simp] theorem State.onIssue_recs (s : State) (f : Issue → Issue) : (s.onIssue f).recs = s.recs := rfl
@[simp] theorem State.onIssue_hold (s : State) (f : Issue → Issue) : (s.onIssue f).hold = s.hold := rfl
@[simp] theorem State.onIssue_pending (s : State) (f : Issue → Issue) : (s.onIssue f).pending = s.pending := rfl
@[simp] theorem State.onIssue_defer (s : State) (f : Issue → Issue) : (s.onIssue f).defer = s.defer := rfl
@[simp] theorem State.onIssue_rot (s : State) (f : Issue → Issue) : (s.onIssue f).rot = s.rot := rfl
@[simp] theorem State.onIssue_resume (s : State) (f : Issue → Issue) : (s.onIssue f).resume = s.resume := rfl
@[simp] theorem State.onIssue_dispq (s : State) (f : Issue → Issue) : (s.onIssue f).dispq = s.dispq := rfl
@[simp] theorem State.onIssue_plans (s : State) (f : Issue → Issue) : (s.onIssue f).plans = s.plans := rfl
@[simp] theorem State.onIssue_back (s : State) (f : Issue → Issue) : (s.onIssue f).back = s.back := rfl
@[simp] theorem State.onIssue_jobs (s : State) (f : Issue → Issue) : (s.onIssue f).jobs = s.jobs := rfl
@[simp] theorem State.onIssue_images (s : State) (f : Issue → Issue) : (s.onIssue f).images = s.images := rfl
@[simp] theorem State.onIssue_cmds (s : State) (f : Issue → Issue) : (s.onIssue f).cmds = s.cmds := rfl
@[simp] theorem State.onIssue_racks (s : State) (f : Issue → Issue) : (s.onIssue f).racks = s.racks := rfl
@[simp] theorem State.onIssue_moves (s : State) (f : Issue → Issue) : (s.onIssue f).moves = s.moves := rfl
@[simp] theorem State.onIssue_bars (s : State) (f : Issue → Issue) : (s.onIssue f).bars = s.bars := rfl
@[simp] theorem State.onIssue_left (s : State) (f : Issue → Issue) : (s.onIssue f).left = s.left := rfl
@[simp] theorem State.onIssue_ringPend (s : State) (f : Issue → Issue) : (s.onIssue f).ringPend = s.ringPend := rfl
@[simp] theorem State.onIssue_rslots (s : State) (f : Issue → Issue) : (s.onIssue f).rslots = s.rslots := rfl
@[simp] theorem State.onIssue_decs (s : State) (f : Issue → Issue) : (s.onIssue f).decs = s.decs := rfl
@[simp] theorem State.onIssue_linksDown (s : State) (f : Issue → Issue) : (s.onIssue f).linksDown = s.linksDown := rfl
@[simp] theorem State.onIssue_peerReqs (s : State) (f : Issue → Issue) : (s.onIssue f).peerReqs = s.peerReqs := rfl
@[simp] theorem State.onIssue_hostReqs (s : State) (f : Issue → Issue) : (s.onIssue f).hostReqs = s.hostReqs := rfl
@[simp] theorem State.onIssue_invals (s : State) (f : Issue → Issue) : (s.onIssue f).invals = s.invals := rfl
@[simp] theorem State.onIssue_given (s : State) (f : Issue → Issue) : (s.onIssue f).given = s.given := rfl
@[simp] theorem State.onIssue_hist (s : State) (f : Issue → Issue) : (s.onIssue f).hist = s.hist := rfl
@[simp] theorem State.onIssue_writes (s : State) (f : Issue → Issue) : (s.onIssue f).writes = s.writes := rfl
@[simp] theorem State.onIssue_fences (s : State) (f : Issue → Issue) : (s.onIssue f).fences = s.fences := rfl
@[simp] theorem State.onIssue_posted (s : State) (f : Issue → Issue) : (s.onIssue f).posted = s.posted := rfl
@[simp] theorem State.onIssue_cxl (s : State) (f : Issue → Issue) : (s.onIssue f).cxl = s.cxl := rfl
@[simp] theorem State.onIssue_seqView (s : State) (f : Issue → Issue) : (s.onIssue f).seqView = s.seqView := rfl
@[simp] theorem State.onIssue_ended (s : State) (f : Issue → Issue) : (s.onIssue f).ended = s.ended := rfl
@[simp] theorem State.onIssue_xidHosts (s : State) (f : Issue → Issue) : (s.onIssue f).xidHosts = s.xidHosts := rfl
@[simp] theorem State.onIssue_att (s : State) (f : Issue → Issue) : (s.onIssue f).att = s.att := rfl
@[simp] theorem State.onIssue_vclock (s : State) (f : Issue → Issue) : (s.onIssue f).vclock = s.vclock := rfl
@[simp] theorem State.onIssue_walks (s : State) (f : Issue → Issue) : (s.onIssue f).walks = s.walks := rfl
@[simp] theorem State.onIssue_outer (s : State) (f : Issue → Issue) : (s.onIssue f).outer = s.outer := rfl
@[simp] theorem State.onIssue_exchanges (s : State) (f : Issue → Issue) : (s.onIssue f).exchanges = s.exchanges := rfl
@[simp] theorem State.onIssue_ringHold (s : State) (f : Issue → Issue) : (s.onIssue f).ringHold = s.ringHold := rfl
@[simp] theorem State.onIssue_calSlot (s : State) (f : Issue → Issue) : (s.onIssue f).calSlot = s.calSlot := rfl
@[simp] theorem State.onIssue_peerPins (s : State) (f : Issue → Issue) : (s.onIssue f).peerPins = s.peerPins := rfl
@[simp] theorem State.onIssue_nextId (s : State) (f : Issue → Issue) : (s.onIssue f).nextId = s.nextId := rfl
@[simp] theorem State.onIssue_use (s : State) (f : Issue → Issue) : (s.onIssue f).use = s.use := rfl
@[simp] theorem State.onIssue_totals (s : State) (f : Issue → Issue) : (s.onIssue f).totals = s.totals := rfl
@[simp] theorem State.onIssue_seals (s : State) (f : Issue → Issue) : (s.onIssue f).seals = s.seals := rfl
@[simp] theorem State.onIssue_pendRecs (s : State) (f : Issue → Issue) : (s.onIssue f).pendRecs = s.pendRecs := rfl
@[simp] theorem State.onIssue_cal (s : State) (f : Issue → Issue) : (s.onIssue f).cal = s.cal := rfl
@[simp] theorem State.onIssue_patrol (s : State) (f : Issue → Issue) : (s.onIssue f).patrol = s.patrol := rfl
@[simp] theorem State.onIssue_touched (s : State) (f : Issue → Issue) : (s.onIssue f).touched = s.touched := rfl

@[simp] theorem State.putPend_tick (s : State) (f : RegFile) (r : Nat) (v m : BitVec 4096) (l : Nat) : (s.putPend f r v m l).tick = s.tick := rfl
@[simp] theorem State.putPend_turns (s : State) (f : RegFile) (r : Nat) (v m : BitVec 4096) (l : Nat) : (s.putPend f r v m l).turns = s.turns := rfl
@[simp] theorem State.putPend_cur (s : State) (f : RegFile) (r : Nat) (v m : BitVec 4096) (l : Nat) : (s.putPend f r v m l).cur = s.cur := rfl
@[simp] theorem State.putPend_out (s : State) (f : RegFile) (r : Nat) (v m : BitVec 4096) (l : Nat) : (s.putPend f r v m l).out = s.out := rfl
@[simp] theorem State.putPend_boot (s : State) (f : RegFile) (r : Nat) (v m : BitVec 4096) (l : Nat) : (s.putPend f r v m l).boot = s.boot := rfl
@[simp] theorem State.putPend_frame (s : State) (f : RegFile) (r : Nat) (v m : BitVec 4096) (l : Nat) : (s.putPend f r v m l).frame = s.frame := rfl
@[simp] theorem State.putPend_cycle (s : State) (f : RegFile) (r : Nat) (v m : BitVec 4096) (l : Nat) : (s.putPend f r v m l).cycle = s.cycle := rfl
@[simp] theorem State.putPend_mem (s : State) (f : RegFile) (r : Nat) (v m : BitVec 4096) (l : Nat) : (s.putPend f r v m l).mem = s.mem := rfl
@[simp] theorem State.putPend_lineTag (s : State) (f : RegFile) (r : Nat) (v m : BitVec 4096) (l : Nat) : (s.putPend f r v m l).lineTag = s.lineTag := rfl
@[simp] theorem State.putPend_poison (s : State) (f : RegFile) (r : Nat) (v m : BitVec 4096) (l : Nat) : (s.putPend f r v m l).poison = s.poison := rfl
@[simp] theorem State.putPend_nvme (s : State) (f : RegFile) (r : Nat) (v m : BitVec 4096) (l : Nat) : (s.putPend f r v m l).nvme = s.nvme := rfl
@[simp] theorem State.putPend_mcs (s : State) (f : RegFile) (r : Nat) (v m : BitVec 4096) (l : Nat) : (s.putPend f r v m l).mcs = s.mcs := rfl
@[simp] theorem State.putPend_csrs (s : State) (f : RegFile) (r : Nat) (v m : BitVec 4096) (l : Nat) : (s.putPend f r v m l).csrs = s.csrs := rfl
@[simp] theorem State.putPend_staged (s : State) (f : RegFile) (r : Nat) (v m : BitVec 4096) (l : Nat) : (s.putPend f r v m l).staged = s.staged := rfl
@[simp] theorem State.putPend_keys (s : State) (f : RegFile) (r : Nat) (v m : BitVec 4096) (l : Nat) : (s.putPend f r v m l).keys = s.keys := rfl
@[simp] theorem State.putPend_kvCount (s : State) (f : RegFile) (r : Nat) (v m : BitVec 4096) (l : Nat) : (s.putPend f r v m l).kvCount = s.kvCount := rfl
@[simp] theorem State.putPend_pendRows (s : State) (f : RegFile) (r : Nat) (v m : BitVec 4096) (l : Nat) : (s.putPend f r v m l).pendRows = s.pendRows := rfl
@[simp] theorem State.putPend_grants (s : State) (f : RegFile) (r : Nat) (v m : BitVec 4096) (l : Nat) : (s.putPend f r v m l).grants = s.grants := rfl
@[simp] theorem State.putPend_tlb (s : State) (f : RegFile) (r : Nat) (v m : BitVec 4096) (l : Nat) : (s.putPend f r v m l).tlb = s.tlb := rfl
@[simp] theorem State.putPend_motion (s : State) (f : RegFile) (r : Nat) (v m : BitVec 4096) (l : Nat) : (s.putPend f r v m l).motion = s.motion := rfl
@[simp] theorem State.putPend_dtc (s : State) (f : RegFile) (r : Nat) (v m : BitVec 4096) (l : Nat) : (s.putPend f r v m l).dtc = s.dtc := rfl
@[simp] theorem State.putPend_ats (s : State) (f : RegFile) (r : Nat) (v m : BitVec 4096) (l : Nat) : (s.putPend f r v m l).ats = s.ats := rfl
@[simp] theorem State.putPend_atsBad (s : State) (f : RegFile) (r : Nat) (v m : BitVec 4096) (l : Nat) : (s.putPend f r v m l).atsBad = s.atsBad := rfl
@[simp] theorem State.putPend_pri (s : State) (f : RegFile) (r : Nat) (v m : BitVec 4096) (l : Nat) : (s.putPend f r v m l).pri = s.pri := rfl
@[simp] theorem State.putPend_grist (s : State) (f : RegFile) (r : Nat) (v m : BitVec 4096) (l : Nat) : (s.putPend f r v m l).grist = s.grist := rfl
@[simp] theorem State.putPend_gristPtr (s : State) (f : RegFile) (r : Nat) (v m : BitVec 4096) (l : Nat) : (s.putPend f r v m l).gristPtr = s.gristPtr := rfl
@[simp] theorem State.putPend_gristKeys (s : State) (f : RegFile) (r : Nat) (v m : BitVec 4096) (l : Nat) : (s.putPend f r v m l).gristKeys = s.gristKeys := rfl
@[simp] theorem State.putPend_steeps (s : State) (f : RegFile) (r : Nat) (v m : BitVec 4096) (l : Nat) : (s.putPend f r v m l).steeps = s.steeps := rfl
@[simp] theorem State.putPend_recs (s : State) (f : RegFile) (r : Nat) (v m : BitVec 4096) (l : Nat) : (s.putPend f r v m l).recs = s.recs := rfl
@[simp] theorem State.putPend_hold (s : State) (f : RegFile) (r : Nat) (v m : BitVec 4096) (l : Nat) : (s.putPend f r v m l).hold = s.hold := rfl
@[simp] theorem State.putPend_pending (s : State) (f : RegFile) (r : Nat) (v m : BitVec 4096) (l : Nat) : (s.putPend f r v m l).pending = s.pending := rfl
@[simp] theorem State.putPend_defer (s : State) (f : RegFile) (r : Nat) (v m : BitVec 4096) (l : Nat) : (s.putPend f r v m l).defer = s.defer := rfl
@[simp] theorem State.putPend_rot (s : State) (f : RegFile) (r : Nat) (v m : BitVec 4096) (l : Nat) : (s.putPend f r v m l).rot = s.rot := rfl
@[simp] theorem State.putPend_resume (s : State) (f : RegFile) (r : Nat) (v m : BitVec 4096) (l : Nat) : (s.putPend f r v m l).resume = s.resume := rfl
@[simp] theorem State.putPend_dispq (s : State) (f : RegFile) (r : Nat) (v m : BitVec 4096) (l : Nat) : (s.putPend f r v m l).dispq = s.dispq := rfl
@[simp] theorem State.putPend_plans (s : State) (f : RegFile) (r : Nat) (v m : BitVec 4096) (l : Nat) : (s.putPend f r v m l).plans = s.plans := rfl
@[simp] theorem State.putPend_back (s : State) (f : RegFile) (r : Nat) (v m : BitVec 4096) (l : Nat) : (s.putPend f r v m l).back = s.back := rfl
@[simp] theorem State.putPend_jobs (s : State) (f : RegFile) (r : Nat) (v m : BitVec 4096) (l : Nat) : (s.putPend f r v m l).jobs = s.jobs := rfl
@[simp] theorem State.putPend_images (s : State) (f : RegFile) (r : Nat) (v m : BitVec 4096) (l : Nat) : (s.putPend f r v m l).images = s.images := rfl
@[simp] theorem State.putPend_cmds (s : State) (f : RegFile) (r : Nat) (v m : BitVec 4096) (l : Nat) : (s.putPend f r v m l).cmds = s.cmds := rfl
@[simp] theorem State.putPend_racks (s : State) (f : RegFile) (r : Nat) (v m : BitVec 4096) (l : Nat) : (s.putPend f r v m l).racks = s.racks := rfl
@[simp] theorem State.putPend_moves (s : State) (f : RegFile) (r : Nat) (v m : BitVec 4096) (l : Nat) : (s.putPend f r v m l).moves = s.moves := rfl
@[simp] theorem State.putPend_bars (s : State) (f : RegFile) (r : Nat) (v m : BitVec 4096) (l : Nat) : (s.putPend f r v m l).bars = s.bars := rfl
@[simp] theorem State.putPend_left (s : State) (f : RegFile) (r : Nat) (v m : BitVec 4096) (l : Nat) : (s.putPend f r v m l).left = s.left := rfl
@[simp] theorem State.putPend_ringPend (s : State) (f : RegFile) (r : Nat) (v m : BitVec 4096) (l : Nat) : (s.putPend f r v m l).ringPend = s.ringPend := rfl
@[simp] theorem State.putPend_rslots (s : State) (f : RegFile) (r : Nat) (v m : BitVec 4096) (l : Nat) : (s.putPend f r v m l).rslots = s.rslots := rfl
@[simp] theorem State.putPend_decs (s : State) (f : RegFile) (r : Nat) (v m : BitVec 4096) (l : Nat) : (s.putPend f r v m l).decs = s.decs := rfl
@[simp] theorem State.putPend_linksDown (s : State) (f : RegFile) (r : Nat) (v m : BitVec 4096) (l : Nat) : (s.putPend f r v m l).linksDown = s.linksDown := rfl
@[simp] theorem State.putPend_peerReqs (s : State) (f : RegFile) (r : Nat) (v m : BitVec 4096) (l : Nat) : (s.putPend f r v m l).peerReqs = s.peerReqs := rfl
@[simp] theorem State.putPend_hostReqs (s : State) (f : RegFile) (r : Nat) (v m : BitVec 4096) (l : Nat) : (s.putPend f r v m l).hostReqs = s.hostReqs := rfl
@[simp] theorem State.putPend_invals (s : State) (f : RegFile) (r : Nat) (v m : BitVec 4096) (l : Nat) : (s.putPend f r v m l).invals = s.invals := rfl
@[simp] theorem State.putPend_given (s : State) (f : RegFile) (r : Nat) (v m : BitVec 4096) (l : Nat) : (s.putPend f r v m l).given = s.given := rfl
@[simp] theorem State.putPend_hist (s : State) (f : RegFile) (r : Nat) (v m : BitVec 4096) (l : Nat) : (s.putPend f r v m l).hist = s.hist := rfl
@[simp] theorem State.putPend_writes (s : State) (f : RegFile) (r : Nat) (v m : BitVec 4096) (l : Nat) : (s.putPend f r v m l).writes = s.writes := rfl
@[simp] theorem State.putPend_fences (s : State) (f : RegFile) (r : Nat) (v m : BitVec 4096) (l : Nat) : (s.putPend f r v m l).fences = s.fences := rfl
@[simp] theorem State.putPend_posted (s : State) (f : RegFile) (r : Nat) (v m : BitVec 4096) (l : Nat) : (s.putPend f r v m l).posted = s.posted := rfl
@[simp] theorem State.putPend_cxl (s : State) (f : RegFile) (r : Nat) (v m : BitVec 4096) (l : Nat) : (s.putPend f r v m l).cxl = s.cxl := rfl
@[simp] theorem State.putPend_seqView (s : State) (f : RegFile) (r : Nat) (v m : BitVec 4096) (l : Nat) : (s.putPend f r v m l).seqView = s.seqView := rfl
@[simp] theorem State.putPend_ended (s : State) (f : RegFile) (r : Nat) (v m : BitVec 4096) (l : Nat) : (s.putPend f r v m l).ended = s.ended := rfl
@[simp] theorem State.putPend_xidHosts (s : State) (f : RegFile) (r : Nat) (v m : BitVec 4096) (l : Nat) : (s.putPend f r v m l).xidHosts = s.xidHosts := rfl
@[simp] theorem State.putPend_att (s : State) (f : RegFile) (r : Nat) (v m : BitVec 4096) (l : Nat) : (s.putPend f r v m l).att = s.att := rfl
@[simp] theorem State.putPend_vclock (s : State) (f : RegFile) (r : Nat) (v m : BitVec 4096) (l : Nat) : (s.putPend f r v m l).vclock = s.vclock := rfl
@[simp] theorem State.putPend_walks (s : State) (f : RegFile) (r : Nat) (v m : BitVec 4096) (l : Nat) : (s.putPend f r v m l).walks = s.walks := rfl
@[simp] theorem State.putPend_outer (s : State) (f : RegFile) (r : Nat) (v m : BitVec 4096) (l : Nat) : (s.putPend f r v m l).outer = s.outer := rfl
@[simp] theorem State.putPend_exchanges (s : State) (f : RegFile) (r : Nat) (v m : BitVec 4096) (l : Nat) : (s.putPend f r v m l).exchanges = s.exchanges := rfl
@[simp] theorem State.putPend_ringHold (s : State) (f : RegFile) (r : Nat) (v m : BitVec 4096) (l : Nat) : (s.putPend f r v m l).ringHold = s.ringHold := rfl
@[simp] theorem State.putPend_calSlot (s : State) (f : RegFile) (r : Nat) (v m : BitVec 4096) (l : Nat) : (s.putPend f r v m l).calSlot = s.calSlot := rfl
@[simp] theorem State.putPend_peerPins (s : State) (f : RegFile) (r : Nat) (v m : BitVec 4096) (l : Nat) : (s.putPend f r v m l).peerPins = s.peerPins := rfl
@[simp] theorem State.putPend_nextId (s : State) (f : RegFile) (r : Nat) (v m : BitVec 4096) (l : Nat) : (s.putPend f r v m l).nextId = s.nextId := rfl
@[simp] theorem State.putPend_use (s : State) (f : RegFile) (r : Nat) (v m : BitVec 4096) (l : Nat) : (s.putPend f r v m l).use = s.use := rfl
@[simp] theorem State.putPend_totals (s : State) (f : RegFile) (r : Nat) (v m : BitVec 4096) (l : Nat) : (s.putPend f r v m l).totals = s.totals := rfl
@[simp] theorem State.putPend_seals (s : State) (f : RegFile) (r : Nat) (v m : BitVec 4096) (l : Nat) : (s.putPend f r v m l).seals = s.seals := rfl
@[simp] theorem State.putPend_pendRecs (s : State) (f : RegFile) (r : Nat) (v m : BitVec 4096) (l : Nat) : (s.putPend f r v m l).pendRecs = s.pendRecs := rfl
@[simp] theorem State.putPend_cal (s : State) (f : RegFile) (r : Nat) (v m : BitVec 4096) (l : Nat) : (s.putPend f r v m l).cal = s.cal := rfl
@[simp] theorem State.putPend_patrol (s : State) (f : RegFile) (r : Nat) (v m : BitVec 4096) (l : Nat) : (s.putPend f r v m l).patrol = s.patrol := rfl
@[simp] theorem State.putPend_touched (s : State) (f : RegFile) (r : Nat) (v m : BitVec 4096) (l : Nat) : (s.putPend f r v m l).touched = s.touched := rfl

@[simp] theorem State.noteDest_tick (s : State) (f : RegFile) (r : Nat) : (s.noteDest f r).tick = s.tick := rfl
@[simp] theorem State.noteDest_turns (s : State) (f : RegFile) (r : Nat) : (s.noteDest f r).turns = s.turns := rfl
@[simp] theorem State.noteDest_cur (s : State) (f : RegFile) (r : Nat) : (s.noteDest f r).cur = s.cur := rfl
@[simp] theorem State.noteDest_out (s : State) (f : RegFile) (r : Nat) : (s.noteDest f r).out = s.out := rfl
@[simp] theorem State.noteDest_boot (s : State) (f : RegFile) (r : Nat) : (s.noteDest f r).boot = s.boot := rfl
@[simp] theorem State.noteDest_frame (s : State) (f : RegFile) (r : Nat) : (s.noteDest f r).frame = s.frame := rfl
@[simp] theorem State.noteDest_cycle (s : State) (f : RegFile) (r : Nat) : (s.noteDest f r).cycle = s.cycle := rfl
@[simp] theorem State.noteDest_mem (s : State) (f : RegFile) (r : Nat) : (s.noteDest f r).mem = s.mem := rfl
@[simp] theorem State.noteDest_lineTag (s : State) (f : RegFile) (r : Nat) : (s.noteDest f r).lineTag = s.lineTag := rfl
@[simp] theorem State.noteDest_poison (s : State) (f : RegFile) (r : Nat) : (s.noteDest f r).poison = s.poison := rfl
@[simp] theorem State.noteDest_nvme (s : State) (f : RegFile) (r : Nat) : (s.noteDest f r).nvme = s.nvme := rfl
@[simp] theorem State.noteDest_mcs (s : State) (f : RegFile) (r : Nat) : (s.noteDest f r).mcs = s.mcs := rfl
@[simp] theorem State.noteDest_csrs (s : State) (f : RegFile) (r : Nat) : (s.noteDest f r).csrs = s.csrs := rfl
@[simp] theorem State.noteDest_staged (s : State) (f : RegFile) (r : Nat) : (s.noteDest f r).staged = s.staged := rfl
@[simp] theorem State.noteDest_keys (s : State) (f : RegFile) (r : Nat) : (s.noteDest f r).keys = s.keys := rfl
@[simp] theorem State.noteDest_kvCount (s : State) (f : RegFile) (r : Nat) : (s.noteDest f r).kvCount = s.kvCount := rfl
@[simp] theorem State.noteDest_pendRows (s : State) (f : RegFile) (r : Nat) : (s.noteDest f r).pendRows = s.pendRows := rfl
@[simp] theorem State.noteDest_grants (s : State) (f : RegFile) (r : Nat) : (s.noteDest f r).grants = s.grants := rfl
@[simp] theorem State.noteDest_tlb (s : State) (f : RegFile) (r : Nat) : (s.noteDest f r).tlb = s.tlb := rfl
@[simp] theorem State.noteDest_motion (s : State) (f : RegFile) (r : Nat) : (s.noteDest f r).motion = s.motion := rfl
@[simp] theorem State.noteDest_dtc (s : State) (f : RegFile) (r : Nat) : (s.noteDest f r).dtc = s.dtc := rfl
@[simp] theorem State.noteDest_ats (s : State) (f : RegFile) (r : Nat) : (s.noteDest f r).ats = s.ats := rfl
@[simp] theorem State.noteDest_atsBad (s : State) (f : RegFile) (r : Nat) : (s.noteDest f r).atsBad = s.atsBad := rfl
@[simp] theorem State.noteDest_pri (s : State) (f : RegFile) (r : Nat) : (s.noteDest f r).pri = s.pri := rfl
@[simp] theorem State.noteDest_grist (s : State) (f : RegFile) (r : Nat) : (s.noteDest f r).grist = s.grist := rfl
@[simp] theorem State.noteDest_gristPtr (s : State) (f : RegFile) (r : Nat) : (s.noteDest f r).gristPtr = s.gristPtr := rfl
@[simp] theorem State.noteDest_gristKeys (s : State) (f : RegFile) (r : Nat) : (s.noteDest f r).gristKeys = s.gristKeys := rfl
@[simp] theorem State.noteDest_steeps (s : State) (f : RegFile) (r : Nat) : (s.noteDest f r).steeps = s.steeps := rfl
@[simp] theorem State.noteDest_recs (s : State) (f : RegFile) (r : Nat) : (s.noteDest f r).recs = s.recs := rfl
@[simp] theorem State.noteDest_hold (s : State) (f : RegFile) (r : Nat) : (s.noteDest f r).hold = s.hold := rfl
@[simp] theorem State.noteDest_pending (s : State) (f : RegFile) (r : Nat) : (s.noteDest f r).pending = s.pending := rfl
@[simp] theorem State.noteDest_defer (s : State) (f : RegFile) (r : Nat) : (s.noteDest f r).defer = s.defer := rfl
@[simp] theorem State.noteDest_rot (s : State) (f : RegFile) (r : Nat) : (s.noteDest f r).rot = s.rot := rfl
@[simp] theorem State.noteDest_resume (s : State) (f : RegFile) (r : Nat) : (s.noteDest f r).resume = s.resume := rfl
@[simp] theorem State.noteDest_dispq (s : State) (f : RegFile) (r : Nat) : (s.noteDest f r).dispq = s.dispq := rfl
@[simp] theorem State.noteDest_plans (s : State) (f : RegFile) (r : Nat) : (s.noteDest f r).plans = s.plans := rfl
@[simp] theorem State.noteDest_back (s : State) (f : RegFile) (r : Nat) : (s.noteDest f r).back = s.back := rfl
@[simp] theorem State.noteDest_jobs (s : State) (f : RegFile) (r : Nat) : (s.noteDest f r).jobs = s.jobs := rfl
@[simp] theorem State.noteDest_images (s : State) (f : RegFile) (r : Nat) : (s.noteDest f r).images = s.images := rfl
@[simp] theorem State.noteDest_cmds (s : State) (f : RegFile) (r : Nat) : (s.noteDest f r).cmds = s.cmds := rfl
@[simp] theorem State.noteDest_racks (s : State) (f : RegFile) (r : Nat) : (s.noteDest f r).racks = s.racks := rfl
@[simp] theorem State.noteDest_moves (s : State) (f : RegFile) (r : Nat) : (s.noteDest f r).moves = s.moves := rfl
@[simp] theorem State.noteDest_bars (s : State) (f : RegFile) (r : Nat) : (s.noteDest f r).bars = s.bars := rfl
@[simp] theorem State.noteDest_left (s : State) (f : RegFile) (r : Nat) : (s.noteDest f r).left = s.left := rfl
@[simp] theorem State.noteDest_ringPend (s : State) (f : RegFile) (r : Nat) : (s.noteDest f r).ringPend = s.ringPend := rfl
@[simp] theorem State.noteDest_rslots (s : State) (f : RegFile) (r : Nat) : (s.noteDest f r).rslots = s.rslots := rfl
@[simp] theorem State.noteDest_decs (s : State) (f : RegFile) (r : Nat) : (s.noteDest f r).decs = s.decs := rfl
@[simp] theorem State.noteDest_linksDown (s : State) (f : RegFile) (r : Nat) : (s.noteDest f r).linksDown = s.linksDown := rfl
@[simp] theorem State.noteDest_peerReqs (s : State) (f : RegFile) (r : Nat) : (s.noteDest f r).peerReqs = s.peerReqs := rfl
@[simp] theorem State.noteDest_hostReqs (s : State) (f : RegFile) (r : Nat) : (s.noteDest f r).hostReqs = s.hostReqs := rfl
@[simp] theorem State.noteDest_invals (s : State) (f : RegFile) (r : Nat) : (s.noteDest f r).invals = s.invals := rfl
@[simp] theorem State.noteDest_given (s : State) (f : RegFile) (r : Nat) : (s.noteDest f r).given = s.given := rfl
@[simp] theorem State.noteDest_hist (s : State) (f : RegFile) (r : Nat) : (s.noteDest f r).hist = s.hist := rfl
@[simp] theorem State.noteDest_writes (s : State) (f : RegFile) (r : Nat) : (s.noteDest f r).writes = s.writes := rfl
@[simp] theorem State.noteDest_fences (s : State) (f : RegFile) (r : Nat) : (s.noteDest f r).fences = s.fences := rfl
@[simp] theorem State.noteDest_posted (s : State) (f : RegFile) (r : Nat) : (s.noteDest f r).posted = s.posted := rfl
@[simp] theorem State.noteDest_cxl (s : State) (f : RegFile) (r : Nat) : (s.noteDest f r).cxl = s.cxl := rfl
@[simp] theorem State.noteDest_seqView (s : State) (f : RegFile) (r : Nat) : (s.noteDest f r).seqView = s.seqView := rfl
@[simp] theorem State.noteDest_ended (s : State) (f : RegFile) (r : Nat) : (s.noteDest f r).ended = s.ended := rfl
@[simp] theorem State.noteDest_xidHosts (s : State) (f : RegFile) (r : Nat) : (s.noteDest f r).xidHosts = s.xidHosts := rfl
@[simp] theorem State.noteDest_att (s : State) (f : RegFile) (r : Nat) : (s.noteDest f r).att = s.att := rfl
@[simp] theorem State.noteDest_vclock (s : State) (f : RegFile) (r : Nat) : (s.noteDest f r).vclock = s.vclock := rfl
@[simp] theorem State.noteDest_walks (s : State) (f : RegFile) (r : Nat) : (s.noteDest f r).walks = s.walks := rfl
@[simp] theorem State.noteDest_outer (s : State) (f : RegFile) (r : Nat) : (s.noteDest f r).outer = s.outer := rfl
@[simp] theorem State.noteDest_exchanges (s : State) (f : RegFile) (r : Nat) : (s.noteDest f r).exchanges = s.exchanges := rfl
@[simp] theorem State.noteDest_ringHold (s : State) (f : RegFile) (r : Nat) : (s.noteDest f r).ringHold = s.ringHold := rfl
@[simp] theorem State.noteDest_calSlot (s : State) (f : RegFile) (r : Nat) : (s.noteDest f r).calSlot = s.calSlot := rfl
@[simp] theorem State.noteDest_peerPins (s : State) (f : RegFile) (r : Nat) : (s.noteDest f r).peerPins = s.peerPins := rfl
@[simp] theorem State.noteDest_nextId (s : State) (f : RegFile) (r : Nat) : (s.noteDest f r).nextId = s.nextId := rfl
@[simp] theorem State.noteDest_use (s : State) (f : RegFile) (r : Nat) : (s.noteDest f r).use = s.use := rfl
@[simp] theorem State.noteDest_totals (s : State) (f : RegFile) (r : Nat) : (s.noteDest f r).totals = s.totals := rfl
@[simp] theorem State.noteDest_seals (s : State) (f : RegFile) (r : Nat) : (s.noteDest f r).seals = s.seals := rfl
@[simp] theorem State.noteDest_pendRecs (s : State) (f : RegFile) (r : Nat) : (s.noteDest f r).pendRecs = s.pendRecs := rfl
@[simp] theorem State.noteDest_cal (s : State) (f : RegFile) (r : Nat) : (s.noteDest f r).cal = s.cal := rfl
@[simp] theorem State.noteDest_patrol (s : State) (f : RegFile) (r : Nat) : (s.noteDest f r).patrol = s.patrol := rfl
@[simp] theorem State.noteDest_touched (s : State) (f : RegFile) (r : Nat) : (s.noteDest f r).touched = s.touched := rfl

@[simp] theorem State.setCsr_tick (s : State) (n : Nat) (v : Dword) : (s.setCsr n v).tick = s.tick := rfl
@[simp] theorem State.setCsr_turns (s : State) (n : Nat) (v : Dword) : (s.setCsr n v).turns = s.turns := rfl
@[simp] theorem State.setCsr_cur (s : State) (n : Nat) (v : Dword) : (s.setCsr n v).cur = s.cur := rfl
@[simp] theorem State.setCsr_out (s : State) (n : Nat) (v : Dword) : (s.setCsr n v).out = s.out := rfl
@[simp] theorem State.setCsr_boot (s : State) (n : Nat) (v : Dword) : (s.setCsr n v).boot = s.boot := rfl
@[simp] theorem State.setCsr_frame (s : State) (n : Nat) (v : Dword) : (s.setCsr n v).frame = s.frame := rfl
@[simp] theorem State.setCsr_cycle (s : State) (n : Nat) (v : Dword) : (s.setCsr n v).cycle = s.cycle := rfl
@[simp] theorem State.setCsr_mem (s : State) (n : Nat) (v : Dword) : (s.setCsr n v).mem = s.mem := rfl
@[simp] theorem State.setCsr_lineTag (s : State) (n : Nat) (v : Dword) : (s.setCsr n v).lineTag = s.lineTag := rfl
@[simp] theorem State.setCsr_poison (s : State) (n : Nat) (v : Dword) : (s.setCsr n v).poison = s.poison := rfl
@[simp] theorem State.setCsr_nvme (s : State) (n : Nat) (v : Dword) : (s.setCsr n v).nvme = s.nvme := rfl
@[simp] theorem State.setCsr_cores (s : State) (n : Nat) (v : Dword) : (s.setCsr n v).cores = s.cores := rfl
@[simp] theorem State.setCsr_mcs (s : State) (n : Nat) (v : Dword) : (s.setCsr n v).mcs = s.mcs := rfl
@[simp] theorem State.setCsr_staged (s : State) (n : Nat) (v : Dword) : (s.setCsr n v).staged = s.staged := rfl
@[simp] theorem State.setCsr_keys (s : State) (n : Nat) (v : Dword) : (s.setCsr n v).keys = s.keys := rfl
@[simp] theorem State.setCsr_kvCount (s : State) (n : Nat) (v : Dword) : (s.setCsr n v).kvCount = s.kvCount := rfl
@[simp] theorem State.setCsr_pendRows (s : State) (n : Nat) (v : Dword) : (s.setCsr n v).pendRows = s.pendRows := rfl
@[simp] theorem State.setCsr_grants (s : State) (n : Nat) (v : Dword) : (s.setCsr n v).grants = s.grants := rfl
@[simp] theorem State.setCsr_tlb (s : State) (n : Nat) (v : Dword) : (s.setCsr n v).tlb = s.tlb := rfl
@[simp] theorem State.setCsr_motion (s : State) (n : Nat) (v : Dword) : (s.setCsr n v).motion = s.motion := rfl
@[simp] theorem State.setCsr_dtc (s : State) (n : Nat) (v : Dword) : (s.setCsr n v).dtc = s.dtc := rfl
@[simp] theorem State.setCsr_ats (s : State) (n : Nat) (v : Dword) : (s.setCsr n v).ats = s.ats := rfl
@[simp] theorem State.setCsr_atsBad (s : State) (n : Nat) (v : Dword) : (s.setCsr n v).atsBad = s.atsBad := rfl
@[simp] theorem State.setCsr_pri (s : State) (n : Nat) (v : Dword) : (s.setCsr n v).pri = s.pri := rfl
@[simp] theorem State.setCsr_grist (s : State) (n : Nat) (v : Dword) : (s.setCsr n v).grist = s.grist := rfl
@[simp] theorem State.setCsr_gristPtr (s : State) (n : Nat) (v : Dword) : (s.setCsr n v).gristPtr = s.gristPtr := rfl
@[simp] theorem State.setCsr_gristKeys (s : State) (n : Nat) (v : Dword) : (s.setCsr n v).gristKeys = s.gristKeys := rfl
@[simp] theorem State.setCsr_steeps (s : State) (n : Nat) (v : Dword) : (s.setCsr n v).steeps = s.steeps := rfl
@[simp] theorem State.setCsr_recs (s : State) (n : Nat) (v : Dword) : (s.setCsr n v).recs = s.recs := rfl
@[simp] theorem State.setCsr_hold (s : State) (n : Nat) (v : Dword) : (s.setCsr n v).hold = s.hold := rfl
@[simp] theorem State.setCsr_pending (s : State) (n : Nat) (v : Dword) : (s.setCsr n v).pending = s.pending := rfl
@[simp] theorem State.setCsr_defer (s : State) (n : Nat) (v : Dword) : (s.setCsr n v).defer = s.defer := rfl
@[simp] theorem State.setCsr_rot (s : State) (n : Nat) (v : Dword) : (s.setCsr n v).rot = s.rot := rfl
@[simp] theorem State.setCsr_resume (s : State) (n : Nat) (v : Dword) : (s.setCsr n v).resume = s.resume := rfl
@[simp] theorem State.setCsr_dispq (s : State) (n : Nat) (v : Dword) : (s.setCsr n v).dispq = s.dispq := rfl
@[simp] theorem State.setCsr_plans (s : State) (n : Nat) (v : Dword) : (s.setCsr n v).plans = s.plans := rfl
@[simp] theorem State.setCsr_back (s : State) (n : Nat) (v : Dword) : (s.setCsr n v).back = s.back := rfl
@[simp] theorem State.setCsr_jobs (s : State) (n : Nat) (v : Dword) : (s.setCsr n v).jobs = s.jobs := rfl
@[simp] theorem State.setCsr_images (s : State) (n : Nat) (v : Dword) : (s.setCsr n v).images = s.images := rfl
@[simp] theorem State.setCsr_cmds (s : State) (n : Nat) (v : Dword) : (s.setCsr n v).cmds = s.cmds := rfl
@[simp] theorem State.setCsr_racks (s : State) (n : Nat) (v : Dword) : (s.setCsr n v).racks = s.racks := rfl
@[simp] theorem State.setCsr_moves (s : State) (n : Nat) (v : Dword) : (s.setCsr n v).moves = s.moves := rfl
@[simp] theorem State.setCsr_bars (s : State) (n : Nat) (v : Dword) : (s.setCsr n v).bars = s.bars := rfl
@[simp] theorem State.setCsr_left (s : State) (n : Nat) (v : Dword) : (s.setCsr n v).left = s.left := rfl
@[simp] theorem State.setCsr_ringPend (s : State) (n : Nat) (v : Dword) : (s.setCsr n v).ringPend = s.ringPend := rfl
@[simp] theorem State.setCsr_rslots (s : State) (n : Nat) (v : Dword) : (s.setCsr n v).rslots = s.rslots := rfl
@[simp] theorem State.setCsr_decs (s : State) (n : Nat) (v : Dword) : (s.setCsr n v).decs = s.decs := rfl
@[simp] theorem State.setCsr_linksDown (s : State) (n : Nat) (v : Dword) : (s.setCsr n v).linksDown = s.linksDown := rfl
@[simp] theorem State.setCsr_peerReqs (s : State) (n : Nat) (v : Dword) : (s.setCsr n v).peerReqs = s.peerReqs := rfl
@[simp] theorem State.setCsr_hostReqs (s : State) (n : Nat) (v : Dword) : (s.setCsr n v).hostReqs = s.hostReqs := rfl
@[simp] theorem State.setCsr_invals (s : State) (n : Nat) (v : Dword) : (s.setCsr n v).invals = s.invals := rfl
@[simp] theorem State.setCsr_given (s : State) (n : Nat) (v : Dword) : (s.setCsr n v).given = s.given := rfl
@[simp] theorem State.setCsr_hist (s : State) (n : Nat) (v : Dword) : (s.setCsr n v).hist = s.hist := rfl
@[simp] theorem State.setCsr_writes (s : State) (n : Nat) (v : Dword) : (s.setCsr n v).writes = s.writes := rfl
@[simp] theorem State.setCsr_fences (s : State) (n : Nat) (v : Dword) : (s.setCsr n v).fences = s.fences := rfl
@[simp] theorem State.setCsr_posted (s : State) (n : Nat) (v : Dword) : (s.setCsr n v).posted = s.posted := rfl
@[simp] theorem State.setCsr_cxl (s : State) (n : Nat) (v : Dword) : (s.setCsr n v).cxl = s.cxl := rfl
@[simp] theorem State.setCsr_seqView (s : State) (n : Nat) (v : Dword) : (s.setCsr n v).seqView = s.seqView := rfl
@[simp] theorem State.setCsr_ended (s : State) (n : Nat) (v : Dword) : (s.setCsr n v).ended = s.ended := rfl
@[simp] theorem State.setCsr_xidHosts (s : State) (n : Nat) (v : Dword) : (s.setCsr n v).xidHosts = s.xidHosts := rfl
@[simp] theorem State.setCsr_att (s : State) (n : Nat) (v : Dword) : (s.setCsr n v).att = s.att := rfl
@[simp] theorem State.setCsr_vclock (s : State) (n : Nat) (v : Dword) : (s.setCsr n v).vclock = s.vclock := rfl
@[simp] theorem State.setCsr_walks (s : State) (n : Nat) (v : Dword) : (s.setCsr n v).walks = s.walks := rfl
@[simp] theorem State.setCsr_outer (s : State) (n : Nat) (v : Dword) : (s.setCsr n v).outer = s.outer := rfl
@[simp] theorem State.setCsr_exchanges (s : State) (n : Nat) (v : Dword) : (s.setCsr n v).exchanges = s.exchanges := rfl
@[simp] theorem State.setCsr_ringHold (s : State) (n : Nat) (v : Dword) : (s.setCsr n v).ringHold = s.ringHold := rfl
@[simp] theorem State.setCsr_calSlot (s : State) (n : Nat) (v : Dword) : (s.setCsr n v).calSlot = s.calSlot := rfl
@[simp] theorem State.setCsr_peerPins (s : State) (n : Nat) (v : Dword) : (s.setCsr n v).peerPins = s.peerPins := rfl
@[simp] theorem State.setCsr_nextId (s : State) (n : Nat) (v : Dword) : (s.setCsr n v).nextId = s.nextId := rfl
@[simp] theorem State.setCsr_use (s : State) (n : Nat) (v : Dword) : (s.setCsr n v).use = s.use := rfl
@[simp] theorem State.setCsr_totals (s : State) (n : Nat) (v : Dword) : (s.setCsr n v).totals = s.totals := rfl
@[simp] theorem State.setCsr_seals (s : State) (n : Nat) (v : Dword) : (s.setCsr n v).seals = s.seals := rfl
@[simp] theorem State.setCsr_pendRecs (s : State) (n : Nat) (v : Dword) : (s.setCsr n v).pendRecs = s.pendRecs := rfl
@[simp] theorem State.setCsr_cal (s : State) (n : Nat) (v : Dword) : (s.setCsr n v).cal = s.cal := rfl
@[simp] theorem State.setCsr_patrol (s : State) (n : Nat) (v : Dword) : (s.setCsr n v).patrol = s.patrol := rfl
@[simp] theorem State.setCsr_touched (s : State) (n : Nat) (v : Dword) : (s.setCsr n v).touched = s.touched := rfl

@[simp] theorem State.coreAt_setCoreAt (s : State) (n m : Nat) (k : Core) :
    (s.setCoreAt n k).coreAt m = if n = m then k else s.coreAt m := FMap.get_insert _ _ _ _ _

@[simp] theorem State.setCoreAt_setCoreAt (s : State) (n : Nat) (k l : Core) :
    (s.setCoreAt n k).setCoreAt n l = s.setCoreAt n l := by
  simp only [State.setCoreAt, FMap.insert_insert]

@[simp] theorem State.core_setCoreAt (s : State) (k : Core) : (s.setCoreAt s.cur k).core = k := by
  simp [State.core]

@[simp] theorem State.core_onCore (s : State) (f : Core → Core) : (s.onCore f).core = f s.core := by
  simp [State.core, State.onCore, State.setCore]

@[simp] theorem State.core_onIssue (s : State) (f : Issue → Issue) : (s.onIssue f).core = { s.core with issue := f s.core.issue } := by
  simp [State.onIssue]

@[simp] theorem State.csr_setCsr (s : State) (n m : Nat) (v : Dword) : (s.setCsr n v).csr m = if n = m then v else s.csr m := by
  simp only [State.csr, State.setCsr, FMap.find?_insert]
  split <;> simp_all

end Sys2Proof.Machine
end

