-- ==== Sys2Proof/Laws/Cursor.lean ====
section
/-! SUPPORT. Laws of the cursors of a slot: moving them changes nothing of the executing core but the state of its slot, and so neither
what a predicate reads nor whether an operation is enabled. -/

namespace Sys2Proof.Machine

theorem State.moveCursors_core (s : State) (fresh : List Nat) (steps : List (Int × Nat)) :
    ∃ sl, (s.moveCursors fresh steps).core = { s.core with slots := sl } := by
  unfold State.moveCursors
  rw [State.core_onCore]
  dsimp only
  split
  · exact ⟨_, rfl⟩
  · exact ⟨_, rfl⟩

theorem State.getP_moveCursors (s : State) (fresh : List Nat) (steps : List (Int × Nat)) (r : Nat) :
    (s.moveCursors fresh steps).getP r = s.getP r := by
  obtain ⟨sl, h⟩ := s.moveCursors_core fresh steps
  unfold State.getP
  rw [h]
  rfl

@[simp] theorem State.effPred_moveCursors (s : State) (fresh : List Nat) (steps : List (Int × Nat)) (c : Ctl) :
    (s.moveCursors fresh steps).effPred c = s.effPred c := by
  obtain ⟨sl, h⟩ := s.moveCursors_core fresh steps
  simp only [State.effPred, State.getPq, State.getP_moveCursors, h]
  rfl

@[simp] theorem State.enabled_moveCursors (s : State) (fresh : List Nat) (steps : List (Int × Nat)) (c : Ctl) :
    (s.moveCursors fresh steps).enabled c = s.enabled c := by
  simp only [State.enabled, State.effPred_moveCursors]

@[simp] theorem State.enabled_ckCursor (s : State) (o : CK) (c : Ctl) : (s.ckCursor o).enabled c = s.enabled c := by
  simp only [State.ckCursor, State.enabled_moveCursors]

/-- A descriptor cursor that is no multiple of 64 raises BANKCONFLICT (R316). -/
theorem readDesc_misaligned (s : State) (h : s.cursor 0 % 64 ≠ 0) : readDesc s = .error (.fault bankConflict, []) := by
  simp [readDesc, M.need_run, h]

end Sys2Proof.Machine
end

