-- ==== Sys2Proof/Laws/Encoding.lean ====
section
/-! SUPPORT. What packing and unpacking the fields of a slot word do to each other, format by format. -/

namespace Sys2Proof

open BitVec

theorem unpack_packSR (o : SR) : unpackSR (packSR o) = .ok o := by
  have h0 : (packSR o).extractLsb' 40 6 = o.xd := (extractLsb'_append_eq_of_le (by decide)).trans ((extractLsb'_append_eq_of_le (by decide)).trans ((extractLsb'_append_eq_of_le (by decide)).trans ((extractLsb'_append_eq_of_le (by decide)).trans (extractLsb'_eq_self))))
  have h1 : (packSR o).extractLsb' 34 6 = o.xa := (extractLsb'_append_eq_of_le (by decide)).trans ((extractLsb'_append_eq_of_le (by decide)).trans ((extractLsb'_append_eq_of_le (by decide)).trans (extractLsb'_append_eq_right)))
  have h2 : (packSR o).extractLsb' 28 6 = o.xb := (extractLsb'_append_eq_of_le (by decide)).trans ((extractLsb'_append_eq_of_le (by decide)).trans (extractLsb'_append_eq_right))
  have h3 : (packSR o).extractLsb' 22 6 = o.xc := (extractLsb'_append_eq_of_le (by decide)).trans (extractLsb'_append_eq_right)
  have h4 : (packSR o).extractLsb' 0 22 = 0#22 := extractLsb'_append_eq_right
  unfold unpackSR
  rw [if_pos (by rw [h4]; rfl)]
  rw [h0, h1, h2, h3]

theorem pack_unpackSR (p : BitVec 46) (o : SR) (h : unpackSR p = .ok o) : packSR o = p := by
  unfold unpackSR at h
  split at h
  · rename_i h0
    cases h
    have r4 : 0#22 = p.extractLsb' 0 22 := (beq_iff_eq.mp h0).symm
    have h2 : (p.extractLsb' 40 6 ++ p.extractLsb' 34 6 ++ p.extractLsb' 28 6 ++ p.extractLsb' 22 6 ++ p.extractLsb' 0 22 : BitVec 46) = p := by
      have g1 : (p.extractLsb' 40 6 ++ p.extractLsb' 34 6 : BitVec 12) = p.extractLsb' 34 12 := extractLsb'_append_extractLsb'_eq_extractLsb' (by decide)
      have g2 : (p.extractLsb' 34 12 ++ p.extractLsb' 28 6 : BitVec 18) = p.extractLsb' 28 18 := extractLsb'_append_extractLsb'_eq_extractLsb' (by decide)
      have g3 : (p.extractLsb' 28 18 ++ p.extractLsb' 22 6 : BitVec 24) = p.extractLsb' 22 24 := extractLsb'_append_extractLsb'_eq_extractLsb' (by decide)
      have g4 : (p.extractLsb' 22 24 ++ p.extractLsb' 0 22 : BitVec 46) = p.extractLsb' 0 46 := extractLsb'_append_extractLsb'_eq_extractLsb' (by decide)
      exact ((congrArg (fun (x : BitVec 24) => (x ++ p.extractLsb' 0 22 : BitVec 46)) ((congrArg (fun (x : BitVec 18) => (x ++ p.extractLsb' 22 6 : BitVec 24)) ((congrArg (fun (x : BitVec 12) => (x ++ p.extractLsb' 28 6 : BitVec 18)) (g1)).trans g2)).trans g3)).trans g4).trans extractLsb'_eq_self
    rw [← r4] at h2
    exact h2
  · cases h

theorem unpack_packSSel (o : SSel) : unpackSSel (packSSel o) = .ok o := by
  have h0 : (packSSel o).extractLsb' 40 6 = o.xd := (extractLsb'_append_eq_of_le (by decide)).trans ((extractLsb'_append_eq_of_le (by decide)).trans ((extractLsb'_append_eq_of_le (by decide)).trans ((extractLsb'_append_eq_of_le (by decide)).trans (extractLsb'_eq_self))))
  have h1 : (packSSel o).extractLsb' 34 6 = o.xa := (extractLsb'_append_eq_of_le (by decide)).trans ((extractLsb'_append_eq_of_le (by decide)).trans ((extractLsb'_append_eq_of_le (by decide)).trans (extractLsb'_append_eq_right)))
  have h2 : (packSSel o).extractLsb' 28 6 = o.xb := (extractLsb'_append_eq_of_le (by decide)).trans ((extractLsb'_append_eq_of_le (by decide)).trans (extractLsb'_append_eq_right))
  have h3 : (packSSel o).extractLsb' 23 5 = o.pa := (extractLsb'_append_eq_of_le (by decide)).trans (extractLsb'_append_eq_right)
  have h4 : (packSSel o).extractLsb' 0 23 = 0#23 := extractLsb'_append_eq_right
  unfold unpackSSel
  rw [if_pos (by rw [h4]; rfl)]
  rw [h0, h1, h2, h3]

theorem pack_unpackSSel (p : BitVec 46) (o : SSel) (h : unpackSSel p = .ok o) : packSSel o = p := by
  unfold unpackSSel at h
  split at h
  · rename_i h0
    cases h
    have r4 : 0#23 = p.extractLsb' 0 23 := (beq_iff_eq.mp h0).symm
    have h2 : (p.extractLsb' 40 6 ++ p.extractLsb' 34 6 ++ p.extractLsb' 28 6 ++ p.extractLsb' 23 5 ++ p.extractLsb' 0 23 : BitVec 46) = p := by
      have g1 : (p.extractLsb' 40 6 ++ p.extractLsb' 34 6 : BitVec 12) = p.extractLsb' 34 12 := extractLsb'_append_extractLsb'_eq_extractLsb' (by decide)
      have g2 : (p.extractLsb' 34 12 ++ p.extractLsb' 28 6 : BitVec 18) = p.extractLsb' 28 18 := extractLsb'_append_extractLsb'_eq_extractLsb' (by decide)
      have g3 : (p.extractLsb' 28 18 ++ p.extractLsb' 23 5 : BitVec 23) = p.extractLsb' 23 23 := extractLsb'_append_extractLsb'_eq_extractLsb' (by decide)
      have g4 : (p.extractLsb' 23 23 ++ p.extractLsb' 0 23 : BitVec 46) = p.extractLsb' 0 46 := extractLsb'_append_extractLsb'_eq_extractLsb' (by decide)
      exact ((congrArg (fun (x : BitVec 23) => (x ++ p.extractLsb' 0 23 : BitVec 46)) ((congrArg (fun (x : BitVec 18) => (x ++ p.extractLsb' 23 5 : BitVec 23)) ((congrArg (fun (x : BitVec 12) => (x ++ p.extractLsb' 28 6 : BitVec 18)) (g1)).trans g2)).trans g3)).trans g4).trans extractLsb'_eq_self
    rw [← r4] at h2
    exact h2
  · cases h

theorem unpack_packSI (o : SI) : unpackSI (packSI o) = .ok o := by
  have h0 : (packSI o).extractLsb' 40 6 = o.xd := (extractLsb'_append_eq_of_le (by decide)).trans ((extractLsb'_append_eq_of_le (by decide)).trans (extractLsb'_eq_self))
  have h1 : (packSI o).extractLsb' 34 6 = o.xa := (extractLsb'_append_eq_of_le (by decide)).trans (extractLsb'_append_eq_right)
  have h2 : (packSI o).extractLsb' 0 34 = o.imm := extractLsb'_append_eq_right
  unfold unpackSI
  rw [h0, h1, h2]

theorem pack_unpackSI (p : BitVec 46) (o : SI) (h : unpackSI p = .ok o) : packSI o = p := by
  unfold unpackSI at h
  cases h
  have h2 : (p.extractLsb' 40 6 ++ p.extractLsb' 34 6 ++ p.extractLsb' 0 34 : BitVec 46) = p := by
    have g1 : (p.extractLsb' 40 6 ++ p.extractLsb' 34 6 : BitVec 12) = p.extractLsb' 34 12 := extractLsb'_append_extractLsb'_eq_extractLsb' (by decide)
    have g2 : (p.extractLsb' 34 12 ++ p.extractLsb' 0 34 : BitVec 46) = p.extractLsb' 0 46 := extractLsb'_append_extractLsb'_eq_extractLsb' (by decide)
    exact ((congrArg (fun (x : BitVec 12) => (x ++ p.extractLsb' 0 34 : BitVec 46)) (g1)).trans g2).trans extractLsb'_eq_self
  exact h2

theorem unpack_packSB (o : SB) : unpackSB (packSB o) = .ok o := by
  have h0 : (packSB o).extractLsb' 40 6 = o.xd := (extractLsb'_append_eq_of_le (by decide)).trans ((extractLsb'_append_eq_of_le (by decide)).trans ((extractLsb'_append_eq_of_le (by decide)).trans ((extractLsb'_append_eq_of_le (by decide)).trans (extractLsb'_eq_self))))
  have h1 : (packSB o).extractLsb' 34 6 = o.xa := (extractLsb'_append_eq_of_le (by decide)).trans ((extractLsb'_append_eq_of_le (by decide)).trans ((extractLsb'_append_eq_of_le (by decide)).trans (extractLsb'_append_eq_right)))
  have h2 : (packSB o).extractLsb' 28 6 = o.pos := (extractLsb'_append_eq_of_le (by decide)).trans ((extractLsb'_append_eq_of_le (by decide)).trans (extractLsb'_append_eq_right))
  have h3 : (packSB o).extractLsb' 22 6 = o.len := (extractLsb'_append_eq_of_le (by decide)).trans (extractLsb'_append_eq_right)
  have h4 : (packSB o).extractLsb' 0 22 = 0#22 := extractLsb'_append_eq_right
  unfold unpackSB
  rw [if_pos (by rw [h4]; rfl)]
  rw [h0, h1, h2, h3]

theorem pack_unpackSB (p : BitVec 46) (o : SB) (h : unpackSB p = .ok o) : packSB o = p := by
  unfold unpackSB at h
  split at h
  · rename_i h0
    cases h
    have r4 : 0#22 = p.extractLsb' 0 22 := (beq_iff_eq.mp h0).symm
    have h2 : (p.extractLsb' 40 6 ++ p.extractLsb' 34 6 ++ p.extractLsb' 28 6 ++ p.extractLsb' 22 6 ++ p.extractLsb' 0 22 : BitVec 46) = p := by
      have g1 : (p.extractLsb' 40 6 ++ p.extractLsb' 34 6 : BitVec 12) = p.extractLsb' 34 12 := extractLsb'_append_extractLsb'_eq_extractLsb' (by decide)
      have g2 : (p.extractLsb' 34 12 ++ p.extractLsb' 28 6 : BitVec 18) = p.extractLsb' 28 18 := extractLsb'_append_extractLsb'_eq_extractLsb' (by decide)
      have g3 : (p.extractLsb' 28 18 ++ p.extractLsb' 22 6 : BitVec 24) = p.extractLsb' 22 24 := extractLsb'_append_extractLsb'_eq_extractLsb' (by decide)
      have g4 : (p.extractLsb' 22 24 ++ p.extractLsb' 0 22 : BitVec 46) = p.extractLsb' 0 46 := extractLsb'_append_extractLsb'_eq_extractLsb' (by decide)
      exact ((congrArg (fun (x : BitVec 24) => (x ++ p.extractLsb' 0 22 : BitVec 46)) ((congrArg (fun (x : BitVec 18) => (x ++ p.extractLsb' 22 6 : BitVec 24)) ((congrArg (fun (x : BitVec 12) => (x ++ p.extractLsb' 28 6 : BitVec 18)) (g1)).trans g2)).trans g3)).trans g4).trans extractLsb'_eq_self
    rw [← r4] at h2
    exact h2
  · cases h

theorem unpack_packSL (o : SL) : unpackSL (packSL o) = .ok o := by
  have h0 : (packSL o).extractLsb' 40 6 = o.xd := (extractLsb'_append_eq_of_le (by decide)).trans (extractLsb'_eq_self)
  have h1 : (packSL o).extractLsb' 0 40 = o.imm := extractLsb'_append_eq_right
  unfold unpackSL
  rw [h0, h1]

theorem pack_unpackSL (p : BitVec 46) (o : SL) (h : unpackSL p = .ok o) : packSL o = p := by
  unfold unpackSL at h
  cases h
  have h2 : (p.extractLsb' 40 6 ++ p.extractLsb' 0 40 : BitVec 46) = p := by
    have g1 : (p.extractLsb' 40 6 ++ p.extractLsb' 0 40 : BitVec 46) = p.extractLsb' 0 46 := extractLsb'_append_extractLsb'_eq_extractLsb' (by decide)
    exact (g1).trans extractLsb'_eq_self
  exact h2

theorem unpack_packSP (o : SP) : unpackSP (packSP o) = .ok o := by
  have h0 : (packSP o).extractLsb' 40 6 = o.d := (extractLsb'_append_eq_of_le (by decide)).trans ((extractLsb'_append_eq_of_le (by decide)).trans ((extractLsb'_append_eq_of_le (by decide)).trans ((extractLsb'_append_eq_of_le (by decide)).trans ((extractLsb'_append_eq_of_le (by decide)).trans ((extractLsb'_append_eq_of_le (by decide)).trans ((extractLsb'_append_eq_of_le (by decide)).trans (extractLsb'_eq_self)))))))
  have h1 : (packSP o).extractLsb' 37 3 = o.cond := (extractLsb'_append_eq_of_le (by decide)).trans ((extractLsb'_append_eq_of_le (by decide)).trans ((extractLsb'_append_eq_of_le (by decide)).trans ((extractLsb'_append_eq_of_le (by decide)).trans ((extractLsb'_append_eq_of_le (by decide)).trans ((extractLsb'_append_eq_of_le (by decide)).trans (extractLsb'_append_eq_right))))))
  have h2 : (packSP o).extractLsb' 31 6 = o.xa := (extractLsb'_append_eq_of_le (by decide)).trans ((extractLsb'_append_eq_of_le (by decide)).trans ((extractLsb'_append_eq_of_le (by decide)).trans ((extractLsb'_append_eq_of_le (by decide)).trans ((extractLsb'_append_eq_of_le (by decide)).trans (extractLsb'_append_eq_right)))))
  have h3 : (packSP o).extractLsb' 25 6 = o.xb := (extractLsb'_append_eq_of_le (by decide)).trans ((extractLsb'_append_eq_of_le (by decide)).trans ((extractLsb'_append_eq_of_le (by decide)).trans ((extractLsb'_append_eq_of_le (by decide)).trans (extractLsb'_append_eq_right))))
  have h4 : (packSP o).extractLsb' 20 5 = o.pa := (extractLsb'_append_eq_of_le (by decide)).trans ((extractLsb'_append_eq_of_le (by decide)).trans ((extractLsb'_append_eq_of_le (by decide)).trans (extractLsb'_append_eq_right)))
  have h5 : (packSP o).extractLsb' 15 5 = o.pb := (extractLsb'_append_eq_of_le (by decide)).trans ((extractLsb'_append_eq_of_le (by decide)).trans (extractLsb'_append_eq_right))
  have h6 : (packSP o).extractLsb' 14 1 = o.h := (extractLsb'_append_eq_of_le (by decide)).trans (extractLsb'_append_eq_right)
  have h7 : (packSP o).extractLsb' 0 14 = 0#14 := extractLsb'_append_eq_right
  unfold unpackSP
  rw [if_pos (by rw [h7]; rfl)]
  rw [h0, h1, h2, h3, h4, h5, h6]

theorem pack_unpackSP (p : BitVec 46) (o : SP) (h : unpackSP p = .ok o) : packSP o = p := by
  unfold unpackSP at h
  split at h
  · rename_i h0
    cases h
    have r7 : 0#14 = p.extractLsb' 0 14 := (beq_iff_eq.mp h0).symm
    have h2 : (p.extractLsb' 40 6 ++ p.extractLsb' 37 3 ++ p.extractLsb' 31 6 ++ p.extractLsb' 25 6 ++ p.extractLsb' 20 5 ++ p.extractLsb' 15 5 ++ p.extractLsb' 14 1 ++ p.extractLsb' 0 14 : BitVec 46) = p := by
      have g1 : (p.extractLsb' 40 6 ++ p.extractLsb' 37 3 : BitVec 9) = p.extractLsb' 37 9 := extractLsb'_append_extractLsb'_eq_extractLsb' (by decide)
      have g2 : (p.extractLsb' 37 9 ++ p.extractLsb' 31 6 : BitVec 15) = p.extractLsb' 31 15 := extractLsb'_append_extractLsb'_eq_extractLsb' (by decide)
      have g3 : (p.extractLsb' 31 15 ++ p.extractLsb' 25 6 : BitVec 21) = p.extractLsb' 25 21 := extractLsb'_append_extractLsb'_eq_extractLsb' (by decide)
      have g4 : (p.extractLsb' 25 21 ++ p.extractLsb' 20 5 : BitVec 26) = p.extractLsb' 20 26 := extractLsb'_append_extractLsb'_eq_extractLsb' (by decide)
      have g5 : (p.extractLsb' 20 26 ++ p.extractLsb' 15 5 : BitVec 31) = p.extractLsb' 15 31 := extractLsb'_append_extractLsb'_eq_extractLsb' (by decide)
      have g6 : (p.extractLsb' 15 31 ++ p.extractLsb' 14 1 : BitVec 32) = p.extractLsb' 14 32 := extractLsb'_append_extractLsb'_eq_extractLsb' (by decide)
      have g7 : (p.extractLsb' 14 32 ++ p.extractLsb' 0 14 : BitVec 46) = p.extractLsb' 0 46 := extractLsb'_append_extractLsb'_eq_extractLsb' (by decide)
      exact ((congrArg (fun (x : BitVec 32) => (x ++ p.extractLsb' 0 14 : BitVec 46)) ((congrArg (fun (x : BitVec 31) => (x ++ p.extractLsb' 14 1 : BitVec 32)) ((congrArg (fun (x : BitVec 26) => (x ++ p.extractLsb' 15 5 : BitVec 31)) ((congrArg (fun (x : BitVec 21) => (x ++ p.extractLsb' 20 5 : BitVec 26)) ((congrArg (fun (x : BitVec 15) => (x ++ p.extractLsb' 25 6 : BitVec 21)) ((congrArg (fun (x : BitVec 9) => (x ++ p.extractLsb' 31 6 : BitVec 15)) (g1)).trans g2)).trans g3)).trans g4)).trans g5)).trans g6)).trans g7).trans extractLsb'_eq_self
    rw [← r7] at h2
    exact h2
  · cases h

theorem unpack_packSPI (o : SPI) : unpackSPI (packSPI o) = .ok o := by
  have h0 : (packSPI o).extractLsb' 40 6 = o.d := (extractLsb'_append_eq_of_le (by decide)).trans ((extractLsb'_append_eq_of_le (by decide)).trans ((extractLsb'_append_eq_of_le (by decide)).trans (extractLsb'_eq_self)))
  have h1 : (packSPI o).extractLsb' 37 3 = o.cond := (extractLsb'_append_eq_of_le (by decide)).trans ((extractLsb'_append_eq_of_le (by decide)).trans (extractLsb'_append_eq_right))
  have h2 : (packSPI o).extractLsb' 31 6 = o.xa := (extractLsb'_append_eq_of_le (by decide)).trans (extractLsb'_append_eq_right)
  have h3 : (packSPI o).extractLsb' 0 31 = o.imm := extractLsb'_append_eq_right
  unfold unpackSPI
  rw [h0, h1, h2, h3]

theorem pack_unpackSPI (p : BitVec 46) (o : SPI) (h : unpackSPI p = .ok o) : packSPI o = p := by
  unfold unpackSPI at h
  cases h
  have h2 : (p.extractLsb' 40 6 ++ p.extractLsb' 37 3 ++ p.extractLsb' 31 6 ++ p.extractLsb' 0 31 : BitVec 46) = p := by
    have g1 : (p.extractLsb' 40 6 ++ p.extractLsb' 37 3 : BitVec 9) = p.extractLsb' 37 9 := extractLsb'_append_extractLsb'_eq_extractLsb' (by decide)
    have g2 : (p.extractLsb' 37 9 ++ p.extractLsb' 31 6 : BitVec 15) = p.extractLsb' 31 15 := extractLsb'_append_extractLsb'_eq_extractLsb' (by decide)
    have g3 : (p.extractLsb' 31 15 ++ p.extractLsb' 0 31 : BitVec 46) = p.extractLsb' 0 46 := extractLsb'_append_extractLsb'_eq_extractLsb' (by decide)
    exact ((congrArg (fun (x : BitVec 15) => (x ++ p.extractLsb' 0 31 : BitVec 46)) ((congrArg (fun (x : BitVec 9) => (x ++ p.extractLsb' 31 6 : BitVec 15)) (g1)).trans g2)).trans g3).trans extractLsb'_eq_self
  exact h2

theorem unpack_packSJ (o : SJ) : unpackSJ (packSJ o) = .ok o := by
  have h0 : (packSJ o).extractLsb' 0 46 = o.off := extractLsb'_eq_self
  unfold unpackSJ
  rw [h0]

theorem pack_unpackSJ (p : BitVec 46) (o : SJ) (h : unpackSJ p = .ok o) : packSJ o = p := by
  unfold unpackSJ at h
  cases h
  have h2 : (p.extractLsb' 0 46 : BitVec 46) = p := by
    exact extractLsb'_eq_self
  exact h2

theorem unpack_packSC (o : SC) : unpackSC (packSC o) = .ok o := by
  have h0 : (packSC o).extractLsb' 40 6 = o.xd := (extractLsb'_append_eq_of_le (by decide)).trans ((extractLsb'_append_eq_of_le (by decide)).trans ((extractLsb'_append_eq_of_le (by decide)).trans (extractLsb'_eq_self)))
  have h1 : (packSC o).extractLsb' 34 6 = o.xa := (extractLsb'_append_eq_of_le (by decide)).trans ((extractLsb'_append_eq_of_le (by decide)).trans (extractLsb'_append_eq_right))
  have h2 : (packSC o).extractLsb' 22 12 = o.csr := (extractLsb'_append_eq_of_le (by decide)).trans (extractLsb'_append_eq_right)
  have h3 : (packSC o).extractLsb' 0 22 = 0#22 := extractLsb'_append_eq_right
  unfold unpackSC
  rw [if_pos (by rw [h3]; rfl)]
  rw [h0, h1, h2]

theorem pack_unpackSC (p : BitVec 46) (o : SC) (h : unpackSC p = .ok o) : packSC o = p := by
  unfold unpackSC at h
  split at h
  · rename_i h0
    cases h
    have r3 : 0#22 = p.extractLsb' 0 22 := (beq_iff_eq.mp h0).symm
    have h2 : (p.extractLsb' 40 6 ++ p.extractLsb' 34 6 ++ p.extractLsb' 22 12 ++ p.extractLsb' 0 22 : BitVec 46) = p := by
      have g1 : (p.extractLsb' 40 6 ++ p.extractLsb' 34 6 : BitVec 12) = p.extractLsb' 34 12 := extractLsb'_append_extractLsb'_eq_extractLsb' (by decide)
      have g2 : (p.extractLsb' 34 12 ++ p.extractLsb' 22 12 : BitVec 24) = p.extractLsb' 22 24 := extractLsb'_append_extractLsb'_eq_extractLsb' (by decide)
      have g3 : (p.extractLsb' 22 24 ++ p.extractLsb' 0 22 : BitVec 46) = p.extractLsb' 0 46 := extractLsb'_append_extractLsb'_eq_extractLsb' (by decide)
      exact ((congrArg (fun (x : BitVec 24) => (x ++ p.extractLsb' 0 22 : BitVec 46)) ((congrArg (fun (x : BitVec 12) => (x ++ p.extractLsb' 22 12 : BitVec 24)) (g1)).trans g2)).trans g3).trans extractLsb'_eq_self
    rw [← r3] at h2
    exact h2
  · cases h

theorem unpack_packSF (o : SF) : unpackSF (packSF o) = .ok o := by
  have h0 : (packSF o).extractLsb' 40 6 = o.xd := (extractLsb'_append_eq_of_le (by decide)).trans ((extractLsb'_append_eq_of_le (by decide)).trans ((extractLsb'_append_eq_of_le (by decide)).trans (extractLsb'_eq_self)))
  have h1 : (packSF o).extractLsb' 37 3 = o.fs := (extractLsb'_append_eq_of_le (by decide)).trans ((extractLsb'_append_eq_of_le (by decide)).trans (extractLsb'_append_eq_right))
  have h2 : (packSF o).extractLsb' 31 6 = o.xa := (extractLsb'_append_eq_of_le (by decide)).trans (extractLsb'_append_eq_right)
  have h3 : (packSF o).extractLsb' 0 31 = 0#31 := extractLsb'_append_eq_right
  unfold unpackSF
  rw [if_pos (by rw [h3]; rfl)]
  rw [h0, h1, h2]

theorem pack_unpackSF (p : BitVec 46) (o : SF) (h : unpackSF p = .ok o) : packSF o = p := by
  unfold unpackSF at h
  split at h
  · rename_i h0
    cases h
    have r3 : 0#31 = p.extractLsb' 0 31 := (beq_iff_eq.mp h0).symm
    have h2 : (p.extractLsb' 40 6 ++ p.extractLsb' 37 3 ++ p.extractLsb' 31 6 ++ p.extractLsb' 0 31 : BitVec 46) = p := by
      have g1 : (p.extractLsb' 40 6 ++ p.extractLsb' 37 3 : BitVec 9) = p.extractLsb' 37 9 := extractLsb'_append_extractLsb'_eq_extractLsb' (by decide)
      have g2 : (p.extractLsb' 37 9 ++ p.extractLsb' 31 6 : BitVec 15) = p.extractLsb' 31 15 := extractLsb'_append_extractLsb'_eq_extractLsb' (by decide)
      have g3 : (p.extractLsb' 31 15 ++ p.extractLsb' 0 31 : BitVec 46) = p.extractLsb' 0 46 := extractLsb'_append_extractLsb'_eq_extractLsb' (by decide)
      exact ((congrArg (fun (x : BitVec 15) => (x ++ p.extractLsb' 0 31 : BitVec 46)) ((congrArg (fun (x : BitVec 9) => (x ++ p.extractLsb' 31 6 : BitVec 15)) (g1)).trans g2)).trans g3).trans extractLsb'_eq_self
    rw [← r3] at h2
    exact h2
  · cases h

theorem unpack_packST (o : ST) : unpackST (packST o) = .ok o := by
  have h0 : (packST o).extractLsb' 16 30 = 0#30 := (extractLsb'_append_eq_of_le (by decide)).trans (extractLsb'_eq_self)
  have h1 : (packST o).extractLsb' 0 16 = o.code := extractLsb'_append_eq_right
  unfold unpackST
  rw [if_pos (by rw [h0]; rfl)]
  rw [h1]

theorem pack_unpackST (p : BitVec 46) (o : ST) (h : unpackST p = .ok o) : packST o = p := by
  unfold unpackST at h
  split at h
  · rename_i h0
    cases h
    have r0 : 0#30 = p.extractLsb' 16 30 := (beq_iff_eq.mp h0).symm
    have h2 : (p.extractLsb' 16 30 ++ p.extractLsb' 0 16 : BitVec 46) = p := by
      have g1 : (p.extractLsb' 16 30 ++ p.extractLsb' 0 16 : BitVec 46) = p.extractLsb' 0 46 := extractLsb'_append_extractLsb'_eq_extractLsb' (by decide)
      exact (g1).trans extractLsb'_eq_self
    rw [← r0] at h2
    exact h2
  · cases h

theorem unpack_packSM (o : SM) : unpackSM (packSM o) = .ok o := by
  have h0 : (packSM o).extractLsb' 40 6 = o.xd := (extractLsb'_append_eq_of_le (by decide)).trans ((extractLsb'_append_eq_of_le (by decide)).trans ((extractLsb'_append_eq_of_le (by decide)).trans ((extractLsb'_append_eq_of_le (by decide)).trans (extractLsb'_eq_self))))
  have h1 : (packSM o).extractLsb' 34 6 = o.xa := (extractLsb'_append_eq_of_le (by decide)).trans ((extractLsb'_append_eq_of_le (by decide)).trans ((extractLsb'_append_eq_of_le (by decide)).trans (extractLsb'_append_eq_right)))
  have h2 : (packSM o).extractLsb' 32 2 = o.ord := (extractLsb'_append_eq_of_le (by decide)).trans ((extractLsb'_append_eq_of_le (by decide)).trans (extractLsb'_append_eq_right))
  have h3 : (packSM o).extractLsb' 29 3 = o.scope := (extractLsb'_append_eq_of_le (by decide)).trans (extractLsb'_append_eq_right)
  have h4 : (packSM o).extractLsb' 0 29 = o.off := extractLsb'_append_eq_right
  unfold unpackSM
  rw [h0, h1, h2, h3, h4]

theorem pack_unpackSM (p : BitVec 46) (o : SM) (h : unpackSM p = .ok o) : packSM o = p := by
  unfold unpackSM at h
  cases h
  have h2 : (p.extractLsb' 40 6 ++ p.extractLsb' 34 6 ++ p.extractLsb' 32 2 ++ p.extractLsb' 29 3 ++ p.extractLsb' 0 29 : BitVec 46) = p := by
    have g1 : (p.extractLsb' 40 6 ++ p.extractLsb' 34 6 : BitVec 12) = p.extractLsb' 34 12 := extractLsb'_append_extractLsb'_eq_extractLsb' (by decide)
    have g2 : (p.extractLsb' 34 12 ++ p.extractLsb' 32 2 : BitVec 14) = p.extractLsb' 32 14 := extractLsb'_append_extractLsb'_eq_extractLsb' (by decide)
    have g3 : (p.extractLsb' 32 14 ++ p.extractLsb' 29 3 : BitVec 17) = p.extractLsb' 29 17 := extractLsb'_append_extractLsb'_eq_extractLsb' (by decide)
    have g4 : (p.extractLsb' 29 17 ++ p.extractLsb' 0 29 : BitVec 46) = p.extractLsb' 0 46 := extractLsb'_append_extractLsb'_eq_extractLsb' (by decide)
    exact ((congrArg (fun (x : BitVec 17) => (x ++ p.extractLsb' 0 29 : BitVec 46)) ((congrArg (fun (x : BitVec 14) => (x ++ p.extractLsb' 29 3 : BitVec 17)) ((congrArg (fun (x : BitVec 12) => (x ++ p.extractLsb' 32 2 : BitVec 14)) (g1)).trans g2)).trans g3)).trans g4).trans extractLsb'_eq_self
  exact h2

theorem unpack_packSA (o : SA) : unpackSA (packSA o) = .ok o := by
  have h0 : (packSA o).extractLsb' 40 6 = o.xd := (extractLsb'_append_eq_of_le (by decide)).trans ((extractLsb'_append_eq_of_le (by decide)).trans ((extractLsb'_append_eq_of_le (by decide)).trans ((extractLsb'_append_eq_of_le (by decide)).trans ((extractLsb'_append_eq_of_le (by decide)).trans ((extractLsb'_append_eq_of_le (by decide)).trans ((extractLsb'_append_eq_of_le (by decide)).trans ((extractLsb'_append_eq_of_le (by decide)).trans (extractLsb'_eq_self))))))))
  have h1 : (packSA o).extractLsb' 34 6 = o.xa := (extractLsb'_append_eq_of_le (by decide)).trans ((extractLsb'_append_eq_of_le (by decide)).trans ((extractLsb'_append_eq_of_le (by decide)).trans ((extractLsb'_append_eq_of_le (by decide)).trans ((extractLsb'_append_eq_of_le (by decide)).trans ((extractLsb'_append_eq_of_le (by decide)).trans ((extractLsb'_append_eq_of_le (by decide)).trans (extractLsb'_append_eq_right)))))))
  have h2 : (packSA o).extractLsb' 28 6 = o.xb := (extractLsb'_append_eq_of_le (by decide)).trans ((extractLsb'_append_eq_of_le (by decide)).trans ((extractLsb'_append_eq_of_le (by decide)).trans ((extractLsb'_append_eq_of_le (by decide)).trans ((extractLsb'_append_eq_of_le (by decide)).trans ((extractLsb'_append_eq_of_le (by decide)).trans (extractLsb'_append_eq_right))))))
  have h3 : (packSA o).extractLsb' 22 6 = o.xc := (extractLsb'_append_eq_of_le (by decide)).trans ((extractLsb'_append_eq_of_le (by decide)).trans ((extractLsb'_append_eq_of_le (by decide)).trans ((extractLsb'_append_eq_of_le (by decide)).trans ((extractLsb'_append_eq_of_le (by decide)).trans (extractLsb'_append_eq_right)))))
  have h4 : (packSA o).extractLsb' 20 2 = o.ord := (extractLsb'_append_eq_of_le (by decide)).trans ((extractLsb'_append_eq_of_le (by decide)).trans ((extractLsb'_append_eq_of_le (by decide)).trans ((extractLsb'_append_eq_of_le (by decide)).trans (extractLsb'_append_eq_right))))
  have h5 : (packSA o).extractLsb' 17 3 = o.scope := (extractLsb'_append_eq_of_le (by decide)).trans ((extractLsb'_append_eq_of_le (by decide)).trans ((extractLsb'_append_eq_of_le (by decide)).trans (extractLsb'_append_eq_right)))
  have h6 : (packSA o).extractLsb' 13 4 = o.aop := (extractLsb'_append_eq_of_le (by decide)).trans ((extractLsb'_append_eq_of_le (by decide)).trans (extractLsb'_append_eq_right))
  have h7 : (packSA o).extractLsb' 12 1 = o.sz := (extractLsb'_append_eq_of_le (by decide)).trans (extractLsb'_append_eq_right)
  have h8 : (packSA o).extractLsb' 0 12 = 0#12 := extractLsb'_append_eq_right
  unfold unpackSA
  rw [if_pos (by rw [h8]; rfl)]
  rw [h0, h1, h2, h3, h4, h5, h6, h7]

theorem pack_unpackSA (p : BitVec 46) (o : SA) (h : unpackSA p = .ok o) : packSA o = p := by
  unfold unpackSA at h
  split at h
  · rename_i h0
    cases h
    have r8 : 0#12 = p.extractLsb' 0 12 := (beq_iff_eq.mp h0).symm
    have h2 : (p.extractLsb' 40 6 ++ p.extractLsb' 34 6 ++ p.extractLsb' 28 6 ++ p.extractLsb' 22 6 ++ p.extractLsb' 20 2 ++ p.extractLsb' 17 3 ++ p.extractLsb' 13 4 ++ p.extractLsb' 12 1 ++ p.extractLsb' 0 12 : BitVec 46) = p := by
      have g1 : (p.extractLsb' 40 6 ++ p.extractLsb' 34 6 : BitVec 12) = p.extractLsb' 34 12 := extractLsb'_append_extractLsb'_eq_extractLsb' (by decide)
      have g2 : (p.extractLsb' 34 12 ++ p.extractLsb' 28 6 : BitVec 18) = p.extractLsb' 28 18 := extractLsb'_append_extractLsb'_eq_extractLsb' (by decide)
      have g3 : (p.extractLsb' 28 18 ++ p.extractLsb' 22 6 : BitVec 24) = p.extractLsb' 22 24 := extractLsb'_append_extractLsb'_eq_extractLsb' (by decide)
      have g4 : (p.extractLsb' 22 24 ++ p.extractLsb' 20 2 : BitVec 26) = p.extractLsb' 20 26 := extractLsb'_append_extractLsb'_eq_extractLsb' (by decide)
      have g5 : (p.extractLsb' 20 26 ++ p.extractLsb' 17 3 : BitVec 29) = p.extractLsb' 17 29 := extractLsb'_append_extractLsb'_eq_extractLsb' (by decide)
      have g6 : (p.extractLsb' 17 29 ++ p.extractLsb' 13 4 : BitVec 33) = p.extractLsb' 13 33 := extractLsb'_append_extractLsb'_eq_extractLsb' (by decide)
      have g7 : (p.extractLsb' 13 33 ++ p.extractLsb' 12 1 : BitVec 34) = p.extractLsb' 12 34 := extractLsb'_append_extractLsb'_eq_extractLsb' (by decide)
      have g8 : (p.extractLsb' 12 34 ++ p.extractLsb' 0 12 : BitVec 46) = p.extractLsb' 0 46 := extractLsb'_append_extractLsb'_eq_extractLsb' (by decide)
      exact ((congrArg (fun (x : BitVec 34) => (x ++ p.extractLsb' 0 12 : BitVec 46)) ((congrArg (fun (x : BitVec 33) => (x ++ p.extractLsb' 12 1 : BitVec 34)) ((congrArg (fun (x : BitVec 29) => (x ++ p.extractLsb' 13 4 : BitVec 33)) ((congrArg (fun (x : BitVec 26) => (x ++ p.extractLsb' 17 3 : BitVec 29)) ((congrArg (fun (x : BitVec 24) => (x ++ p.extractLsb' 20 2 : BitVec 26)) ((congrArg (fun (x : BitVec 18) => (x ++ p.extractLsb' 22 6 : BitVec 24)) ((congrArg (fun (x : BitVec 12) => (x ++ p.extractLsb' 28 6 : BitVec 18)) (g1)).trans g2)).trans g3)).trans g4)).trans g5)).trans g6)).trans g7)).trans g8).trans extractLsb'_eq_self
    rw [← r8] at h2
    exact h2
  · cases h

theorem unpack_packSY (o : SY) : unpackSY (packSY o) = .ok o := by
  have h0 : (packSY o).extractLsb' 40 6 = o.xd := (extractLsb'_append_eq_of_le (by decide)).trans ((extractLsb'_append_eq_of_le (by decide)).trans ((extractLsb'_append_eq_of_le (by decide)).trans ((extractLsb'_append_eq_of_le (by decide)).trans ((extractLsb'_append_eq_of_le (by decide)).trans ((extractLsb'_append_eq_of_le (by decide)).trans ((extractLsb'_append_eq_of_le (by decide)).trans (extractLsb'_eq_self)))))))
  have h1 : (packSY o).extractLsb' 34 6 = o.xa := (extractLsb'_append_eq_of_le (by decide)).trans ((extractLsb'_append_eq_of_le (by decide)).trans ((extractLsb'_append_eq_of_le (by decide)).trans ((extractLsb'_append_eq_of_le (by decide)).trans ((extractLsb'_append_eq_of_le (by decide)).trans ((extractLsb'_append_eq_of_le (by decide)).trans (extractLsb'_append_eq_right))))))
  have h2 : (packSY o).extractLsb' 28 6 = o.xb := (extractLsb'_append_eq_of_le (by decide)).trans ((extractLsb'_append_eq_of_le (by decide)).trans ((extractLsb'_append_eq_of_le (by decide)).trans ((extractLsb'_append_eq_of_le (by decide)).trans ((extractLsb'_append_eq_of_le (by decide)).trans (extractLsb'_append_eq_right)))))
  have h3 : (packSY o).extractLsb' 23 5 = o.pd := (extractLsb'_append_eq_of_le (by decide)).trans ((extractLsb'_append_eq_of_le (by decide)).trans ((extractLsb'_append_eq_of_le (by decide)).trans ((extractLsb'_append_eq_of_le (by decide)).trans (extractLsb'_append_eq_right))))
  have h4 : (packSY o).extractLsb' 20 3 = o.lvl := (extractLsb'_append_eq_of_le (by decide)).trans ((extractLsb'_append_eq_of_le (by decide)).trans ((extractLsb'_append_eq_of_le (by decide)).trans (extractLsb'_append_eq_right)))
  have h5 : (packSY o).extractLsb' 17 3 = o.kind := (extractLsb'_append_eq_of_le (by decide)).trans ((extractLsb'_append_eq_of_le (by decide)).trans (extractLsb'_append_eq_right))
  have h6 : (packSY o).extractLsb' 16 1 = o.sp := (extractLsb'_append_eq_of_le (by decide)).trans (extractLsb'_append_eq_right)
  have h7 : (packSY o).extractLsb' 0 16 = 0#16 := extractLsb'_append_eq_right
  unfold unpackSY
  rw [if_pos (by rw [h7]; rfl)]
  rw [h0, h1, h2, h3, h4, h5, h6]

theorem pack_unpackSY (p : BitVec 46) (o : SY) (h : unpackSY p = .ok o) : packSY o = p := by
  unfold unpackSY at h
  split at h
  · rename_i h0
    cases h
    have r7 : 0#16 = p.extractLsb' 0 16 := (beq_iff_eq.mp h0).symm
    have h2 : (p.extractLsb' 40 6 ++ p.extractLsb' 34 6 ++ p.extractLsb' 28 6 ++ p.extractLsb' 23 5 ++ p.extractLsb' 20 3 ++ p.extractLsb' 17 3 ++ p.extractLsb' 16 1 ++ p.extractLsb' 0 16 : BitVec 46) = p := by
      have g1 : (p.extractLsb' 40 6 ++ p.extractLsb' 34 6 : BitVec 12) = p.extractLsb' 34 12 := extractLsb'_append_extractLsb'_eq_extractLsb' (by decide)
      have g2 : (p.extractLsb' 34 12 ++ p.extractLsb' 28 6 : BitVec 18) = p.extractLsb' 28 18 := extractLsb'_append_extractLsb'_eq_extractLsb' (by decide)
      have g3 : (p.extractLsb' 28 18 ++ p.extractLsb' 23 5 : BitVec 23) = p.extractLsb' 23 23 := extractLsb'_append_extractLsb'_eq_extractLsb' (by decide)
      have g4 : (p.extractLsb' 23 23 ++ p.extractLsb' 20 3 : BitVec 26) = p.extractLsb' 20 26 := extractLsb'_append_extractLsb'_eq_extractLsb' (by decide)
      have g5 : (p.extractLsb' 20 26 ++ p.extractLsb' 17 3 : BitVec 29) = p.extractLsb' 17 29 := extractLsb'_append_extractLsb'_eq_extractLsb' (by decide)
      have g6 : (p.extractLsb' 17 29 ++ p.extractLsb' 16 1 : BitVec 30) = p.extractLsb' 16 30 := extractLsb'_append_extractLsb'_eq_extractLsb' (by decide)
      have g7 : (p.extractLsb' 16 30 ++ p.extractLsb' 0 16 : BitVec 46) = p.extractLsb' 0 46 := extractLsb'_append_extractLsb'_eq_extractLsb' (by decide)
      exact ((congrArg (fun (x : BitVec 30) => (x ++ p.extractLsb' 0 16 : BitVec 46)) ((congrArg (fun (x : BitVec 29) => (x ++ p.extractLsb' 16 1 : BitVec 30)) ((congrArg (fun (x : BitVec 26) => (x ++ p.extractLsb' 17 3 : BitVec 29)) ((congrArg (fun (x : BitVec 23) => (x ++ p.extractLsb' 20 3 : BitVec 26)) ((congrArg (fun (x : BitVec 18) => (x ++ p.extractLsb' 23 5 : BitVec 23)) ((congrArg (fun (x : BitVec 12) => (x ++ p.extractLsb' 28 6 : BitVec 18)) (g1)).trans g2)).trans g3)).trans g4)).trans g5)).trans g6)).trans g7).trans extractLsb'_eq_self
    rw [← r7] at h2
    exact h2
  · cases h

theorem unpack_packVR (o : VR) : unpackVR (packVR o) = .ok o := by
  have h0 : (packVR o).extractLsb' 38 8 = o.dst := (extractLsb'_append_eq_of_le (by decide)).trans ((extractLsb'_append_eq_of_le (by decide)).trans ((extractLsb'_append_eq_of_le (by decide)).trans ((extractLsb'_append_eq_of_le (by decide)).trans ((extractLsb'_append_eq_of_le (by decide)).trans (extractLsb'_eq_self)))))
  have h1 : (packVR o).extractLsb' 29 9 = o.opa := (extractLsb'_append_eq_of_le (by decide)).trans ((extractLsb'_append_eq_of_le (by decide)).trans ((extractLsb'_append_eq_of_le (by decide)).trans ((extractLsb'_append_eq_of_le (by decide)).trans (extractLsb'_append_eq_right))))
  have h2 : (packVR o).extractLsb' 20 9 = o.opb := (extractLsb'_append_eq_of_le (by decide)).trans ((extractLsb'_append_eq_of_le (by decide)).trans ((extractLsb'_append_eq_of_le (by decide)).trans (extractLsb'_append_eq_right)))
  have h3 : (packVR o).extractLsb' 11 9 = o.opc := (extractLsb'_append_eq_of_le (by decide)).trans ((extractLsb'_append_eq_of_le (by decide)).trans (extractLsb'_append_eq_right))
  have h4 : (packVR o).extractLsb' 8 3 = o.fsel := (extractLsb'_append_eq_of_le (by decide)).trans (extractLsb'_append_eq_right)
  have h5 : (packVR o).extractLsb' 0 8 = o.fn := extractLsb'_append_eq_right
  unfold unpackVR
  rw [h0, h1, h2, h3, h4, h5]

theorem pack_unpackVR (p : BitVec 46) (o : VR) (h : unpackVR p = .ok o) : packVR o = p := by
  unfold unpackVR at h
  cases h
  have h2 : (p.extractLsb' 38 8 ++ p.extractLsb' 29 9 ++ p.extractLsb' 20 9 ++ p.extractLsb' 11 9 ++ p.extractLsb' 8 3 ++ p.extractLsb' 0 8 : BitVec 46) = p := by
    have g1 : (p.extractLsb' 38 8 ++ p.extractLsb' 29 9 : BitVec 17) = p.extractLsb' 29 17 := extractLsb'_append_extractLsb'_eq_extractLsb' (by decide)
    have g2 : (p.extractLsb' 29 17 ++ p.extractLsb' 20 9 : BitVec 26) = p.extractLsb' 20 26 := extractLsb'_append_extractLsb'_eq_extractLsb' (by decide)
    have g3 : (p.extractLsb' 20 26 ++ p.extractLsb' 11 9 : BitVec 35) = p.extractLsb' 11 35 := extractLsb'_append_extractLsb'_eq_extractLsb' (by decide)
    have g4 : (p.extractLsb' 11 35 ++ p.extractLsb' 8 3 : BitVec 38) = p.extractLsb' 8 38 := extractLsb'_append_extractLsb'_eq_extractLsb' (by decide)
    have g5 : (p.extractLsb' 8 38 ++ p.extractLsb' 0 8 : BitVec 46) = p.extractLsb' 0 46 := extractLsb'_append_extractLsb'_eq_extractLsb' (by decide)
    exact ((congrArg (fun (x : BitVec 38) => (x ++ p.extractLsb' 0 8 : BitVec 46)) ((congrArg (fun (x : BitVec 35) => (x ++ p.extractLsb' 8 3 : BitVec 38)) ((congrArg (fun (x : BitVec 26) => (x ++ p.extractLsb' 11 9 : BitVec 35)) ((congrArg (fun (x : BitVec 17) => (x ++ p.extractLsb' 20 9 : BitVec 26)) (g1)).trans g2)).trans g3)).trans g4)).trans g5).trans extractLsb'_eq_self
  exact h2

theorem unpack_packVP (o : VP) : unpackVP (packVP o) = .ok o := by
  have h0 : (packVP o).extractLsb' 43 3 = 0#3 := (extractLsb'_append_eq_of_le (by decide)).trans ((extractLsb'_append_eq_of_le (by decide)).trans ((extractLsb'_append_eq_of_le (by decide)).trans ((extractLsb'_append_eq_of_le (by decide)).trans ((extractLsb'_append_eq_of_le (by decide)).trans (extractLsb'_eq_self)))))
  have h1 : (packVP o).extractLsb' 38 5 = o.pd := (extractLsb'_append_eq_of_le (by decide)).trans ((extractLsb'_append_eq_of_le (by decide)).trans ((extractLsb'_append_eq_of_le (by decide)).trans ((extractLsb'_append_eq_of_le (by decide)).trans (extractLsb'_append_eq_right))))
  have h2 : (packVP o).extractLsb' 29 9 = o.opa := (extractLsb'_append_eq_of_le (by decide)).trans ((extractLsb'_append_eq_of_le (by decide)).trans ((extractLsb'_append_eq_of_le (by decide)).trans (extractLsb'_append_eq_right)))
  have h3 : (packVP o).extractLsb' 20 9 = o.opb := (extractLsb'_append_eq_of_le (by decide)).trans ((extractLsb'_append_eq_of_le (by decide)).trans (extractLsb'_append_eq_right))
  have h4 : (packVP o).extractLsb' 3 17 = 0#17 := (extractLsb'_append_eq_of_le (by decide)).trans (extractLsb'_append_eq_right)
  have h5 : (packVP o).extractLsb' 0 3 = o.cond := extractLsb'_append_eq_right
  unfold unpackVP
  rw [if_pos (by rw [h0, h4]; rfl)]
  rw [h1, h2, h3, h5]

theorem pack_unpackVP (p : BitVec 46) (o : VP) (h : unpackVP p = .ok o) : packVP o = p := by
  unfold unpackVP at h
  split at h
  · rename_i h0
    cases h
    have h0 := Bool.and_eq_true_iff.mp h0
    have r0 : 0#3 = p.extractLsb' 43 3 := (beq_iff_eq.mp h0.1).symm
    have r4 : 0#17 = p.extractLsb' 3 17 := (beq_iff_eq.mp h0.2).symm
    have h2 : (p.extractLsb' 43 3 ++ p.extractLsb' 38 5 ++ p.extractLsb' 29 9 ++ p.extractLsb' 20 9 ++ p.extractLsb' 3 17 ++ p.extractLsb' 0 3 : BitVec 46) = p := by
      have g1 : (p.extractLsb' 43 3 ++ p.extractLsb' 38 5 : BitVec 8) = p.extractLsb' 38 8 := extractLsb'_append_extractLsb'_eq_extractLsb' (by decide)
      have g2 : (p.extractLsb' 38 8 ++ p.extractLsb' 29 9 : BitVec 17) = p.extractLsb' 29 17 := extractLsb'_append_extractLsb'_eq_extractLsb' (by decide)
      have g3 : (p.extractLsb' 29 17 ++ p.extractLsb' 20 9 : BitVec 26) = p.extractLsb' 20 26 := extractLsb'_append_extractLsb'_eq_extractLsb' (by decide)
      have g4 : (p.extractLsb' 20 26 ++ p.extractLsb' 3 17 : BitVec 43) = p.extractLsb' 3 43 := extractLsb'_append_extractLsb'_eq_extractLsb' (by decide)
      have g5 : (p.extractLsb' 3 43 ++ p.extractLsb' 0 3 : BitVec 46) = p.extractLsb' 0 46 := extractLsb'_append_extractLsb'_eq_extractLsb' (by decide)
      exact ((congrArg (fun (x : BitVec 43) => (x ++ p.extractLsb' 0 3 : BitVec 46)) ((congrArg (fun (x : BitVec 26) => (x ++ p.extractLsb' 3 17 : BitVec 43)) ((congrArg (fun (x : BitVec 17) => (x ++ p.extractLsb' 20 9 : BitVec 26)) ((congrArg (fun (x : BitVec 8) => (x ++ p.extractLsb' 29 9 : BitVec 17)) (g1)).trans g2)).trans g3)).trans g4)).trans g5).trans extractLsb'_eq_self
    rw [← r0, ← r4] at h2
    exact h2
  · cases h

theorem unpack_packVX (o : VX) : unpackVX (packVX o) = .ok o := by
  have h0 : (packVX o).extractLsb' 40 6 = o.xd := (extractLsb'_append_eq_of_le (by decide)).trans ((extractLsb'_append_eq_of_le (by decide)).trans ((extractLsb'_append_eq_of_le (by decide)).trans ((extractLsb'_append_eq_of_le (by decide)).trans (extractLsb'_eq_self))))
  have h1 : (packVX o).extractLsb' 38 2 = 0#2 := (extractLsb'_append_eq_of_le (by decide)).trans ((extractLsb'_append_eq_of_le (by decide)).trans ((extractLsb'_append_eq_of_le (by decide)).trans (extractLsb'_append_eq_right)))
  have h2 : (packVX o).extractLsb' 29 9 = o.opa := (extractLsb'_append_eq_of_le (by decide)).trans ((extractLsb'_append_eq_of_le (by decide)).trans (extractLsb'_append_eq_right))
  have h3 : (packVX o).extractLsb' 7 22 = 0#22 := (extractLsb'_append_eq_of_le (by decide)).trans (extractLsb'_append_eq_right)
  have h4 : (packVX o).extractLsb' 0 7 = o.lane := extractLsb'_append_eq_right
  unfold unpackVX
  rw [if_pos (by rw [h1, h3]; rfl)]
  rw [h0, h2, h4]

theorem pack_unpackVX (p : BitVec 46) (o : VX) (h : unpackVX p = .ok o) : packVX o = p := by
  unfold unpackVX at h
  split at h
  · rename_i h0
    cases h
    have h0 := Bool.and_eq_true_iff.mp h0
    have r1 : 0#2 = p.extractLsb' 38 2 := (beq_iff_eq.mp h0.1).symm
    have r3 : 0#22 = p.extractLsb' 7 22 := (beq_iff_eq.mp h0.2).symm
    have h2 : (p.extractLsb' 40 6 ++ p.extractLsb' 38 2 ++ p.extractLsb' 29 9 ++ p.extractLsb' 7 22 ++ p.extractLsb' 0 7 : BitVec 46) = p := by
      have g1 : (p.extractLsb' 40 6 ++ p.extractLsb' 38 2 : BitVec 8) = p.extractLsb' 38 8 := extractLsb'_append_extractLsb'_eq_extractLsb' (by decide)
      have g2 : (p.extractLsb' 38 8 ++ p.extractLsb' 29 9 : BitVec 17) = p.extractLsb' 29 17 := extractLsb'_append_extractLsb'_eq_extractLsb' (by decide)
      have g3 : (p.extractLsb' 29 17 ++ p.extractLsb' 7 22 : BitVec 39) = p.extractLsb' 7 39 := extractLsb'_append_extractLsb'_eq_extractLsb' (by decide)
      have g4 : (p.extractLsb' 7 39 ++ p.extractLsb' 0 7 : BitVec 46) = p.extractLsb' 0 46 := extractLsb'_append_extractLsb'_eq_extractLsb' (by decide)
      exact ((congrArg (fun (x : BitVec 39) => (x ++ p.extractLsb' 0 7 : BitVec 46)) ((congrArg (fun (x : BitVec 17) => (x ++ p.extractLsb' 7 22 : BitVec 39)) ((congrArg (fun (x : BitVec 8) => (x ++ p.extractLsb' 29 9 : BitVec 17)) (g1)).trans g2)).trans g3)).trans g4).trans extractLsb'_eq_self
    rw [← r1, ← r3] at h2
    exact h2
  · cases h

theorem unpack_packVI (o : VI) : unpackVI (packVI o) = .ok o := by
  have h0 : (packVI o).extractLsb' 38 8 = o.dst := (extractLsb'_append_eq_of_le (by decide)).trans ((extractLsb'_append_eq_of_le (by decide)).trans (extractLsb'_eq_self))
  have h1 : (packVI o).extractLsb' 32 6 = 0#6 := (extractLsb'_append_eq_of_le (by decide)).trans (extractLsb'_append_eq_right)
  have h2 : (packVI o).extractLsb' 0 32 = o.imm := extractLsb'_append_eq_right
  unfold unpackVI
  rw [if_pos (by rw [h1]; rfl)]
  rw [h0, h2]

theorem pack_unpackVI (p : BitVec 46) (o : VI) (h : unpackVI p = .ok o) : packVI o = p := by
  unfold unpackVI at h
  split at h
  · rename_i h0
    cases h
    have r1 : 0#6 = p.extractLsb' 32 6 := (beq_iff_eq.mp h0).symm
    have h2 : (p.extractLsb' 38 8 ++ p.extractLsb' 32 6 ++ p.extractLsb' 0 32 : BitVec 46) = p := by
      have g1 : (p.extractLsb' 38 8 ++ p.extractLsb' 32 6 : BitVec 14) = p.extractLsb' 32 14 := extractLsb'_append_extractLsb'_eq_extractLsb' (by decide)
      have g2 : (p.extractLsb' 32 14 ++ p.extractLsb' 0 32 : BitVec 46) = p.extractLsb' 0 46 := extractLsb'_append_extractLsb'_eq_extractLsb' (by decide)
      exact ((congrArg (fun (x : BitVec 14) => (x ++ p.extractLsb' 0 32 : BitVec 46)) (g1)).trans g2).trans extractLsb'_eq_self
    rw [← r1] at h2
    exact h2
  · cases h

theorem unpack_packVK (o : VK) : unpackVK (packVK o) = .ok o := by
  have h0 : (packVK o).extractLsb' 38 8 = o.dst := (extractLsb'_append_eq_of_le (by decide)).trans ((extractLsb'_append_eq_of_le (by decide)).trans (extractLsb'_eq_self))
  have h1 : (packVK o).extractLsb' 32 6 = o.xk := (extractLsb'_append_eq_of_le (by decide)).trans (extractLsb'_append_eq_right)
  have h2 : (packVK o).extractLsb' 0 32 = 0#32 := extractLsb'_append_eq_right
  unfold unpackVK
  rw [if_pos (by rw [h2]; rfl)]
  rw [h0, h1]

theorem pack_unpackVK (p : BitVec 46) (o : VK) (h : unpackVK p = .ok o) : packVK o = p := by
  unfold unpackVK at h
  split at h
  · rename_i h0
    cases h
    have r2 : 0#32 = p.extractLsb' 0 32 := (beq_iff_eq.mp h0).symm
    have h2 : (p.extractLsb' 38 8 ++ p.extractLsb' 32 6 ++ p.extractLsb' 0 32 : BitVec 46) = p := by
      have g1 : (p.extractLsb' 38 8 ++ p.extractLsb' 32 6 : BitVec 14) = p.extractLsb' 32 14 := extractLsb'_append_extractLsb'_eq_extractLsb' (by decide)
      have g2 : (p.extractLsb' 32 14 ++ p.extractLsb' 0 32 : BitVec 46) = p.extractLsb' 0 46 := extractLsb'_append_extractLsb'_eq_extractLsb' (by decide)
      exact ((congrArg (fun (x : BitVec 14) => (x ++ p.extractLsb' 0 32 : BitVec 46)) (g1)).trans g2).trans extractLsb'_eq_self
    rw [← r2] at h2
    exact h2
  · cases h

theorem unpack_packVM (o : VM) : unpackVM (packVM o) = .ok o := by
  have h0 : (packVM o).extractLsb' 37 9 = o.data := (extractLsb'_append_eq_of_le (by decide)).trans ((extractLsb'_append_eq_of_le (by decide)).trans ((extractLsb'_append_eq_of_le (by decide)).trans ((extractLsb'_append_eq_of_le (by decide)).trans ((extractLsb'_append_eq_of_le (by decide)).trans ((extractLsb'_append_eq_of_le (by decide)).trans (extractLsb'_eq_self))))))
  have h1 : (packVM o).extractLsb' 22 15 = o.offb := (extractLsb'_append_eq_of_le (by decide)).trans ((extractLsb'_append_eq_of_le (by decide)).trans ((extractLsb'_append_eq_of_le (by decide)).trans ((extractLsb'_append_eq_of_le (by decide)).trans ((extractLsb'_append_eq_of_le (by decide)).trans (extractLsb'_append_eq_right)))))
  have h2 : (packVM o).extractLsb' 12 10 = o.step := (extractLsb'_append_eq_of_le (by decide)).trans ((extractLsb'_append_eq_of_le (by decide)).trans ((extractLsb'_append_eq_of_le (by decide)).trans ((extractLsb'_append_eq_of_le (by decide)).trans (extractLsb'_append_eq_right))))
  have h3 : (packVM o).extractLsb' 6 6 = o.xb := (extractLsb'_append_eq_of_le (by decide)).trans ((extractLsb'_append_eq_of_le (by decide)).trans ((extractLsb'_append_eq_of_le (by decide)).trans (extractLsb'_append_eq_right)))
  have h4 : (packVM o).extractLsb' 4 2 = o.mode := (extractLsb'_append_eq_of_le (by decide)).trans ((extractLsb'_append_eq_of_le (by decide)).trans (extractLsb'_append_eq_right))
  have h5 : (packVM o).extractLsb' 1 3 = o.fsel := (extractLsb'_append_eq_of_le (by decide)).trans (extractLsb'_append_eq_right)
  have h6 : (packVM o).extractLsb' 0 1 = 0#1 := extractLsb'_append_eq_right
  unfold unpackVM
  rw [if_pos (by rw [h6]; rfl)]
  rw [h0, h1, h2, h3, h4, h5]

theorem pack_unpackVM (p : BitVec 46) (o : VM) (h : unpackVM p = .ok o) : packVM o = p := by
  unfold unpackVM at h
  split at h
  · rename_i h0
    cases h
    have r6 : 0#1 = p.extractLsb' 0 1 := (beq_iff_eq.mp h0).symm
    have h2 : (p.extractLsb' 37 9 ++ p.extractLsb' 22 15 ++ p.extractLsb' 12 10 ++ p.extractLsb' 6 6 ++ p.extractLsb' 4 2 ++ p.extractLsb' 1 3 ++ p.extractLsb' 0 1 : BitVec 46) = p := by
      have g1 : (p.extractLsb' 37 9 ++ p.extractLsb' 22 15 : BitVec 24) = p.extractLsb' 22 24 := extractLsb'_append_extractLsb'_eq_extractLsb' (by decide)
      have g2 : (p.extractLsb' 22 24 ++ p.extractLsb' 12 10 : BitVec 34) = p.extractLsb' 12 34 := extractLsb'_append_extractLsb'_eq_extractLsb' (by decide)
      have g3 : (p.extractLsb' 12 34 ++ p.extractLsb' 6 6 : BitVec 40) = p.extractLsb' 6 40 := extractLsb'_append_extractLsb'_eq_extractLsb' (by decide)
      have g4 : (p.extractLsb' 6 40 ++ p.extractLsb' 4 2 : BitVec 42) = p.extractLsb' 4 42 := extractLsb'_append_extractLsb'_eq_extractLsb' (by decide)
      have g5 : (p.extractLsb' 4 42 ++ p.extractLsb' 1 3 : BitVec 45) = p.extractLsb' 1 45 := extractLsb'_append_extractLsb'_eq_extractLsb' (by decide)
      have g6 : (p.extractLsb' 1 45 ++ p.extractLsb' 0 1 : BitVec 46) = p.extractLsb' 0 46 := extractLsb'_append_extractLsb'_eq_extractLsb' (by decide)
      exact ((congrArg (fun (x : BitVec 45) => (x ++ p.extractLsb' 0 1 : BitVec 46)) ((congrArg (fun (x : BitVec 42) => (x ++ p.extractLsb' 1 3 : BitVec 45)) ((congrArg (fun (x : BitVec 40) => (x ++ p.extractLsb' 4 2 : BitVec 42)) ((congrArg (fun (x : BitVec 34) => (x ++ p.extractLsb' 6 6 : BitVec 40)) ((congrArg (fun (x : BitVec 24) => (x ++ p.extractLsb' 12 10 : BitVec 34)) (g1)).trans g2)).trans g3)).trans g4)).trans g5)).trans g6).trans extractLsb'_eq_self
    rw [← r6] at h2
    exact h2
  · cases h

theorem unpack_packVG (o : VG) : unpackVG (packVG o) = .ok o := by
  have h0 : (packVG o).extractLsb' 37 9 = o.data := (extractLsb'_append_eq_of_le (by decide)).trans ((extractLsb'_append_eq_of_le (by decide)).trans ((extractLsb'_append_eq_of_le (by decide)).trans ((extractLsb'_append_eq_of_le (by decide)).trans (extractLsb'_eq_self))))
  have h1 : (packVG o).extractLsb' 28 9 = o.idx := (extractLsb'_append_eq_of_le (by decide)).trans ((extractLsb'_append_eq_of_le (by decide)).trans ((extractLsb'_append_eq_of_le (by decide)).trans (extractLsb'_append_eq_right)))
  have h2 : (packVG o).extractLsb' 13 15 = o.offb := (extractLsb'_append_eq_of_le (by decide)).trans ((extractLsb'_append_eq_of_le (by decide)).trans (extractLsb'_append_eq_right))
  have h3 : (packVG o).extractLsb' 7 6 = o.xb := (extractLsb'_append_eq_of_le (by decide)).trans (extractLsb'_append_eq_right)
  have h4 : (packVG o).extractLsb' 0 7 = o.step := extractLsb'_append_eq_right
  unfold unpackVG
  rw [h0, h1, h2, h3, h4]

theorem pack_unpackVG (p : BitVec 46) (o : VG) (h : unpackVG p = .ok o) : packVG o = p := by
  unfold unpackVG at h
  cases h
  have h2 : (p.extractLsb' 37 9 ++ p.extractLsb' 28 9 ++ p.extractLsb' 13 15 ++ p.extractLsb' 7 6 ++ p.extractLsb' 0 7 : BitVec 46) = p := by
    have g1 : (p.extractLsb' 37 9 ++ p.extractLsb' 28 9 : BitVec 18) = p.extractLsb' 28 18 := extractLsb'_append_extractLsb'_eq_extractLsb' (by decide)
    have g2 : (p.extractLsb' 28 18 ++ p.extractLsb' 13 15 : BitVec 33) = p.extractLsb' 13 33 := extractLsb'_append_extractLsb'_eq_extractLsb' (by decide)
    have g3 : (p.extractLsb' 13 33 ++ p.extractLsb' 7 6 : BitVec 39) = p.extractLsb' 7 39 := extractLsb'_append_extractLsb'_eq_extractLsb' (by decide)
    have g4 : (p.extractLsb' 7 39 ++ p.extractLsb' 0 7 : BitVec 46) = p.extractLsb' 0 46 := extractLsb'_append_extractLsb'_eq_extractLsb' (by decide)
    exact ((congrArg (fun (x : BitVec 39) => (x ++ p.extractLsb' 0 7 : BitVec 46)) ((congrArg (fun (x : BitVec 33) => (x ++ p.extractLsb' 7 6 : BitVec 39)) ((congrArg (fun (x : BitVec 18) => (x ++ p.extractLsb' 13 15 : BitVec 33)) (g1)).trans g2)).trans g3)).trans g4).trans extractLsb'_eq_self
  exact h2

theorem unpack_packMX (o : MX) : unpackMX (packMX o) = .ok o := by
  have h0 : (packMX o).extractLsb' 42 4 = o.td := (extractLsb'_append_eq_of_le (by decide)).trans ((extractLsb'_append_eq_of_le (by decide)).trans ((extractLsb'_append_eq_of_le (by decide)).trans ((extractLsb'_append_eq_of_le (by decide)).trans ((extractLsb'_append_eq_of_le (by decide)).trans ((extractLsb'_append_eq_of_le (by decide)).trans ((extractLsb'_append_eq_of_le (by decide)).trans ((extractLsb'_append_eq_of_le (by decide)).trans ((extractLsb'_append_eq_of_le (by decide)).trans (extractLsb'_eq_self)))))))))
  have h1 : (packMX o).extractLsb' 36 6 = o.xa := (extractLsb'_append_eq_of_le (by decide)).trans ((extractLsb'_append_eq_of_le (by decide)).trans ((extractLsb'_append_eq_of_le (by decide)).trans ((extractLsb'_append_eq_of_le (by decide)).trans ((extractLsb'_append_eq_of_le (by decide)).trans ((extractLsb'_append_eq_of_le (by decide)).trans ((extractLsb'_append_eq_of_le (by decide)).trans ((extractLsb'_append_eq_of_le (by decide)).trans (extractLsb'_append_eq_right))))))))
  have h2 : (packMX o).extractLsb' 30 6 = o.xb := (extractLsb'_append_eq_of_le (by decide)).trans ((extractLsb'_append_eq_of_le (by decide)).trans ((extractLsb'_append_eq_of_le (by decide)).trans ((extractLsb'_append_eq_of_le (by decide)).trans ((extractLsb'_append_eq_of_le (by decide)).trans ((extractLsb'_append_eq_of_le (by decide)).trans ((extractLsb'_append_eq_of_le (by decide)).trans (extractLsb'_append_eq_right)))))))
  have h3 : (packMX o).extractLsb' 20 10 = o.pd := (extractLsb'_append_eq_of_le (by decide)).trans ((extractLsb'_append_eq_of_le (by decide)).trans ((extractLsb'_append_eq_of_le (by decide)).trans ((extractLsb'_append_eq_of_le (by decide)).trans ((extractLsb'_append_eq_of_le (by decide)).trans ((extractLsb'_append_eq_of_le (by decide)).trans (extractLsb'_append_eq_right))))))
  have h4 : (packMX o).extractLsb' 16 4 = o.kb := (extractLsb'_append_eq_of_le (by decide)).trans ((extractLsb'_append_eq_of_le (by decide)).trans ((extractLsb'_append_eq_of_le (by decide)).trans ((extractLsb'_append_eq_of_le (by decide)).trans ((extractLsb'_append_eq_of_le (by decide)).trans (extractLsb'_append_eq_right)))))
  have h5 : (packMX o).extractLsb' 13 3 = o.fa := (extractLsb'_append_eq_of_le (by decide)).trans ((extractLsb'_append_eq_of_le (by decide)).trans ((extractLsb'_append_eq_of_le (by decide)).trans ((extractLsb'_append_eq_of_le (by decide)).trans (extractLsb'_append_eq_right))))
  have h6 : (packMX o).extractLsb' 10 3 = o.fb := (extractLsb'_append_eq_of_le (by decide)).trans ((extractLsb'_append_eq_of_le (by decide)).trans ((extractLsb'_append_eq_of_le (by decide)).trans (extractLsb'_append_eq_right)))
  have h7 : (packMX o).extractLsb' 8 2 = o.kind := (extractLsb'_append_eq_of_le (by decide)).trans ((extractLsb'_append_eq_of_le (by decide)).trans (extractLsb'_append_eq_right))
  have h8 : (packMX o).extractLsb' 4 4 = o.sta := (extractLsb'_append_eq_of_le (by decide)).trans (extractLsb'_append_eq_right)
  have h9 : (packMX o).extractLsb' 0 4 = o.stb := extractLsb'_append_eq_right
  unfold unpackMX
  rw [h0, h1, h2, h3, h4, h5, h6, h7, h8, h9]

theorem pack_unpackMX (p : BitVec 46) (o : MX) (h : unpackMX p = .ok o) : packMX o = p := by
  unfold unpackMX at h
  cases h
  have h2 : (p.extractLsb' 42 4 ++ p.extractLsb' 36 6 ++ p.extractLsb' 30 6 ++ p.extractLsb' 20 10 ++ p.extractLsb' 16 4 ++ p.extractLsb' 13 3 ++ p.extractLsb' 10 3 ++ p.extractLsb' 8 2 ++ p.extractLsb' 4 4 ++ p.extractLsb' 0 4 : BitVec 46) = p := by
    have g1 : (p.extractLsb' 42 4 ++ p.extractLsb' 36 6 : BitVec 10) = p.extractLsb' 36 10 := extractLsb'_append_extractLsb'_eq_extractLsb' (by decide)
    have g2 : (p.extractLsb' 36 10 ++ p.extractLsb' 30 6 : BitVec 16) = p.extractLsb' 30 16 := extractLsb'_append_extractLsb'_eq_extractLsb' (by decide)
    have g3 : (p.extractLsb' 30 16 ++ p.extractLsb' 20 10 : BitVec 26) = p.extractLsb' 20 26 := extractLsb'_append_extractLsb'_eq_extractLsb' (by decide)
    have g4 : (p.extractLsb' 20 26 ++ p.extractLsb' 16 4 : BitVec 30) = p.extractLsb' 16 30 := extractLsb'_append_extractLsb'_eq_extractLsb' (by decide)
    have g5 : (p.extractLsb' 16 30 ++ p.extractLsb' 13 3 : BitVec 33) = p.extractLsb' 13 33 := extractLsb'_append_extractLsb'_eq_extractLsb' (by decide)
    have g6 : (p.extractLsb' 13 33 ++ p.extractLsb' 10 3 : BitVec 36) = p.extractLsb' 10 36 := extractLsb'_append_extractLsb'_eq_extractLsb' (by decide)
    have g7 : (p.extractLsb' 10 36 ++ p.extractLsb' 8 2 : BitVec 38) = p.extractLsb' 8 38 := extractLsb'_append_extractLsb'_eq_extractLsb' (by decide)
    have g8 : (p.extractLsb' 8 38 ++ p.extractLsb' 4 4 : BitVec 42) = p.extractLsb' 4 42 := extractLsb'_append_extractLsb'_eq_extractLsb' (by decide)
    have g9 : (p.extractLsb' 4 42 ++ p.extractLsb' 0 4 : BitVec 46) = p.extractLsb' 0 46 := extractLsb'_append_extractLsb'_eq_extractLsb' (by decide)
    exact ((congrArg (fun (x : BitVec 42) => (x ++ p.extractLsb' 0 4 : BitVec 46)) ((congrArg (fun (x : BitVec 38) => (x ++ p.extractLsb' 4 4 : BitVec 42)) ((congrArg (fun (x : BitVec 36) => (x ++ p.extractLsb' 8 2 : BitVec 38)) ((congrArg (fun (x : BitVec 33) => (x ++ p.extractLsb' 10 3 : BitVec 36)) ((congrArg (fun (x : BitVec 30) => (x ++ p.extractLsb' 13 3 : BitVec 33)) ((congrArg (fun (x : BitVec 26) => (x ++ p.extractLsb' 16 4 : BitVec 30)) ((congrArg (fun (x : BitVec 16) => (x ++ p.extractLsb' 20 10 : BitVec 26)) ((congrArg (fun (x : BitVec 10) => (x ++ p.extractLsb' 30 6 : BitVec 16)) (g1)).trans g2)).trans g3)).trans g4)).trans g5)).trans g6)).trans g7)).trans g8)).trans g9).trans extractLsb'_eq_self
  exact h2

theorem unpack_packMS (o : MS) : unpackMS (packMS o) = .ok o := by
  have h0 : (packMS o).extractLsb' 42 4 = o.td := (extractLsb'_append_eq_of_le (by decide)).trans ((extractLsb'_append_eq_of_le (by decide)).trans ((extractLsb'_append_eq_of_le (by decide)).trans ((extractLsb'_append_eq_of_le (by decide)).trans ((extractLsb'_append_eq_of_le (by decide)).trans ((extractLsb'_append_eq_of_le (by decide)).trans ((extractLsb'_append_eq_of_le (by decide)).trans ((extractLsb'_append_eq_of_le (by decide)).trans ((extractLsb'_append_eq_of_le (by decide)).trans ((extractLsb'_append_eq_of_le (by decide)).trans (extractLsb'_eq_self))))))))))
  have h1 : (packMS o).extractLsb' 36 6 = o.xa := (extractLsb'_append_eq_of_le (by decide)).trans ((extractLsb'_append_eq_of_le (by decide)).trans ((extractLsb'_append_eq_of_le (by decide)).trans ((extractLsb'_append_eq_of_le (by decide)).trans ((extractLsb'_append_eq_of_le (by decide)).trans ((extractLsb'_append_eq_of_le (by decide)).trans ((extractLsb'_append_eq_of_le (by decide)).trans ((extractLsb'_append_eq_of_le (by decide)).trans ((extractLsb'_append_eq_of_le (by decide)).trans (extractLsb'_append_eq_right)))))))))
  have h2 : (packMS o).extractLsb' 30 6 = o.xb := (extractLsb'_append_eq_of_le (by decide)).trans ((extractLsb'_append_eq_of_le (by decide)).trans ((extractLsb'_append_eq_of_le (by decide)).trans ((extractLsb'_append_eq_of_le (by decide)).trans ((extractLsb'_append_eq_of_le (by decide)).trans ((extractLsb'_append_eq_of_le (by decide)).trans ((extractLsb'_append_eq_of_le (by decide)).trans ((extractLsb'_append_eq_of_le (by decide)).trans (extractLsb'_append_eq_right))))))))
  have h3 : (packMS o).extractLsb' 20 10 = o.pd := (extractLsb'_append_eq_of_le (by decide)).trans ((extractLsb'_append_eq_of_le (by decide)).trans ((extractLsb'_append_eq_of_le (by decide)).trans ((extractLsb'_append_eq_of_le (by decide)).trans ((extractLsb'_append_eq_of_le (by decide)).trans ((extractLsb'_append_eq_of_le (by decide)).trans ((extractLsb'_append_eq_of_le (by decide)).trans (extractLsb'_append_eq_right)))))))
  have h4 : (packMS o).extractLsb' 16 4 = o.kb := (extractLsb'_append_eq_of_le (by decide)).trans ((extractLsb'_append_eq_of_le (by decide)).trans ((extractLsb'_append_eq_of_le (by decide)).trans ((extractLsb'_append_eq_of_le (by decide)).trans ((extractLsb'_append_eq_of_le (by decide)).trans ((extractLsb'_append_eq_of_le (by decide)).trans (extractLsb'_append_eq_right))))))
  have h5 : (packMS o).extractLsb' 13 3 = o.fa := (extractLsb'_append_eq_of_le (by decide)).trans ((extractLsb'_append_eq_of_le (by decide)).trans ((extractLsb'_append_eq_of_le (by decide)).trans ((extractLsb'_append_eq_of_le (by decide)).trans ((extractLsb'_append_eq_of_le (by decide)).trans (extractLsb'_append_eq_right)))))
  have h6 : (packMS o).extractLsb' 10 3 = o.fb := (extractLsb'_append_eq_of_le (by decide)).trans ((extractLsb'_append_eq_of_le (by decide)).trans ((extractLsb'_append_eq_of_le (by decide)).trans ((extractLsb'_append_eq_of_le (by decide)).trans (extractLsb'_append_eq_right))))
  have h7 : (packMS o).extractLsb' 8 2 = o.ntc := (extractLsb'_append_eq_of_le (by decide)).trans ((extractLsb'_append_eq_of_le (by decide)).trans ((extractLsb'_append_eq_of_le (by decide)).trans (extractLsb'_append_eq_right)))
  have h8 : (packMS o).extractLsb' 4 4 = o.lvf := (extractLsb'_append_eq_of_le (by decide)).trans ((extractLsb'_append_eq_of_le (by decide)).trans (extractLsb'_append_eq_right))
  have h9 : (packMS o).extractLsb' 2 2 = o.sta := (extractLsb'_append_eq_of_le (by decide)).trans (extractLsb'_append_eq_right)
  have h10 : (packMS o).extractLsb' 0 2 = o.stb := extractLsb'_append_eq_right
  unfold unpackMS
  rw [h0, h1, h2, h3, h4, h5, h6, h7, h8, h9, h10]

theorem pack_unpackMS (p : BitVec 46) (o : MS) (h : unpackMS p = .ok o) : packMS o = p := by
  unfold unpackMS at h
  cases h
  have h2 : (p.extractLsb' 42 4 ++ p.extractLsb' 36 6 ++ p.extractLsb' 30 6 ++ p.extractLsb' 20 10 ++ p.extractLsb' 16 4 ++ p.extractLsb' 13 3 ++ p.extractLsb' 10 3 ++ p.extractLsb' 8 2 ++ p.extractLsb' 4 4 ++ p.extractLsb' 2 2 ++ p.extractLsb' 0 2 : BitVec 46) = p := by
    have g1 : (p.extractLsb' 42 4 ++ p.extractLsb' 36 6 : BitVec 10) = p.extractLsb' 36 10 := extractLsb'_append_extractLsb'_eq_extractLsb' (by decide)
    have g2 : (p.extractLsb' 36 10 ++ p.extractLsb' 30 6 : BitVec 16) = p.extractLsb' 30 16 := extractLsb'_append_extractLsb'_eq_extractLsb' (by decide)
    have g3 : (p.extractLsb' 30 16 ++ p.extractLsb' 20 10 : BitVec 26) = p.extractLsb' 20 26 := extractLsb'_append_extractLsb'_eq_extractLsb' (by decide)
    have g4 : (p.extractLsb' 20 26 ++ p.extractLsb' 16 4 : BitVec 30) = p.extractLsb' 16 30 := extractLsb'_append_extractLsb'_eq_extractLsb' (by decide)
    have g5 : (p.extractLsb' 16 30 ++ p.extractLsb' 13 3 : BitVec 33) = p.extractLsb' 13 33 := extractLsb'_append_extractLsb'_eq_extractLsb' (by decide)
    have g6 : (p.extractLsb' 13 33 ++ p.extractLsb' 10 3 : BitVec 36) = p.extractLsb' 10 36 := extractLsb'_append_extractLsb'_eq_extractLsb' (by decide)
    have g7 : (p.extractLsb' 10 36 ++ p.extractLsb' 8 2 : BitVec 38) = p.extractLsb' 8 38 := extractLsb'_append_extractLsb'_eq_extractLsb' (by decide)
    have g8 : (p.extractLsb' 8 38 ++ p.extractLsb' 4 4 : BitVec 42) = p.extractLsb' 4 42 := extractLsb'_append_extractLsb'_eq_extractLsb' (by decide)
    have g9 : (p.extractLsb' 4 42 ++ p.extractLsb' 2 2 : BitVec 44) = p.extractLsb' 2 44 := extractLsb'_append_extractLsb'_eq_extractLsb' (by decide)
    have g10 : (p.extractLsb' 2 44 ++ p.extractLsb' 0 2 : BitVec 46) = p.extractLsb' 0 46 := extractLsb'_append_extractLsb'_eq_extractLsb' (by decide)
    exact ((congrArg (fun (x : BitVec 44) => (x ++ p.extractLsb' 0 2 : BitVec 46)) ((congrArg (fun (x : BitVec 42) => (x ++ p.extractLsb' 2 2 : BitVec 44)) ((congrArg (fun (x : BitVec 38) => (x ++ p.extractLsb' 4 4 : BitVec 42)) ((congrArg (fun (x : BitVec 36) => (x ++ p.extractLsb' 8 2 : BitVec 38)) ((congrArg (fun (x : BitVec 33) => (x ++ p.extractLsb' 10 3 : BitVec 36)) ((congrArg (fun (x : BitVec 30) => (x ++ p.extractLsb' 13 3 : BitVec 33)) ((congrArg (fun (x : BitVec 26) => (x ++ p.extractLsb' 16 4 : BitVec 30)) ((congrArg (fun (x : BitVec 16) => (x ++ p.extractLsb' 20 10 : BitVec 26)) ((congrArg (fun (x : BitVec 10) => (x ++ p.extractLsb' 30 6 : BitVec 16)) (g1)).trans g2)).trans g3)).trans g4)).trans g5)).trans g6)).trans g7)).trans g8)).trans g9)).trans g10).trans extractLsb'_eq_self
  exact h2

theorem unpack_packMK (o : MK) : unpackMK (packMK o) = .ok o := by
  have h0 : (packMK o).extractLsb' 42 4 = o.td := (extractLsb'_append_eq_of_le (by decide)).trans ((extractLsb'_append_eq_of_le (by decide)).trans ((extractLsb'_append_eq_of_le (by decide)).trans ((extractLsb'_append_eq_of_le (by decide)).trans ((extractLsb'_append_eq_of_le (by decide)).trans ((extractLsb'_append_eq_of_le (by decide)).trans ((extractLsb'_append_eq_of_le (by decide)).trans ((extractLsb'_append_eq_of_le (by decide)).trans ((extractLsb'_append_eq_of_le (by decide)).trans (extractLsb'_eq_self)))))))))
  have h1 : (packMK o).extractLsb' 36 6 = o.xa := (extractLsb'_append_eq_of_le (by decide)).trans ((extractLsb'_append_eq_of_le (by decide)).trans ((extractLsb'_append_eq_of_le (by decide)).trans ((extractLsb'_append_eq_of_le (by decide)).trans ((extractLsb'_append_eq_of_le (by decide)).trans ((extractLsb'_append_eq_of_le (by decide)).trans ((extractLsb'_append_eq_of_le (by decide)).trans ((extractLsb'_append_eq_of_le (by decide)).trans (extractLsb'_append_eq_right))))))))
  have h2 : (packMK o).extractLsb' 32 4 = o.sk := (extractLsb'_append_eq_of_le (by decide)).trans ((extractLsb'_append_eq_of_le (by decide)).trans ((extractLsb'_append_eq_of_le (by decide)).trans ((extractLsb'_append_eq_of_le (by decide)).trans ((extractLsb'_append_eq_of_le (by decide)).trans ((extractLsb'_append_eq_of_le (by decide)).trans ((extractLsb'_append_eq_of_le (by decide)).trans (extractLsb'_append_eq_right)))))))
  have h3 : (packMK o).extractLsb' 30 2 = 0#2 := (extractLsb'_append_eq_of_le (by decide)).trans ((extractLsb'_append_eq_of_le (by decide)).trans ((extractLsb'_append_eq_of_le (by decide)).trans ((extractLsb'_append_eq_of_le (by decide)).trans ((extractLsb'_append_eq_of_le (by decide)).trans ((extractLsb'_append_eq_of_le (by decide)).trans (extractLsb'_append_eq_right))))))
  have h4 : (packMK o).extractLsb' 20 10 = o.pd := (extractLsb'_append_eq_of_le (by decide)).trans ((extractLsb'_append_eq_of_le (by decide)).trans ((extractLsb'_append_eq_of_le (by decide)).trans ((extractLsb'_append_eq_of_le (by decide)).trans ((extractLsb'_append_eq_of_le (by decide)).trans (extractLsb'_append_eq_right)))))
  have h5 : (packMK o).extractLsb' 16 4 = o.kb := (extractLsb'_append_eq_of_le (by decide)).trans ((extractLsb'_append_eq_of_le (by decide)).trans ((extractLsb'_append_eq_of_le (by decide)).trans ((extractLsb'_append_eq_of_le (by decide)).trans (extractLsb'_append_eq_right))))
  have h6 : (packMK o).extractLsb' 13 3 = o.fa := (extractLsb'_append_eq_of_le (by decide)).trans ((extractLsb'_append_eq_of_le (by decide)).trans ((extractLsb'_append_eq_of_le (by decide)).trans (extractLsb'_append_eq_right)))
  have h7 : (packMK o).extractLsb' 11 2 = 0#2 := (extractLsb'_append_eq_of_le (by decide)).trans ((extractLsb'_append_eq_of_le (by decide)).trans (extractLsb'_append_eq_right))
  have h8 : (packMK o).extractLsb' 4 7 = o.nr := (extractLsb'_append_eq_of_le (by decide)).trans (extractLsb'_append_eq_right)
  have h9 : (packMK o).extractLsb' 0 4 = o.sta := extractLsb'_append_eq_right
  unfold unpackMK
  rw [if_pos (by rw [h3, h7]; rfl)]
  rw [h0, h1, h2, h4, h5, h6, h8, h9]

theorem pack_unpackMK (p : BitVec 46) (o : MK) (h : unpackMK p = .ok o) : packMK o = p := by
  unfold unpackMK at h
  split at h
  · rename_i h0
    cases h
    have h0 := Bool.and_eq_true_iff.mp h0
    have r3 : 0#2 = p.extractLsb' 30 2 := (beq_iff_eq.mp h0.1).symm
    have r7 : 0#2 = p.extractLsb' 11 2 := (beq_iff_eq.mp h0.2).symm
    have h2 : (p.extractLsb' 42 4 ++ p.extractLsb' 36 6 ++ p.extractLsb' 32 4 ++ p.extractLsb' 30 2 ++ p.extractLsb' 20 10 ++ p.extractLsb' 16 4 ++ p.extractLsb' 13 3 ++ p.extractLsb' 11 2 ++ p.extractLsb' 4 7 ++ p.extractLsb' 0 4 : BitVec 46) = p := by
      have g1 : (p.extractLsb' 42 4 ++ p.extractLsb' 36 6 : BitVec 10) = p.extractLsb' 36 10 := extractLsb'_append_extractLsb'_eq_extractLsb' (by decide)
      have g2 : (p.extractLsb' 36 10 ++ p.extractLsb' 32 4 : BitVec 14) = p.extractLsb' 32 14 := extractLsb'_append_extractLsb'_eq_extractLsb' (by decide)
      have g3 : (p.extractLsb' 32 14 ++ p.extractLsb' 30 2 : BitVec 16) = p.extractLsb' 30 16 := extractLsb'_append_extractLsb'_eq_extractLsb' (by decide)
      have g4 : (p.extractLsb' 30 16 ++ p.extractLsb' 20 10 : BitVec 26) = p.extractLsb' 20 26 := extractLsb'_append_extractLsb'_eq_extractLsb' (by decide)
      have g5 : (p.extractLsb' 20 26 ++ p.extractLsb' 16 4 : BitVec 30) = p.extractLsb' 16 30 := extractLsb'_append_extractLsb'_eq_extractLsb' (by decide)
      have g6 : (p.extractLsb' 16 30 ++ p.extractLsb' 13 3 : BitVec 33) = p.extractLsb' 13 33 := extractLsb'_append_extractLsb'_eq_extractLsb' (by decide)
      have g7 : (p.extractLsb' 13 33 ++ p.extractLsb' 11 2 : BitVec 35) = p.extractLsb' 11 35 := extractLsb'_append_extractLsb'_eq_extractLsb' (by decide)
      have g8 : (p.extractLsb' 11 35 ++ p.extractLsb' 4 7 : BitVec 42) = p.extractLsb' 4 42 := extractLsb'_append_extractLsb'_eq_extractLsb' (by decide)
      have g9 : (p.extractLsb' 4 42 ++ p.extractLsb' 0 4 : BitVec 46) = p.extractLsb' 0 46 := extractLsb'_append_extractLsb'_eq_extractLsb' (by decide)
      exact ((congrArg (fun (x : BitVec 42) => (x ++ p.extractLsb' 0 4 : BitVec 46)) ((congrArg (fun (x : BitVec 35) => (x ++ p.extractLsb' 4 7 : BitVec 42)) ((congrArg (fun (x : BitVec 33) => (x ++ p.extractLsb' 11 2 : BitVec 35)) ((congrArg (fun (x : BitVec 30) => (x ++ p.extractLsb' 13 3 : BitVec 33)) ((congrArg (fun (x : BitVec 26) => (x ++ p.extractLsb' 16 4 : BitVec 30)) ((congrArg (fun (x : BitVec 16) => (x ++ p.extractLsb' 20 10 : BitVec 26)) ((congrArg (fun (x : BitVec 14) => (x ++ p.extractLsb' 30 2 : BitVec 16)) ((congrArg (fun (x : BitVec 10) => (x ++ p.extractLsb' 32 4 : BitVec 14)) (g1)).trans g2)).trans g3)).trans g4)).trans g5)).trans g6)).trans g7)).trans g8)).trans g9).trans extractLsb'_eq_self
    rw [← r3, ← r7] at h2
    exact h2
  · cases h

theorem unpack_packMR (o : MR) : unpackMR (packMR o) = .ok o := by
  have h0 : (packMR o).extractLsb' 42 4 = o.td := (extractLsb'_append_eq_of_le (by decide)).trans ((extractLsb'_append_eq_of_le (by decide)).trans ((extractLsb'_append_eq_of_le (by decide)).trans ((extractLsb'_append_eq_of_le (by decide)).trans ((extractLsb'_append_eq_of_le (by decide)).trans ((extractLsb'_append_eq_of_le (by decide)).trans ((extractLsb'_append_eq_of_le (by decide)).trans (extractLsb'_eq_self)))))))
  have h1 : (packMR o).extractLsb' 36 6 = o.xa := (extractLsb'_append_eq_of_le (by decide)).trans ((extractLsb'_append_eq_of_le (by decide)).trans ((extractLsb'_append_eq_of_le (by decide)).trans ((extractLsb'_append_eq_of_le (by decide)).trans ((extractLsb'_append_eq_of_le (by decide)).trans ((extractLsb'_append_eq_of_le (by decide)).trans (extractLsb'_append_eq_right))))))
  have h2 : (packMR o).extractLsb' 29 7 = o.row := (extractLsb'_append_eq_of_le (by decide)).trans ((extractLsb'_append_eq_of_le (by decide)).trans ((extractLsb'_append_eq_of_le (by decide)).trans ((extractLsb'_append_eq_of_le (by decide)).trans ((extractLsb'_append_eq_of_le (by decide)).trans (extractLsb'_append_eq_right)))))
  have h3 : (packMR o).extractLsb' 22 7 = o.nr := (extractLsb'_append_eq_of_le (by decide)).trans ((extractLsb'_append_eq_of_le (by decide)).trans ((extractLsb'_append_eq_of_le (by decide)).trans ((extractLsb'_append_eq_of_le (by decide)).trans (extractLsb'_append_eq_right))))
  have h4 : (packMR o).extractLsb' 20 2 = o.ty := (extractLsb'_append_eq_of_le (by decide)).trans ((extractLsb'_append_eq_of_le (by decide)).trans ((extractLsb'_append_eq_of_le (by decide)).trans (extractLsb'_append_eq_right)))
  have h5 : (packMR o).extractLsb' 17 3 = o.fs := (extractLsb'_append_eq_of_le (by decide)).trans ((extractLsb'_append_eq_of_le (by decide)).trans (extractLsb'_append_eq_right))
  have h6 : (packMR o).extractLsb' 8 9 = o.sto := (extractLsb'_append_eq_of_le (by decide)).trans (extractLsb'_append_eq_right)
  have h7 : (packMR o).extractLsb' 0 8 = o.str := extractLsb'_append_eq_right
  unfold unpackMR
  rw [h0, h1, h2, h3, h4, h5, h6, h7]

theorem pack_unpackMR (p : BitVec 46) (o : MR) (h : unpackMR p = .ok o) : packMR o = p := by
  unfold unpackMR at h
  cases h
  have h2 : (p.extractLsb' 42 4 ++ p.extractLsb' 36 6 ++ p.extractLsb' 29 7 ++ p.extractLsb' 22 7 ++ p.extractLsb' 20 2 ++ p.extractLsb' 17 3 ++ p.extractLsb' 8 9 ++ p.extractLsb' 0 8 : BitVec 46) = p := by
    have g1 : (p.extractLsb' 42 4 ++ p.extractLsb' 36 6 : BitVec 10) = p.extractLsb' 36 10 := extractLsb'_append_extractLsb'_eq_extractLsb' (by decide)
    have g2 : (p.extractLsb' 36 10 ++ p.extractLsb' 29 7 : BitVec 17) = p.extractLsb' 29 17 := extractLsb'_append_extractLsb'_eq_extractLsb' (by decide)
    have g3 : (p.extractLsb' 29 17 ++ p.extractLsb' 22 7 : BitVec 24) = p.extractLsb' 22 24 := extractLsb'_append_extractLsb'_eq_extractLsb' (by decide)
    have g4 : (p.extractLsb' 22 24 ++ p.extractLsb' 20 2 : BitVec 26) = p.extractLsb' 20 26 := extractLsb'_append_extractLsb'_eq_extractLsb' (by decide)
    have g5 : (p.extractLsb' 20 26 ++ p.extractLsb' 17 3 : BitVec 29) = p.extractLsb' 17 29 := extractLsb'_append_extractLsb'_eq_extractLsb' (by decide)
    have g6 : (p.extractLsb' 17 29 ++ p.extractLsb' 8 9 : BitVec 38) = p.extractLsb' 8 38 := extractLsb'_append_extractLsb'_eq_extractLsb' (by decide)
    have g7 : (p.extractLsb' 8 38 ++ p.extractLsb' 0 8 : BitVec 46) = p.extractLsb' 0 46 := extractLsb'_append_extractLsb'_eq_extractLsb' (by decide)
    exact ((congrArg (fun (x : BitVec 38) => (x ++ p.extractLsb' 0 8 : BitVec 46)) ((congrArg (fun (x : BitVec 29) => (x ++ p.extractLsb' 8 9 : BitVec 38)) ((congrArg (fun (x : BitVec 26) => (x ++ p.extractLsb' 17 3 : BitVec 29)) ((congrArg (fun (x : BitVec 24) => (x ++ p.extractLsb' 20 2 : BitVec 26)) ((congrArg (fun (x : BitVec 17) => (x ++ p.extractLsb' 22 7 : BitVec 24)) ((congrArg (fun (x : BitVec 10) => (x ++ p.extractLsb' 29 7 : BitVec 17)) (g1)).trans g2)).trans g3)).trans g4)).trans g5)).trans g6)).trans g7).trans extractLsb'_eq_self
  exact h2

theorem unpack_packMT (o : MT) : unpackMT (packMT o) = .ok o := by
  have h0 : (packMT o).extractLsb' 42 4 = o.td := (extractLsb'_append_eq_of_le (by decide)).trans ((extractLsb'_append_eq_of_le (by decide)).trans ((extractLsb'_append_eq_of_le (by decide)).trans ((extractLsb'_append_eq_of_le (by decide)).trans (extractLsb'_eq_self))))
  have h1 : (packMT o).extractLsb' 38 4 = o.ta := (extractLsb'_append_eq_of_le (by decide)).trans ((extractLsb'_append_eq_of_le (by decide)).trans ((extractLsb'_append_eq_of_le (by decide)).trans (extractLsb'_append_eq_right)))
  have h2 : (packMT o).extractLsb' 34 4 = o.tb := (extractLsb'_append_eq_of_le (by decide)).trans ((extractLsb'_append_eq_of_le (by decide)).trans (extractLsb'_append_eq_right))
  have h3 : (packMT o).extractLsb' 25 9 = o.src := (extractLsb'_append_eq_of_le (by decide)).trans (extractLsb'_append_eq_right)
  have h4 : (packMT o).extractLsb' 0 25 = 0#25 := extractLsb'_append_eq_right
  unfold unpackMT
  rw [if_pos (by rw [h4]; rfl)]
  rw [h0, h1, h2, h3]

theorem pack_unpackMT (p : BitVec 46) (o : MT) (h : unpackMT p = .ok o) : packMT o = p := by
  unfold unpackMT at h
  split at h
  · rename_i h0
    cases h
    have r4 : 0#25 = p.extractLsb' 0 25 := (beq_iff_eq.mp h0).symm
    have h2 : (p.extractLsb' 42 4 ++ p.extractLsb' 38 4 ++ p.extractLsb' 34 4 ++ p.extractLsb' 25 9 ++ p.extractLsb' 0 25 : BitVec 46) = p := by
      have g1 : (p.extractLsb' 42 4 ++ p.extractLsb' 38 4 : BitVec 8) = p.extractLsb' 38 8 := extractLsb'_append_extractLsb'_eq_extractLsb' (by decide)
      have g2 : (p.extractLsb' 38 8 ++ p.extractLsb' 34 4 : BitVec 12) = p.extractLsb' 34 12 := extractLsb'_append_extractLsb'_eq_extractLsb' (by decide)
      have g3 : (p.extractLsb' 34 12 ++ p.extractLsb' 25 9 : BitVec 21) = p.extractLsb' 25 21 := extractLsb'_append_extractLsb'_eq_extractLsb' (by decide)
      have g4 : (p.extractLsb' 25 21 ++ p.extractLsb' 0 25 : BitVec 46) = p.extractLsb' 0 46 := extractLsb'_append_extractLsb'_eq_extractLsb' (by decide)
      exact ((congrArg (fun (x : BitVec 21) => (x ++ p.extractLsb' 0 25 : BitVec 46)) ((congrArg (fun (x : BitVec 12) => (x ++ p.extractLsb' 25 9 : BitVec 21)) ((congrArg (fun (x : BitVec 8) => (x ++ p.extractLsb' 34 4 : BitVec 12)) (g1)).trans g2)).trans g3)).trans g4).trans extractLsb'_eq_self
    rw [← r4] at h2
    exact h2
  · cases h

theorem unpack_packMV (o : MV) : unpackMV (packMV o) = .ok o := by
  have h0 : (packMV o).extractLsb' 38 8 = o.dst := (extractLsb'_append_eq_of_le (by decide)).trans ((extractLsb'_append_eq_of_le (by decide)).trans (extractLsb'_eq_self))
  have h1 : (packMV o).extractLsb' 34 4 = o.ta := (extractLsb'_append_eq_of_le (by decide)).trans (extractLsb'_append_eq_right)
  have h2 : (packMV o).extractLsb' 0 34 = 0#34 := extractLsb'_append_eq_right
  unfold unpackMV
  rw [if_pos (by rw [h2]; rfl)]
  rw [h0, h1]

theorem pack_unpackMV (p : BitVec 46) (o : MV) (h : unpackMV p = .ok o) : packMV o = p := by
  unfold unpackMV at h
  split at h
  · rename_i h0
    cases h
    have r2 : 0#34 = p.extractLsb' 0 34 := (beq_iff_eq.mp h0).symm
    have h2 : (p.extractLsb' 38 8 ++ p.extractLsb' 34 4 ++ p.extractLsb' 0 34 : BitVec 46) = p := by
      have g1 : (p.extractLsb' 38 8 ++ p.extractLsb' 34 4 : BitVec 12) = p.extractLsb' 34 12 := extractLsb'_append_extractLsb'_eq_extractLsb' (by decide)
      have g2 : (p.extractLsb' 34 12 ++ p.extractLsb' 0 34 : BitVec 46) = p.extractLsb' 0 46 := extractLsb'_append_extractLsb'_eq_extractLsb' (by decide)
      exact ((congrArg (fun (x : BitVec 12) => (x ++ p.extractLsb' 0 34 : BitVec 46)) (g1)).trans g2).trans extractLsb'_eq_self
    rw [← r2] at h2
    exact h2
  · cases h

theorem unpack_packCK (o : CK) : unpackCK (packCK o) = .ok o := by
  have h0 : (packCK o).extractLsb' 31 15 = o.offb := (extractLsb'_append_eq_of_le (by decide)).trans ((extractLsb'_append_eq_of_le (by decide)).trans ((extractLsb'_append_eq_of_le (by decide)).trans ((extractLsb'_append_eq_of_le (by decide)).trans (extractLsb'_eq_self))))
  have h1 : (packCK o).extractLsb' 25 6 = o.xb := (extractLsb'_append_eq_of_le (by decide)).trans ((extractLsb'_append_eq_of_le (by decide)).trans ((extractLsb'_append_eq_of_le (by decide)).trans (extractLsb'_append_eq_right)))
  have h2 : (packCK o).extractLsb' 15 10 = o.step := (extractLsb'_append_eq_of_le (by decide)).trans ((extractLsb'_append_eq_of_le (by decide)).trans (extractLsb'_append_eq_right))
  have h3 : (packCK o).extractLsb' 11 4 = o.sidx := (extractLsb'_append_eq_of_le (by decide)).trans (extractLsb'_append_eq_right)
  have h4 : (packCK o).extractLsb' 0 11 = 0#11 := extractLsb'_append_eq_right
  unfold unpackCK
  rw [if_pos (by rw [h4]; rfl)]
  rw [h0, h1, h2, h3]

theorem pack_unpackCK (p : BitVec 46) (o : CK) (h : unpackCK p = .ok o) : packCK o = p := by
  unfold unpackCK at h
  split at h
  · rename_i h0
    cases h
    have r4 : 0#11 = p.extractLsb' 0 11 := (beq_iff_eq.mp h0).symm
    have h2 : (p.extractLsb' 31 15 ++ p.extractLsb' 25 6 ++ p.extractLsb' 15 10 ++ p.extractLsb' 11 4 ++ p.extractLsb' 0 11 : BitVec 46) = p := by
      have g1 : (p.extractLsb' 31 15 ++ p.extractLsb' 25 6 : BitVec 21) = p.extractLsb' 25 21 := extractLsb'_append_extractLsb'_eq_extractLsb' (by decide)
      have g2 : (p.extractLsb' 25 21 ++ p.extractLsb' 15 10 : BitVec 31) = p.extractLsb' 15 31 := extractLsb'_append_extractLsb'_eq_extractLsb' (by decide)
      have g3 : (p.extractLsb' 15 31 ++ p.extractLsb' 11 4 : BitVec 35) = p.extractLsb' 11 35 := extractLsb'_append_extractLsb'_eq_extractLsb' (by decide)
      have g4 : (p.extractLsb' 11 35 ++ p.extractLsb' 0 11 : BitVec 46) = p.extractLsb' 0 46 := extractLsb'_append_extractLsb'_eq_extractLsb' (by decide)
      exact ((congrArg (fun (x : BitVec 35) => (x ++ p.extractLsb' 0 11 : BitVec 46)) ((congrArg (fun (x : BitVec 31) => (x ++ p.extractLsb' 11 4 : BitVec 35)) ((congrArg (fun (x : BitVec 21) => (x ++ p.extractLsb' 15 10 : BitVec 31)) (g1)).trans g2)).trans g3)).trans g4).trans extractLsb'_eq_self
    rw [← r4] at h2
    exact h2
  · cases h
/-! ### The fields of a slot word -/

theorem word_op (op : Nat) (c : Ctl) (p : BitVec 46) : (word op c p).extractLsb' 56 8 = BitVec.ofNat 8 op :=
  (extractLsb'_append_eq_of_le (by decide)).trans ((extractLsb'_append_eq_of_le (by decide)).trans
    ((extractLsb'_append_eq_of_le (by decide)).trans ((extractLsb'_append_eq_of_le (by decide)).trans extractLsb'_eq_self)))

theorem word_lat (op : Nat) (c : Ctl) (p : BitVec 46) : (word op c p).extractLsb' 52 4 = c.lat :=
  (extractLsb'_append_eq_of_le (by decide)).trans ((extractLsb'_append_eq_of_le (by decide)).trans
    ((extractLsb'_append_eq_of_le (by decide)).trans extractLsb'_append_eq_right))

theorem word_pred (op : Nat) (c : Ctl) (p : BitVec 46) : (word op c p).extractLsb' 47 5 = c.pred :=
  (extractLsb'_append_eq_of_le (by decide)).trans ((extractLsb'_append_eq_of_le (by decide)).trans extractLsb'_append_eq_right)

theorem word_pn (op : Nat) (c : Ctl) (p : BitVec 46) : (word op c p).getLsbD 46 = c.pn := by
  have h : (word op c p).extractLsb' 46 1 = BitVec.ofBool c.pn :=
    (extractLsb'_append_eq_of_le (by decide)).trans extractLsb'_append_eq_right
  have h2 := congrArg (fun (x : BitVec 1) => x.getLsbD 0) h
  simpa using h2

theorem word_operands (op : Nat) (c : Ctl) (p : BitVec 46) : (word op c p).extractLsb' 0 46 = p := extractLsb'_append_eq_right

theorem wordCtl_word (op : Nat) (c : Ctl) (p : BitVec 46) : wordCtl (word op c p) = c := by
  unfold wordCtl
  rw [word_lat, word_pred, word_pn]

/-- A slot word is put together again from its fields (R223). -/
theorem word_fields (w : BitVec 64) : word (w.extractLsb' 56 8).toNat (wordCtl w) (w.extractLsb' 0 46) = w := by
  have hb : BitVec.ofBool (w.getLsbD 46) = w.extractLsb' 46 1 := by
    apply BitVec.eq_of_getLsbD_eq
    intro i hi
    have : i = 0 := by omega
    subst this
    simp
  have h0 : BitVec.ofNat 8 (w.extractLsb' 56 8).toNat = w.extractLsb' 56 8 := BitVec.ofNat_toNat .. |>.trans (by simp)
  have g1 : (w.extractLsb' 56 8 ++ w.extractLsb' 52 4 : BitVec 12) = w.extractLsb' 52 12 :=
    extractLsb'_append_extractLsb'_eq_extractLsb' (by decide)
  have g2 : (w.extractLsb' 52 12 ++ w.extractLsb' 47 5 : BitVec 17) = w.extractLsb' 47 17 :=
    extractLsb'_append_extractLsb'_eq_extractLsb' (by decide)
  have g3 : (w.extractLsb' 47 17 ++ w.extractLsb' 46 1 : BitVec 18) = w.extractLsb' 46 18 :=
    extractLsb'_append_extractLsb'_eq_extractLsb' (by decide)
  have g4 : (w.extractLsb' 46 18 ++ w.extractLsb' 0 46 : BitVec 64) = w.extractLsb' 0 64 :=
    extractLsb'_append_extractLsb'_eq_extractLsb' (by decide)
  unfold word wordCtl
  simp only
  rw [hb, h0, g1, g2, g3, g4]
  exact extractLsb'_eq_self

/-- What decoding a word put together from its fields comes to (R223, R241). -/
theorem decodeSlot_word (k : Cls) (op : Nat) (c : Ctl) (p : BitVec 46) (h0 : op ≠ 0) (h : op < 256) :
    decodeSlot k (word op c p) =
      match (match k with
        | .s => decodeS op c p
        | .v => decodeV op c p
        | .m => decodeM op c p
        | .c => decodeC op c p) with
      | .ok i => if i.wf then .ok i else .error .illFormed
      | .error e => .error e := by
  have h1 : ((word op c p).extractLsb' 56 8).toNat = op := by rw [word_op]; simp; omega
  have e : decodeSlot k (word op c p) =
      match (match k with
        | .s => decodeS ((word op c p).extractLsb' 56 8).toNat (wordCtl (word op c p)) ((word op c p).extractLsb' 0 46)
        | .v => decodeV ((word op c p).extractLsb' 56 8).toNat (wordCtl (word op c p)) ((word op c p).extractLsb' 0 46)
        | .m => decodeM ((word op c p).extractLsb' 56 8).toNat (wordCtl (word op c p)) ((word op c p).extractLsb' 0 46)
        | .c => decodeC ((word op c p).extractLsb' 56 8).toNat (wordCtl (word op c p)) ((word op c p).extractLsb' 0 46)) with
      | .ok i => if i.wf then .ok i else .error .illFormed
      | .error e => .error e := if_neg (by rw [h1]; exact h0)
  rw [e, h1, wordCtl_word, word_operands]

end Sys2Proof
end

