-- ==== Sys2Proof/Laws/Memory.lean ====
section
/-! SUPPORT. Laws of memory: reading after writing, what a write leaves alone, and that every memory operation keeps the canonical form. -/

namespace Sys2Proof.Machine

theorem Memory.read_write (m : Memory) (a b : Nat) (v : Byte) : (m.write a v).read b = if a = b then v else m.read b :=
  FMap.get_set 0 m a b v

theorem Memory.read_write_ne (m : Memory) (a b : Nat) (v : Byte) (h : a ≠ b) : (m.write a v).read b = m.read b := by
  rw [Memory.read_write, if_neg h]

theorem Memory.wf_write (m : Memory) (a : Nat) (v : Byte) (h : m.wf = true) : (m.write a v).wf = true := FMap.wf_set 0 m a v h

theorem Memory.wf_writeLE (m : Memory) (a v n : Nat) (h : m.wf = true) : (m.writeLE a v n).wf = true := by
  induction n generalizing m a v with
  | zero => exact h
  | succ n ih => exact ih _ _ _ (Memory.wf_write m a _ h)

theorem Memory.wf_writeBytes (m : Memory) (a : Nat) (bs : List Byte) (h : m.wf = true) : (m.writeBytes a bs).wf = true := by
  induction bs generalizing m a with
  | nil => exact h
  | cons b bs ih => exact ih _ _ (Memory.wf_write m a b h)

theorem Memory.read_writeLE_out (m : Memory) (a v n b : Nat) (h : b < a ∨ a + n ≤ b) : (m.writeLE a v n).read b = m.read b := by
  induction n generalizing m a v with
  | zero => rfl
  | succ n ih =>
    rw [Memory.writeLE, ih _ _ _ (by omega), Memory.read_write_ne _ _ _ _ (by omega)]

theorem Memory.read_writeBytes_out (m : Memory) (a : Nat) (bs : List Byte) (b : Nat) (h : b < a ∨ a + bs.length ≤ b) :
    (m.writeBytes a bs).read b = m.read b := by
  induction bs generalizing m a with
  | nil => rfl
  | cons x bs ih =>
    simp only [List.length_cons] at h
    rw [Memory.writeBytes, ih _ _ (by omega), Memory.read_write_ne _ _ _ _ (by omega)]

theorem FMap.sorted_filter {α : Type} (p : Nat × α → Bool) (m : FMap α) (h : m.sorted = true) : FMap.sorted (m.filter p) = true := by
  induction m with
  | nil => rfl
  | cons e m ih =>
    obtain ⟨k, v⟩ := e
    rw [FMap.sorted_cons] at h
    by_cases hp : p (k, v)
    · rw [List.filter_cons_of_pos hp]
      exact (FMap.sorted_cons k v (m.filter p)).2 ⟨fun x hx => h.1 x (List.mem_filter.1 hx).1, ih h.2⟩
    · rw [List.filter_cons_of_neg hp]
      exact ih h.2

theorem Memory.wf_filter (p : Host.Cell → Bool) (m : Memory) (h : m.wf = true) : Memory.wf (m.filter p) = true := by
  unfold Memory.wf FMap.wf at *
  simp only [Bool.and_eq_true, List.all_eq_true] at *
  exact ⟨FMap.sorted_filter p m h.1, fun e he => h.2 e (List.mem_filter.1 he).1⟩

theorem Memory.wf_slice (m : Memory) (lo hi : Nat) (h : m.wf = true) : (m.slice lo hi).wf = true := Memory.wf_filter _ m h

theorem Memory.wf_zero (m : Memory) (lo hi : Nat) (h : m.wf = true) : (m.zero lo hi).wf = true := Memory.wf_filter _ m h

/-! ### Writes under a key -/

theorem State.retag_wf (s : State) (t : LineTag) (pa : Nat) (h : s.mem.wf = true) : (s.retag t pa).mem.wf = true := by
  unfold State.retag
  split
  · exact h
  · generalize 64 = n
    exact Memory.wf_writeLE s.mem _ _ n h

theorem State.wrByte_wf (s : State) (t : LineTag) (pa : Nat) (b : Byte) (h : s.mem.wf = true) : (s.wrByte t pa b).mem.wf = true :=
  Memory.wf_write _ _ _ (State.retag_wf s t pa h)

theorem State.wrBytesRaw_wf (s : State) (t : LineTag) (pa : Nat) (bs : List Byte) (h : s.mem.wf = true) :
    (s.wrBytesRaw t pa bs).mem.wf = true := by
  induction bs generalizing s pa with
  | nil => exact h
  | cons b bs ih => exact ih _ _ (State.wrByte_wf s t pa b h)

/-- Claiming a line for a key changes no byte. -/
@[simp] theorem State.claimLines_mem (s : State) (t : LineTag) (pa n : Nat) : (s.claimLines t pa n).mem = s.mem := by
  unfold State.claimLines
  generalize wholeLines pa n = ls
  induction ls generalizing s with
  | nil => rfl
  | cons l ls ih =>
    rw [List.foldl_cons, ih]
    split <;> rfl

theorem State.putBytes_mem (s : State) (t : LineTag) (pa : Nat) (bs : List Byte) :
    (s.putBytes t pa bs).mem = ((s.claimLines t pa bs.length).wrBytesRaw t pa bs).mem := by
  unfold State.putBytes
  simp only
  split <;> rfl

/-- What a settled write leaves out of the L1s and of the record changes no byte. -/
@[simp] theorem State.settled_mem (s : State) (pa n : Nat) : (s.settled pa n).mem = s.mem := by
  unfold State.settled State.dropLines
  dsimp only
  split <;> rfl

@[simp] theorem State.touch_mem (s : State) (pa n : Nat) : (s.touch pa n).mem = s.mem := by
  unfold State.touch
  split <;> rfl

/-- Waking the tasks that sleep at a `WAITA` changes their cores and nothing else (R115). -/
theorem State.wakeLines_eq (s : State) (line : Nat → Bool) : s.wakeLines line = { s with cores := (s.wakeLines line).cores } := by
  unfold State.wakeLines
  split <;> rfl

@[simp] theorem State.wakeLines_mem (s : State) (line : Nat → Bool) : (s.wakeLines line).mem = s.mem := by rw [s.wakeLines_eq]
@[simp] theorem State.wakeLines_lineTag (s : State) (line : Nat → Bool) : (s.wakeLines line).lineTag = s.lineTag := by rw [s.wakeLines_eq]
@[simp] theorem State.wakeLines_hist (s : State) (line : Nat → Bool) : (s.wakeLines line).hist = s.hist := by rw [s.wakeLines_eq]
@[simp] theorem State.wakeLines_csrs (s : State) (line : Nat → Bool) : (s.wakeLines line).csrs = s.csrs := by rw [s.wakeLines_eq]

/-- Where no task sleeps at a line of a write, the write wakes none. -/
theorem State.wakeLines_none {s : State} {line : Nat → Bool} (h : (s.cores.any fun e => e.2.watches line) = false) : s.wakeLines line = s := by
  simp [State.wakeLines, h]

/-- A wake changes what a core waits for, and notes the value that has woken it. -/
theorem Core.wake_eq (s : State) (k : Core) :
    k.wake s = { k with wait := (k.wake s).wait, issue := { k.issue with woken := (k.wake s).issue.woken } } := by
  unfold Core.wake
  split
  · dsimp only
    split <;> rfl
  · rfl

theorem State.wrBytes_mem (s : State) (t : LineTag) (pa : Nat) (bs : List Byte) :
    (s.wrBytes t pa bs).mem = ((s.claimLines t pa bs.length).wrBytesRaw t pa bs).mem := by
  unfold State.wrBytes
  rw [State.wakeLines_mem, State.touch_mem, State.settled_mem, State.putBytes_mem]

/-- Every write of a tier keeps the canonical form. -/
theorem State.putBytes_wf (s : State) (t : LineTag) (pa : Nat) (bs : List Byte) (h : s.mem.wf = true) :
    (s.putBytes t pa bs).mem.wf = true := by
  rw [State.putBytes_mem]
  exact State.wrBytesRaw_wf (s.claimLines t pa bs.length) t pa bs (by simpa using h)

theorem State.wrBytes_wf (s : State) (t : LineTag) (pa : Nat) (bs : List Byte) (h : s.mem.wf = true) :
    (s.wrBytes t pa bs).mem.wf = true := by
  rw [State.wrBytes_mem]
  exact State.wrBytesRaw_wf (s.claimLines t pa bs.length) t pa bs (by simpa using h)

theorem State.wrLE_wf (s : State) (t : LineTag) (pa v n : Nat) (h : s.mem.wf = true) : (s.wrLE t pa v n).mem.wf = true :=
  State.wrBytes_wf s t pa _ h

theorem State.setMcb_wf (s : State) (m v : Nat) (h : s.mem.wf = true) : (s.setMcb m v).mem.wf = true := by
  unfold State.setMcb State.wr
  generalize 256 = n
  exact State.wrLE_wf s .plain (s.mcbPa m) v n h

/-- A write leaves every line alone that it does not touch. -/
theorem State.wrByte_out (s : State) (t : LineTag) (pa : Nat) (b : Byte) (a : Nat) (h : a / 64 ≠ pa / 64) :
    (s.wrByte t pa b).mem.read a = s.mem.read a := by
  have h0 : pa ≠ a := fun e => h (by rw [e])
  show ((s.retag t pa).mem.write pa b).read a = _
  rw [Memory.read_write_ne _ _ _ _ h0]
  unfold State.retag
  split
  · rfl
  · exact Memory.read_writeLE_out s.mem (pa / 64 * 64) (s.lineUnder t pa).toNat 64 a (by omega)

/-- Where a line bears the key already, a write changes its own byte only. -/
theorem State.wrByte_same (s : State) (t : LineTag) (pa : Nat) (b : Byte) (a : Nat) (h : s.lineTagOf pa = tagAt t pa) :
    (s.wrByte t pa b).mem.read a = if pa = a then b else s.mem.read a := by
  show ((s.retag t pa).mem.write pa b).read a = _
  unfold State.retag
  rw [if_pos h, Memory.read_write]

end Sys2Proof.Machine
end

