-- ==== Sys2Proof/Laws/Privileged.lean ====
section
/-! SUPPORT. What the common form of the privileged operations and of the PCFG sub-operations answers (R271, R279). -/

namespace Sys2Proof.Machine

/-- A privileged operation whose work completes. -/
theorem privOp_ok {l : Nat} {c : Ctl} {o : SR} {m : Nat → Nat → Nat → M PrivRes} {s t : State} {st r : Nat} (h : s.enabled c = true)
    (hl : l ≤ s.core.pl.toNat)
    (hm : m (s.getX o.xa.toNat).toNat (s.getX o.xb.toNat).toNat (s.getX o.xc.toNat).toNat (s.endRegion.fullFence 3) = .ok ((st, r), t)) :
    privOp l c o m s = .next ((t.fullFence 3).putX o.xd.toNat (BitVec.ofNat 64 (st + 2 ^ 8 * r)) 1) := by
  unfold privOp
  rw [slotOp_on h]
  exact runSlot_ok (u := ()) (by simp [hl, ordering, hm])

/-- A privileged operation below its level. -/
theorem privOp_low {l : Nat} {c : Ctl} {o : SR} {m : Nat → Nat → Nat → M PrivRes} {s : State} (h : s.enabled c = true)
    (hl : s.core.pl.toNat < l) : privOp l c o m s = .next (s.recFault privilege []) := by
  unfold privOp
  rw [slotOp_on h]
  exact runSlot_fault (by simp [Nat.not_le.2 hl])

/-- A privileged operation that has to wait. -/
theorem privOp_stall {l : Nat} {c : Ctl} {o : SR} {m : Nat → Nat → Nat → M PrivRes} {s : State} {w : Wait} {ps : List Post}
    (h : s.enabled c = true) (hl : l ≤ s.core.pl.toNat)
    (hm : m (s.getX o.xa.toNat).toNat (s.getX o.xb.toNat).toNat (s.getX o.xc.toNat).toNat (s.endRegion.fullFence 3) = .error (.stall w, ps)) :
    privOp l c o m s = .next (s.recStall w (.region :: ps)) := by
  unfold privOp
  rw [slotOp_on h]
  exact runSlot_stall (by simp [hl, ordering, hm])

/-- A PCFG sub-operation whose block can be read and names only its fields. -/
theorem pcfgOp_ok {l : Nat} {fs : List (Nat × Nat)} {c : Ctl} {o : SR} {f : Nat → M PrivRes} {s s1 t : State} {bs : List Byte} {st r : Nat}
    (h : s.enabled c = true) (hl : l ≤ s.core.pl.toNat) (ha : (s.getX o.xa.toNat).toNat < 8) (hb : (s.getX o.xb.toNat).toNat < 2 ^ 52)
    (hc : (s.getX o.xb.toNat).toNat % 64 = 0) (hr : loadBytes (s.getX o.xb.toNat).toNat 64 (s.endRegion.fullFence 3) = .ok (bs, s1))
    (hk : blockOk fs (ofBytes bs) = true) (hf : f (ofBytes bs) s1 = .ok ((st, r), t)) :
    pcfgOp l fs c o f s = .next ((t.fullFence 3).putX o.xd.toNat (BitVec.ofNat 64 (st + 2 ^ 8 * r)) 1) := by
  refine privOp_ok h hl ?_
  have hn : ¬((s.getX o.xa.toNat).toNat ≥ 2 ^ 4 ∨ 8 ≤ bits (s.getX o.xa.toNat).toNat 3 0 ∨ (s.getX o.xb.toNat).toNat ≥ 2 ^ 52 ∨
      (s.getX o.xb.toNat).toNat % 64 ≠ 0) := by
    have : bits (s.getX o.xa.toNat).toNat 3 0 ≤ (s.getX o.xa.toNat).toNat := by
      unfold bits
      exact Nat.le_trans (Nat.mod_le _ _) (Nat.shiftRight_le _ _)
    omega
  rw [M.ite_run, if_neg hn, M.bind_run, hr]
  simp only [hk, if_true]
  exact hf

end Sys2Proof.Machine
end

