-- ==== Sys2Proof/Laws/Regs.lean ====
section
/-! SUPPORT. Laws of the registers and of writes in flight: what a register holds once the bound of a write has come, and what a write
leaves alone. -/

namespace Sys2Proof.Machine

open Sys2Proof.Safety

/-! ### The scratchpad by chunks -/

theorem Memory.readLE_writeLE (m : Memory) (a v n : Nat) : (m.writeLE a v n).readLE a n = v % 256 ^ n := by
  induction n generalizing m a v with
  | zero => simp [Memory.readLE, Nat.mod_one]
  | succ n ih =>
    have h1 : ((m.write a (BitVec.ofNat 8 v)).writeLE (a + 1) (v / 256) n).read a = BitVec.ofNat 8 v := by
      rw [Memory.read_writeLE_out _ _ _ _ _ (by omega), Memory.read_write, if_pos rfl]
    have h2 : (256 : Nat) ^ (n + 1) = 256 * 256 ^ n := by rw [Nat.pow_succ, Nat.mul_comm]
    have h3 : (BitVec.ofNat 8 v).toNat = v % 256 := BitVec.toNat_ofNat v 8
    rw [Memory.writeLE, Memory.readLE, ih, h1, h2, Nat.mod_mul, h3]

theorem Memory.readLE_writeLE_out (m : Memory) (a v n b k : Nat) (h : b + k ≤ a ∨ a + n ≤ b) :
    (m.writeLE a v n).readLE b k = m.readLE b k := by
  induction k generalizing b with
  | zero => rfl
  | succ k ih =>
    rw [Memory.readLE, Memory.readLE, ih (b + 1) (by omega), Memory.read_writeLE_out _ _ _ _ _ (by omega)]

theorem Pad.chunk_setChunk (p : Pad) (c d : Nat) (v : BitVec 512) : (p.setChunk c v).chunk d = if c = d then v else p.chunk d := by
  have e : (p.setChunk c v).mem = p.mem.writeLE (64 * c) v.toNat 64 := rfl
  have hf : (p.setChunk c v).fixed d = if c = d then true else p.fixed d := by
    simp only [Pad.fixed, Pad.setChunk]
    by_cases h : p.epoch = 0
    · simp [h]
    · simp only [h, if_false, FMap.get_insert]
      by_cases hc : c = d <;> simp [hc]
  simp only [Pad.chunk, hf]
  by_cases h : c = d
  · subst h
    rw [if_pos rfl, if_pos rfl, if_pos rfl, e, Memory.readLE_writeLE]
    have h5 : v.toNat < 256 ^ 64 := by
      rw [show (256 : Nat) = 2 ^ 8 from rfl, ← Nat.pow_mul]
      exact v.isLt
    rw [Nat.mod_eq_of_lt h5]
    exact BitVec.ofNat_toNat 512 v |>.trans (BitVec.setWidth_eq v)
  · simp only [h, if_false]
    rw [e, Memory.readLE_writeLE_out _ _ _ _ _ _ (by omega)]
    rfl

/-! ### Landing -/

/-- The bits of a value that a register of a file keeps. -/
def RegFile.trunc (f : RegFile) (w : BitVec 4096) : BitVec 4096 :=
  match f with
  | .x => (w.setWidth 64).setWidth 4096
  | .v => w
  | .p => (w.setWidth 128).setWidth 4096
  | .sp => (w.setWidth 512).setWidth 4096

theorem Core.landed_setLanded (k : Core) (f g : RegFile) (r q : Nat) (w : BitVec 4096) :
    (k.setLanded f r w).landed g q = if f = g ∧ r = q then f.trunc w else k.landed g q := by
  cases f <;> cases g <;>
    simp only [Core.setLanded, Core.landed, RegFile.trunc, spChunk, FMap.get_insert, Pad.chunk_setChunk, reduceCtorEq, false_and,
      if_false, true_and] <;>
    split <;> simp_all

theorem landGo_append (n : Nat) (k : Core) (older es : List Pend) (e : Pend) :
    landGo n k older (es ++ [e]) =
      let r := landGo n k older es
      if e.due ≤ n then (r.1.setLanded e.file e.key (blend e.mask (r.1.landed e.file e.key) e.val), maskOlder e r.2)
      else (r.1, r.2 ++ [e]) := by
  induction es generalizing k older with
  | nil => simp [landGo]
  | cons a es ih =>
    simp only [List.cons_append, landGo]
    split
    · rw [ih]
    · rw [ih]

theorem landGo_pend (n : Nat) (k : Core) (older es : List Pend) (ps : List Pend) :
    (landGo n { k with pend := ps } older es).1 = { (landGo n k older es).1 with pend := ps } := by
  have hset (k : Core) (f : RegFile) (r : Nat) (w : BitVec 4096) :
      ({ k with pend := ps } : Core).setLanded f r w = { k.setLanded f r w with pend := ps } := by
    cases f <;> rfl
  have hland (k : Core) (f : RegFile) (r : Nat) : ({ k with pend := ps } : Core).landed f r = k.landed f r := by
    cases f <;> rfl
  induction es generalizing k older with
  | nil => rfl
  | cons a es ih =>
    simp only [landGo]
    split
    · rw [hland, hset, ih]
    · rw [ih]

/-- The landed value of a register after a write has been put in flight. -/
theorem Core.landed_land_append (k : Core) (e : Pend) (n : Nat) (g : RegFile) (q : Nat) :
    (({ k with pend := k.pend ++ [e] } : Core).land n).landed g q =
      if e.file = g ∧ e.key = q ∧ e.due ≤ n then e.file.trunc (blend e.mask ((k.land n).landed e.file e.key) e.val)
      else (k.land n).landed g q := by
  have hland (k : Core) (ps : List Pend) (f : RegFile) (r : Nat) : ({ k with pend := ps } : Core).landed f r = k.landed f r := by
    cases f <;> rfl
  have hL (k : Core) : ∀ g q, (k.land n).landed g q = (landGo n k [] k.pend).1.landed g q := by
    intro g q
    unfold Core.land
    exact hland _ _ g q
  rw [hL, hL, hL]
  simp only [landGo_append, landGo_pend]
  split
  · rename_i h
    simp only [Core.landed_setLanded, hland]
    by_cases h2 : e.file = g ∧ e.key = q
    · rw [if_pos h2, if_pos ⟨h2.1, h2.2, h⟩]
    · rw [if_neg h2, if_neg (fun h3 => h2 ⟨h3.1, h3.2.1⟩)]
  · rename_i h
    rw [if_neg (fun h3 => h h3.2.2), hland]

/-- A register once a write is in flight. -/
theorem regAt_putPend (s : State) (f g : RegFile) (r q lat n : Nat) (v m : BitVec 4096) :
    regAt (s.putPend f r v m lat) g q n =
      if f = g ∧ r = q ∧ s.core.issueNo + lat ≤ n then f.trunc (blend m (regAt s f r n) v) else regAt s g q n := by
  unfold regAt State.putPend
  rw [State.core_onCore]
  exact Core.landed_land_append s.core ⟨f, r, v, m, s.core.issueNo, s.core.issueNo + lat⟩ n g q

theorem regAt_onIssue (s : State) (f : RegFile) (r n : Nat) (g : Issue → Issue) :
    regAt (s.onIssue g) f r n = regAt s f r n := by
  unfold regAt
  rw [State.core_onIssue]
  have hset (k : Core) (i : Issue) (f : RegFile) (r : Nat) (w : BitVec 4096) :
      ({ k with issue := i } : Core).setLanded f r w = { k.setLanded f r w with issue := i } := by
    cases f <;> rfl
  have hland (k : Core) (i : Issue) (f : RegFile) (r : Nat) : ({ k with issue := i } : Core).landed f r = k.landed f r := by
    cases f <;> rfl
  have hgo (k : Core) (i : Issue) (older es : List Pend) :
      landGo n { k with issue := i } older es = ({ (landGo n k older es).1 with issue := i }, (landGo n k older es).2) := by
    induction es generalizing k older with
    | nil => rfl
    | cons a es ih =>
      simp only [landGo]
      split
      · rw [hland, hset, ih]
      · rw [ih]
  unfold Core.land
  rw [hgo]
  cases f <;> rfl

/-! ### The named writes -/

theorem putPend_eq (s : State) (f : RegFile) (r lat : Nat) (v m : BitVec 4096) :
    s.putPend f r v m lat =
      s.setCoreAt s.cur { s.core with pend := s.core.pend ++ [⟨f, r, v, m, s.core.issueNo, s.core.issueNo + lat⟩] } := rfl

theorem noteDest_eq (s : State) (f : RegFile) (r : Nat) :
    s.noteDest f r =
      s.setCoreAt s.cur { s.core with issue := { s.core.issue with dests := (s.core.issue.slot, f, r) :: s.core.issue.dests } } := rfl

/-- A write put in flight for a destination, and nothing else. -/
theorem onlyReg_put (s : State) (f : RegFile) (r lat : Nat) (v m : BitVec 4096) : OnlyReg s ((s.noteDest f r).putPend f r v m lat) f r := by
  refine ⟨?_, ?_, ?_⟩
  · unfold CoreOnly
    simp only [putPend_eq, noteDest_eq, State.setCoreAt_cur, State.core_setCoreAt, State.setCoreAt_setCoreAt]
  · simp only [putPend_eq, noteDest_eq, State.setCoreAt_cur, State.core_setCoreAt, State.setCoreAt_setCoreAt]
  · intro g q h n
    rw [regAt_putPend, if_neg (fun h2 => h (by rw [h2.1, h2.2.1]))]
    exact regAt_onIssue s g q n _

theorem regAt_put (s : State) (f : RegFile) (r lat n : Nat) (v m : BitVec 4096) (h : s.core.issueNo + lat ≤ n) :
    regAt ((s.noteDest f r).putPend f r v m lat) f r n = f.trunc (blend m (regAt s f r n) v) := by
  have h1 : (s.noteDest f r).core.issueNo = s.core.issueNo := by
    rw [noteDest_eq, State.core_setCoreAt]
  rw [regAt_putPend, if_pos ⟨rfl, rfl, by rw [h1]; exact h⟩]
  exact congrArg (fun b => f.trunc (blend m b v)) (regAt_onIssue s f r n _)

theorem trunc_blend_x (b : BitVec 4096) (v : Dword) :
    (RegFile.x.trunc (blend ((BitVec.allOnes 64).setWidth 4096) b (v.setWidth 4096))).setWidth 64 = v := by
  apply BitVec.eq_of_getLsbD_eq
  intro i hi
  simp only [RegFile.trunc, blend, BitVec.getLsbD_setWidth, BitVec.getLsbD_or, BitVec.getLsbD_and, BitVec.getLsbD_not,
    BitVec.getLsbD_allOnes, hi, show i < 4096 by omega, decide_true, Bool.true_and, Bool.and_true, Bool.not_true, Bool.and_false,
    Bool.false_or]

theorem trunc_blend_p (b : BitVec 4096) (v : Pred) :
    (RegFile.p.trunc (blend ((BitVec.allOnes 128).setWidth 4096) b (v.setWidth 4096))).setWidth 128 = v := by
  apply BitVec.eq_of_getLsbD_eq
  intro i hi
  simp only [RegFile.trunc, blend, BitVec.getLsbD_setWidth, BitVec.getLsbD_or, BitVec.getLsbD_and, BitVec.getLsbD_not,
    BitVec.getLsbD_allOnes, hi, show i < 4096 by omega, decide_true, Bool.true_and, Bool.and_true, Bool.not_true, Bool.and_false,
    Bool.false_or]

/-- All that a write of an x register does. -/
theorem wroteX_putX (s : State) (r : Nat) (v : Dword) (lat : Nat) : WroteX s (s.putX r v lat) r v (s.core.issueNo + lat) := by
  unfold WroteX State.putX
  by_cases h : r = 0
  · simp [h]
  · simp only [h, if_false]
    refine ⟨fun n hn => ?_, onlyReg_put ..⟩
    unfold xAt
    rw [if_neg h, regAt_put s .x r lat n _ _ hn]
    exact trunc_blend_x _ v

/-- All that a write of a whole predicate register does. -/
theorem wroteP_putP (s : State) (r : Nat) (v : Pred) (lat : Nat) : WroteP s (s.putP r v lat) r v (s.core.issueNo + lat) := by
  unfold WroteP State.putP State.putPMask
  by_cases h : r = 0
  · simp [h]
  · simp only [h, if_false]
    refine ⟨fun n hn => ?_, onlyReg_put ..⟩
    unfold pAt
    rw [if_neg h, regAt_put s .p r lat n _ _ hn]
    exact trunc_blend_p _ v

end Sys2Proof.Machine
end

