-- ==== Sys2Proof/Laws/Weak.lean ====
section
/-! SUPPORT. What reads, acquires, releases and fences of a task change: its view and its L1, never a byte of memory, a recorded write or a CSR. -/

namespace Sys2Proof.Machine

/-! ### The parts that an ordering event keeps -/

/-- The memory, the keys of its lines, the writes recorded, the CSRs and the executing core's number are the same. -/
def State.SameStore (s t : State) : Prop :=
  t.mem = s.mem ∧ t.lineTag = s.lineTag ∧ t.hist = s.hist ∧ t.writes = s.writes ∧ t.csrs = s.csrs ∧ t.cxl = s.cxl ∧ t.cur = s.cur

theorem State.SameStore.refl (s : State) : s.SameStore s := ⟨rfl, rfl, rfl, rfl, rfl, rfl, rfl⟩

theorem State.SameStore.trans {s t u : State} (h : s.SameStore t) (k : t.SameStore u) : s.SameStore u := by
  obtain ⟨a, b, c, d, e, f, g⟩ := h
  obtain ⟨a', b', c', d', e', f', g'⟩ := k
  exact ⟨a'.trans a, b'.trans b, c'.trans c, d'.trans d, e'.trans e, f'.trans f, g'.trans g⟩

theorem State.sameStore_setCoreAt (s : State) (n : Nat) (k : Core) : s.SameStore (s.setCoreAt n k) :=
  ⟨rfl, rfl, rfl, rfl, rfl, rfl, rfl⟩

theorem State.sameStore_onCore (s : State) (f : Core → Core) : s.SameStore (s.onCore f) := ⟨rfl, rfl, rfl, rfl, rfl, rfl, rfl⟩

theorem State.sameStore_saw (s : State) (g : Got) : s.SameStore (s.saw g) := by
  unfold State.saw
  split
  · exact .refl s
  · exact s.sameStore_onCore _

theorem State.sameStore_learn (s : State) (ids : List Nat) : s.SameStore (s.learn ids) := by
  unfold State.learn
  dsimp only
  split
  · exact .refl s
  · exact s.sameStore_onCore _

theorem State.sameStore_wrote (s : State) (nt : Bool) (ids : List Nat) : s.SameStore (s.wrote nt ids) := by
  unfold State.wrote
  split
  · exact .refl s
  · exact s.sameStore_onCore _

theorem State.sameStore_drops (ns : List Nat) (f : Core → Core) (s : State) :
    s.SameStore (ns.foldl (fun s n => s.setCoreAt n (f (s.coreAt n))) s) := by
  induction ns generalizing s with
  | nil => exact .refl s
  | cons n ns ih => exact (s.sameStore_setCoreAt n _).trans (ih _)

theorem State.sameStore_dropL1 (s : State) (scope : Nat) : s.SameStore (s.dropL1 scope) := by
  unfold State.dropL1
  generalize (if s.core.fused then 2 else 1 : Nat) = b
  by_cases h : scope ≥ b
  · rw [if_pos h]
    exact sameStore_drops _ (fun k => { k with l1 := [] }) s
  · rw [if_neg h]
    exact .refl s

theorem State.sameStore_freshCxl (s : State) (scope : Nat) : s.SameStore (s.freshCxl scope) := by
  unfold State.freshCxl
  split
  · exact s.sameStore_onCore _
  · exact .refl s

theorem State.sameStore_acquire (s : State) (scope : Nat) (g : Got) : s.SameStore (s.acquire scope g) :=
  ((s.sameStore_dropL1 scope).trans (State.sameStore_learn _ _)).trans (State.sameStore_freshCxl _ _)

theorem State.sameStore_releaseFence (s : State) (scope : Nat) : s.SameStore (s.releaseFence scope) := by
  unfold State.releaseFence
  split
  · exact .refl s
  · exact s.sameStore_onCore _

theorem State.sameStore_fences (s : State) (fs : List Rel) : s.SameStore { s with fences := fs } := ⟨rfl, rfl, rfl, rfl, rfl, rfl, rfl⟩

theorem State.sameStore_acquireFence (s : State) (scope : Nat) : s.SameStore (s.acquireFence scope) := s.sameStore_acquire scope _

theorem State.sameStore_fullFence (s : State) (scope : Nat) : s.SameStore (s.fullFence scope) := by
  unfold State.fullFence
  generalize hg : s.acquireFence scope = a
  have h1 : s.SameStore a := hg ▸ s.sameStore_acquireFence scope
  dsimp only
  generalize hb : a.learn _ = b
  have h2 : a.SameStore b := hb ▸ a.sameStore_learn _
  exact (((h1.trans h2).trans (b.sameStore_releaseFence scope)).trans (State.sameStore_onCore _ _)).trans (State.sameStore_fences _ _)

/-! ### What a task has seen only grows -/

theorem mem_addIds {a b : List Nat} {i : Nat} : i ∈ addIds a b ↔ i ∈ a ∨ i ∈ b := by
  simp only [addIds, List.mem_append, List.mem_filter, Bool.not_eq_true', List.contains_eq_mem, decide_eq_false_iff_not]
  constructor
  · rintro (h | ⟨h, -⟩)
    · exact .inl h
    · exact .inr h
  · intro h
    by_cases k : i ∈ a
    · exact .inl k
    · exact .inr ⟨h.resolve_left k, k⟩

theorem State.mem_alive {s : State} {ids : List Nat} {i : Nat} : i ∈ s.alive ids ↔ i ∈ ids ∧ ∃ w ∈ s.hist, w.id = i := by
  simp [State.alive]

theorem State.seen_learn (s : State) (ids : List Nat) (i : Nat) :
    i ∈ (s.learn ids).core.view.seen ↔ i ∈ s.core.view.seen ∨ i ∈ s.alive ids := by
  unfold State.learn
  dsimp only
  split
  · next h => simp [h]
  · simp [mem_addIds]

theorem State.seen_saw (s : State) (g : Got) (i : Nat) : i ∈ (s.saw g).core.view.seen ↔ i ∈ s.core.view.seen ∨ i ∈ g.ids := by
  unfold State.saw
  split
  · next h => simp [h]
  · simp [mem_addIds]

/-! ### Reads -/

theorem priorBytes_length (ws : List WRec) (pa : Nat) (bs : List Byte) : (priorBytes ws pa bs).length = bs.length := by
  unfold priorBytes
  induction ws generalizing bs with
  | nil => rfl
  | cons w ws ih => simp only [List.foldl_cons]; rw [ih]; simp

/-- Where no write is recorded, a read answers what memory holds. -/
theorem State.readRun_of_hist {s : State} (h : s.hist = []) (seen : List Nat) (who : Nat) (t : LineTag) (pa n : Nat) (bytes : Bool) :
    s.readRun seen who t pa n bytes = ⟨s.rdBytes t pa n, ⟨[], []⟩, []⟩ := by
  simp [State.readRun, h]

end Sys2Proof.Machine
end

