-- ==== Sys2Proof/Tests/Slice0.lean ====
section
/-! SUPPORT. Tests of the model on fixed values: words of the encodings, ill-formed terms, one-step results whose expected values come from
the rules, and for every statement with hypotheses states that meet them. -/

namespace Sys2Proof.Tests

open Sys2Proof Sys2Proof.Machine Sys2Proof.Safety

set_option Elab.async false

/-! ### Words written out from the layouts of R223, R225, R242, R283, R305 and R316 -/

theorem test_decode_s_SR_1 : ([
    (0x0113A148C0000000, .add ⟨1, 7, false⟩ ⟨33, 18, 12, 0⟩),
    (0x02166148C0000000, .sub ⟨1, 12, true⟩ ⟨33, 18, 12, 0⟩),
    (0x0338A148C0000000, .mul ⟨3, 17, false⟩ ⟨33, 18, 12, 0⟩),
    (0x043B6148C0000000, .mulh ⟨3, 22, true⟩ ⟨33, 18, 12, 0⟩),
    (0x053DA148C0000000, .mulhu ⟨3, 27, false⟩ ⟨33, 18, 12, 0⟩),
    (0x06C06148C0000000, .div ⟨12, 0, true⟩ ⟨33, 18, 12, 0⟩),
    (0x07C2A148C0000000, .divu ⟨12, 5, false⟩ ⟨33, 18, 12, 0⟩),
    (0x08C56148C0000000, .rem ⟨12, 10, true⟩ ⟨33, 18, 12, 0⟩),
    (0x09C7A148C0000000, .remu ⟨12, 15, false⟩ ⟨33, 18, 12, 0⟩),
    (0x0A1A6148C0000000, .and ⟨1, 20, true⟩ ⟨33, 18, 12, 0⟩),
    (0x0B1CA148C0000000, .or ⟨1, 25, false⟩ ⟨33, 18, 12, 0⟩),
    (0x0C1F6148C0000000, .xor ⟨1, 30, true⟩ ⟨33, 18, 12, 0⟩),
    (0x0D11A148C0000000, .shl ⟨1, 3, false⟩ ⟨33, 18, 12, 0⟩),
    (0x0E146148C0000000, .shr ⟨1, 8, true⟩ ⟨33, 18, 12, 0⟩),
    (0x0F16A148C0000000, .sra ⟨1, 13, false⟩ ⟨33, 18, 12, 0⟩),
    (0x10196148C0000000, .min ⟨1, 18, true⟩ ⟨33, 18, 12, 0⟩),
    (0x111BA148C0000000, .max ⟨1, 23, false⟩ ⟨33, 18, 12, 0⟩),
    (0x121E6148C0000000, .minu ⟨1, 28, true⟩ ⟨33, 18, 12, 0⟩),
    (0x1310A148C0000000, .maxu ⟨1, 1, false⟩ ⟨33, 18, 12, 0⟩),
    (0x1413614800000000, .clz ⟨1, 6, true⟩ ⟨33, 18, 0, 0⟩),
    (0x1515A14800000000, .ctz ⟨1, 11, false⟩ ⟨33, 18, 0, 0⟩),
    (0x1618614800000000, .popc ⟨1, 16, true⟩ ⟨33, 18, 0, 0⟩),
    (0x6204404800000000, .jmpx ⟨0, 8, true⟩ ⟨0, 18, 0, 0⟩),
    (0x6409404800000000, .callx ⟨0, 18, true⟩ ⟨0, 18, 0, 0⟩)] :
    List (BitVec 64 × Instr)).all (fun e => (decodeSlot .s e.1).toOption == some e.2) = true := by decide +kernel
theorem test_decode_s_SR_2 : ([
    (0x650B800000000000, .ret ⟨0, 23, false⟩ ⟨0, 0, 0, 0⟩),
    (0xD00EA148C0000000, .mcld ⟨0, 29, false⟩ ⟨33, 18, 12, 0⟩),
    (0xD1016148C0000000, .mcst ⟨0, 2, true⟩ ⟨33, 18, 12, 0⟩),
    (0xD203A148C0000000, .kset ⟨0, 7, false⟩ ⟨33, 18, 12, 0⟩),
    (0xD3066148C0000000, .ringf ⟨0, 12, true⟩ ⟨33, 18, 12, 0⟩),
    (0xD408A148C0000000, .dispatchResume ⟨0, 17, false⟩ ⟨33, 18, 12, 0⟩),
    (0xD50B6148C1400000, .sigwaitHalt ⟨0, 22, true⟩ ⟨33, 18, 12, 5⟩),
    (0xD70DA148C1400000, .tlbinvAsid ⟨0, 27, false⟩ ⟨33, 18, 12, 5⟩),
    (0xD800614800000000, .useal ⟨0, 0, true⟩ ⟨33, 18, 0, 0⟩),
    (0xD602A148C0000000, .pcfgCreate ⟨0, 5, false⟩ ⟨33, 18, 12, 0⟩)] :
    List (BitVec 64 × Instr)).all (fun e => (decodeSlot .s e.1).toOption == some e.2) = true := by decide +kernel
theorem test_decode_s_SSel : ([
    (0x171AA148CA800000, .sel ⟨1, 21, false⟩ ⟨33, 18, 12, 21⟩)] :
    List (BitVec 64 × Instr)).all (fun e => (decodeSlot .s e.1).toOption == some e.2) = true := by decide +kernel
theorem test_decode_s_SI : ([
    (0x201D614A5C3F1E7B, .addi ⟨1, 26, true⟩ ⟨33, 18, 0x25c3f1e7b⟩),
    (0x211FA14A5C3F1E7B, .andi ⟨1, 31, false⟩ ⟨33, 18, 0x25c3f1e7b⟩),
    (0x2212614A5C3F1E7B, .ori ⟨1, 4, true⟩ ⟨33, 18, 0x25c3f1e7b⟩),
    (0x2314A14A5C3F1E7B, .xori ⟨1, 9, false⟩ ⟨33, 18, 0x25c3f1e7b⟩),
    (0x241761480000002D, .shli ⟨1, 14, true⟩ ⟨33, 18, 45⟩),
    (0x2519A1480000002D, .shri ⟨1, 19, false⟩ ⟨33, 18, 45⟩),
    (0x261C61480000002D, .srai ⟨1, 24, true⟩ ⟨33, 18, 45⟩),
    (0x6803404A5C3F1E7B, .setlc ⟨0, 6, true⟩ ⟨0, 18, 0x25c3f1e7b⟩),
    (0x6905804A5C3F1E7B, .setsg ⟨0, 11, false⟩ ⟨0, 18, 0x25c3f1e7b⟩)] :
    List (BitVec 64 × Instr)).all (fun e => (decodeSlot .s e.1).toOption == some e.2) = true := by decide +kernel
theorem test_decode_s_SB : ([
    (0x271EA1487A000000, .bfx ⟨1, 29, false⟩ ⟨33, 18, 7, 40⟩),
    (0x281161487A000000, .bfi ⟨1, 2, true⟩ ⟨33, 18, 7, 40⟩)] :
    List (BitVec 64 × Instr)).all (fun e => (decodeSlot .s e.1).toOption == some e.2) = true := by decide +kernel
theorem test_decode_s_SL : ([
    (0x3013A12A5C3F1E7B, .li ⟨1, 7, false⟩ ⟨33, 0x2a5c3f1e7b⟩),
    (0x3116610000ABCDEF, .lih ⟨1, 12, true⟩ ⟨33, 0xabcdef⟩),
    (0x3218A12A5C3F1E7B, .addpc ⟨1, 17, false⟩ ⟨33, 0x2a5c3f1e7b⟩)] :
    List (BitVec 64 × Instr)).all (fun e => (decodeSlot .s e.1).toOption == some e.2) = true := by decide +kernel
theorem test_decode_s_SP : ([
    (0x401B566918000000, .cmp ⟨1, 22, true⟩ ⟨22, 3, 18, 12, 0, 0, 0⟩),
    (0x4810560001548000, .pand ⟨1, 0, true⟩ ⟨22, 0, 0, 0, 21, 9, 0⟩),
    (0x4912960001548000, .por ⟨1, 5, false⟩ ⟨22, 0, 0, 0, 21, 9, 0⟩),
    (0x4A15560001548000, .pxor ⟨1, 10, true⟩ ⟨22, 0, 0, 0, 21, 9, 0⟩),
    (0x4B17960001500000, .pnot ⟨1, 15, false⟩ ⟨22, 0, 0, 0, 21, 0, 0⟩),
    (0x4C1A560918000000, .pset ⟨1, 20, true⟩ ⟨22, 0, 18, 12, 0, 0, 0⟩),
    (0x4D1C960001504000, .pget ⟨1, 25, false⟩ ⟨22, 0, 0, 0, 21, 0, 1⟩)] :
    List (BitVec 64 × Instr)).all (fun e => (decodeSlot .s e.1).toOption == some e.2) = true := by decide +kernel
theorem test_decode_s_SPI : ([
    (0x411D96695C3F1E7B, .cmpi ⟨1, 27, false⟩ ⟨22, 3, 18, 0x5c3f1e7b⟩)] :
    List (BitVec 64 × Instr)).all (fun e => (decodeSlot .s e.1).toOption == some e.2) = true := by decide +kernel
theorem test_decode_s_SJ : ([
    (0x600F56D3B52C8F97, .br ⟨0, 30, true⟩ ⟨0x16d3b52c8f97⟩),
    (0x610196D3B52C8F97, .jmp ⟨0, 3, false⟩ ⟨0x16d3b52c8f97⟩),
    (0x630696D3B52C8F97, .call ⟨0, 13, false⟩ ⟨0x16d3b52c8f97⟩),
    (0x660E56D3B52C8F97, .loopC ⟨0, 28, true⟩ ⟨0x16d3b52c8f97⟩),
    (0x670096D3B52C8F97, .loopM ⟨0, 1, false⟩ ⟨0x16d3b52c8f97⟩)] :
    List (BitVec 64 × Instr)).all (fun e => (decodeSlot .s e.1).toOption == some e.2) = true := by decide +kernel
theorem test_decode_s_ST : ([
    (0x6A08400000000000, .halt ⟨0, 16, true⟩ ⟨0⟩),
    (0xC60980000000BEEF, .trap ⟨0, 19, false⟩ ⟨0xbeef⟩),
    (0xC70C400000000000, .eret ⟨0, 24, true⟩ ⟨0⟩)] :
    List (BitVec 64 × Instr)).all (fun e => (decodeSlot .s e.1).toOption == some e.2) = true := by decide +kernel
theorem test_decode_s_SF : ([
    (0xC00A80A900000000, .fmt ⟨0, 21, false⟩ ⟨0, 5, 18⟩),
    (0xC11D61A000000000, .fmtrd ⟨1, 26, true⟩ ⟨33, 5, 0⟩)] :
    List (BitVec 64 × Instr)).all (fun e => (decodeSlot .s e.1).toOption == some e.2) = true := by decide +kernel
theorem test_decode_s_SC : ([
    (0xC22FA10268400000, .csrr ⟨2, 31, false⟩ ⟨33, 0, 0x9a1⟩),
    (0xC302614A68400000, .csrw ⟨0, 4, true⟩ ⟨33, 18, 0x9a1⟩),
    (0xC404A14A68400000, .csrs ⟨0, 9, false⟩ ⟨33, 18, 0x9a1⟩),
    (0xC507614A68400000, .csrc ⟨0, 14, true⟩ ⟨33, 18, 0x9a1⟩),
    (0xC30FA14B3E000000, .attreqWrite ⟨0, 31, false⟩ ⟨33, 18, 0xcf8⟩),
    (0xC302614819000000, .cxlcapWrite ⟨0, 4, true⟩ ⟨33, 18, 0x64⟩),
    (0xC304A14819400000, .gftbaseWrite ⟨0, 9, false⟩ ⟨33, 18, 0x65⟩),
    (0xC307614818C00000, .fabidWrite ⟨0, 14, true⟩ ⟨33, 18, 99⟩),
    (0xC309A14969400000, .hpasidWrite ⟨0, 19, false⟩ ⟨33, 18, 0x5a5⟩),
    (0xC30C614B3E800000, .eccstatWrite ⟨0, 24, true⟩ ⟨33, 18, 0xcfa⟩),
    (0xC30EA14B3EC00000, .mclogWrite ⟨0, 29, false⟩ ⟨33, 18, 0xcfb⟩),
    (0xC301614B25400000, .watchpointWrite ⟨0, 2, true⟩ ⟨33, 18, 0xc95⟩)] :
    List (BitVec 64 × Instr)).all (fun e => (decodeSlot .s e.1).toOption == some e.2) = true := by decide +kernel
theorem test_decode_s_SM : ([
    (0x80056149752C8F97, .ldb ⟨0, 10, true⟩ ⟨33, 18, 1, 3, 0x152c8f97⟩),
    (0x8107A149752C8F97, .ldbu ⟨0, 15, false⟩ ⟨33, 18, 1, 3, 0x152c8f97⟩),
    (0x820A6149752C8F97, .ldh ⟨0, 20, true⟩ ⟨33, 18, 1, 3, 0x152c8f97⟩),
    (0x830CA149752C8F97, .ldhu ⟨0, 25, false⟩ ⟨33, 18, 1, 3, 0x152c8f97⟩),
    (0x840F6149752C8F97, .ldw ⟨0, 30, true⟩ ⟨33, 18, 1, 3, 0x152c8f97⟩),
    (0x8501A149752C8F97, .ldwu ⟨0, 3, false⟩ ⟨33, 18, 1, 3, 0x152c8f97⟩),
    (0x86046149752C8F97, .ldd ⟨0, 8, true⟩ ⟨33, 18, 1, 3, 0x152c8f97⟩),
    (0x8806A14A752C8F97, .stb ⟨0, 13, false⟩ ⟨33, 18, 2, 3, 0x152c8f97⟩),
    (0x8909614A752C8F97, .sth ⟨0, 18, true⟩ ⟨33, 18, 2, 3, 0x152c8f97⟩),
    (0x8A0BA14A752C8F97, .stw ⟨0, 23, false⟩ ⟨33, 18, 2, 3, 0x152c8f97⟩),
    (0x8B0E614A752C8F97, .std ⟨0, 28, true⟩ ⟨33, 18, 2, 3, 0x152c8f97⟩),
    (0x8C00A148152C8F97, .stnt ⟨0, 1, false⟩ ⟨33, 18, 0, 0, 0x152c8f97⟩)] :
    List (BitVec 64 × Instr)).all (fun e => (decodeSlot .s e.1).toOption == some e.2) = true := by decide +kernel
theorem test_decode_s_SY : ([
    (0x9003400000340000, .fence ⟨0, 6, true⟩ ⟨0, 0, 0, 0, 3, 2, 0⟩),
    (0x9105800000300000, .drainnt ⟨0, 11, false⟩ ⟨0, 0, 0, 0, 3, 0, 0⟩),
    (0xA00FA148C0350000, .waita ⟨0, 31, false⟩ ⟨33, 18, 12, 0, 3, 2, 1⟩),
    (0xA8026148C9800000, .enq ⟨0, 4, true⟩ ⟨33, 18, 12, 19, 0, 0, 0⟩),
    (0xB004800000000000, .exit ⟨0, 9, false⟩ ⟨0, 0, 0, 0, 0, 0, 0⟩),
    (0xB107404800000000, .exitS ⟨0, 14, true⟩ ⟨0, 18, 0, 0, 0, 0, 0⟩),
    (0xB809804800300000, .barArr ⟨0, 19, false⟩ ⟨0, 18, 0, 0, 3, 0, 0⟩),
    (0xB90C400000300000, .barWait ⟨0, 24, true⟩ ⟨0, 0, 0, 0, 3, 0, 0⟩),
    (0xBA0E800009B00000, .barTry ⟨0, 29, false⟩ ⟨0, 0, 0, 19, 3, 0, 0⟩)] :
    List (BitVec 64 × Instr)).all (fun e => (decodeSlot .s e.1).toOption == some e.2) = true := by decide +kernel
theorem test_decode_s_SA : ([
    (0x98086148C016B000, .amo ⟨0, 16, true⟩ ⟨33, 18, 12, 0, 1, 3, 5, 1⟩),
    (0x990AA148C1561000, .cas ⟨0, 21, false⟩ ⟨33, 18, 12, 5, 1, 3, 0, 1⟩),
    (0x9A0D4048C016B000, .red ⟨0, 26, true⟩ ⟨0, 18, 12, 0, 1, 3, 5, 1⟩)] :
    List (BitVec 64 × Instr)).all (fun e => (decodeSlot .s e.1).toOption == some e.2) = true := by decide +kernel
theorem test_decode_v_VR_1 : ([
    (0x01414A8D28500000, .vfadd ⟨4, 2, true⟩ ⟨42, 0x69, 0x85, 0, 0, 0⟩),
    (0x02438A8D28500000, .vfsub ⟨4, 7, false⟩ ⟨42, 0x69, 0x85, 0, 0, 0⟩),
    (0x03464A8D28500000, .vfmul ⟨4, 12, true⟩ ⟨42, 0x69, 0x85, 0, 0, 0⟩),
    (0x04488A8D285C9800, .vfma ⟨4, 17, false⟩ ⟨42, 0x69, 0x85, 0x193, 0, 0⟩),
    (0x054B4A8D285C9800, .vfms ⟨4, 22, true⟩ ⟨42, 0x69, 0x85, 0x193, 0, 0⟩),
    (0x064D8A8D285C9800, .vfnma ⟨4, 27, false⟩ ⟨42, 0x69, 0x85, 0x193, 0, 0⟩),
    (0x07204A8D28500000, .vfmin ⟨2, 0, true⟩ ⟨42, 0x69, 0x85, 0, 0, 0⟩),
    (0x08228A8D28500000, .vfmax ⟨2, 5, false⟩ ⟨42, 0x69, 0x85, 0, 0, 0⟩),
    (0x09254A8D20000000, .vfabs ⟨2, 10, true⟩ ⟨42, 0x69, 0, 0, 0, 0⟩),
    (0x0A278A8D20000000, .vfneg ⟨2, 15, false⟩ ⟨42, 0x69, 0, 0, 0, 0⟩),
    (0x104C8A8D28500000, .vhaddBf16 ⟨4, 25, false⟩ ⟨42, 0x69, 0x85, 0, 0, 0⟩),
    (0x114F4A8D28500000, .vhaddF16 ⟨4, 30, true⟩ ⟨42, 0x69, 0x85, 0, 0, 0⟩),
    (0x12418A8D28500000, .vhmulBf16 ⟨4, 3, false⟩ ⟨42, 0x69, 0x85, 0, 0, 0⟩),
    (0x13444A8D28500000, .vhmulF16 ⟨4, 8, true⟩ ⟨42, 0x69, 0x85, 0, 0, 0⟩),
    (0x14468A8D285C9800, .vhfmaBf16 ⟨4, 13, false⟩ ⟨42, 0x69, 0x85, 0x193, 0, 0⟩),
    (0x15494A8D285C9800, .vhfmaF16 ⟨4, 18, true⟩ ⟨42, 0x69, 0x85, 0x193, 0, 0⟩),
    (0x401B8A8D28500000, .vadd ⟨1, 23, false⟩ ⟨42, 0x69, 0x85, 0, 0, 0⟩),
    (0x411E4A8D28500000, .vsub ⟨1, 28, true⟩ ⟨42, 0x69, 0x85, 0, 0, 0⟩),
    (0x42308A8D28500000, .vmul ⟨3, 1, false⟩ ⟨42, 0x69, 0x85, 0, 0, 0⟩),
    (0x43334A8D28500000, .vmulh ⟨3, 6, true⟩ ⟨42, 0x69, 0x85, 0, 0, 0⟩),
    (0x44158A8D28500000, .vadds ⟨1, 11, false⟩ ⟨42, 0x69, 0x85, 0, 0, 0⟩),
    (0x45184A8D28500000, .vsubs ⟨1, 16, true⟩ ⟨42, 0x69, 0x85, 0, 0, 0⟩),
    (0x461A8A8D28500000, .vmin ⟨1, 21, false⟩ ⟨42, 0x69, 0x85, 0, 0, 0⟩),
    (0x471D4A8D28500000, .vmax ⟨1, 26, true⟩ ⟨42, 0x69, 0x85, 0, 0, 0⟩)] :
    List (BitVec 64 × Instr)).all (fun e => (decodeSlot .v e.1).toOption == some e.2) = true := by decide +kernel
theorem test_decode_v_VR_2 : ([
    (0x481F8A8D28500000, .vminu ⟨1, 31, false⟩ ⟨42, 0x69, 0x85, 0, 0, 0⟩),
    (0x49124A8D28500000, .vmaxu ⟨1, 4, true⟩ ⟨42, 0x69, 0x85, 0, 0, 0⟩),
    (0x4A148A8D28500000, .vand ⟨1, 9, false⟩ ⟨42, 0x69, 0x85, 0, 0, 0⟩),
    (0x4B174A8D28500000, .vor ⟨1, 14, true⟩ ⟨42, 0x69, 0x85, 0, 0, 0⟩),
    (0x4C198A8D28500000, .vxor ⟨1, 19, false⟩ ⟨42, 0x69, 0x85, 0, 0, 0⟩),
    (0x4D1C4A8D28500000, .vshl ⟨1, 24, true⟩ ⟨42, 0x69, 0x85, 0, 0, 0⟩),
    (0x4E1E8A8D28500000, .vshr ⟨1, 29, false⟩ ⟨42, 0x69, 0x85, 0, 0, 0⟩),
    (0x4F114A8D28500000, .vsra ⟨1, 2, true⟩ ⟨42, 0x69, 0x85, 0, 0, 0⟩),
    (0x51164A8D20000000, .vabs ⟨1, 12, true⟩ ⟨42, 0x69, 0, 0, 0, 0⟩),
    (0x60388A8D285C9800, .vdot4SS ⟨3, 17, false⟩ ⟨42, 0x69, 0x85, 0x193, 0, 0⟩),
    (0x613B4A8D285C9800, .vdot4SU ⟨3, 22, true⟩ ⟨42, 0x69, 0x85, 0x193, 0, 0⟩),
    (0x623D8A8D285C9800, .vdot4US ⟨3, 27, false⟩ ⟨42, 0x69, 0x85, 0x193, 0, 0⟩),
    (0x63304A8D285C9800, .vdot4UU ⟨3, 0, true⟩ ⟨42, 0x69, 0x85, 0x193, 0, 0⟩),
    (0x64328A8D285C9800, .vdot4sSS ⟨3, 5, false⟩ ⟨42, 0x69, 0x85, 0x193, 0, 0⟩),
    (0x65354A8D285C9800, .vdot4sSU ⟨3, 10, true⟩ ⟨42, 0x69, 0x85, 0x193, 0, 0⟩),
    (0x66378A8D285C9800, .vdot4sUS ⟨3, 15, false⟩ ⟨42, 0x69, 0x85, 0x193, 0, 0⟩),
    (0x673A4A8D285C9800, .vdot4sUU ⟨3, 20, true⟩ ⟨42, 0x69, 0x85, 0x193, 0, 0⟩),
    (0x683C8A8D285C9800, .vdot8SS ⟨3, 25, false⟩ ⟨42, 0x69, 0x85, 0x193, 0, 0⟩),
    (0x693F4A8D285C9800, .vdot8SU ⟨3, 30, true⟩ ⟨42, 0x69, 0x85, 0x193, 0, 0⟩),
    (0x6A318A8D285C9800, .vdot8US ⟨3, 3, false⟩ ⟨42, 0x69, 0x85, 0x193, 0, 0⟩),
    (0x6B344A8D285C9800, .vdot8UU ⟨3, 8, true⟩ ⟨42, 0x69, 0x85, 0x193, 0, 0⟩),
    (0x6C368A8D285C9800, .vdot8sSS ⟨3, 13, false⟩ ⟨42, 0x69, 0x85, 0x193, 0, 0⟩),
    (0x6D394A8D285C9800, .vdot8sSU ⟨3, 18, true⟩ ⟨42, 0x69, 0x85, 0x193, 0, 0⟩),
    (0x6E3B8A8D285C9800, .vdot8sUS ⟨3, 23, false⟩ ⟨42, 0x69, 0x85, 0x193, 0, 0⟩)] :
    List (BitVec 64 × Instr)).all (fun e => (decodeSlot .v e.1).toOption == some e.2) = true := by decide +kernel
theorem test_decode_v_VR_3 : ([
    (0x6F3E4A8D285C9800, .vdot8sUU ⟨3, 28, true⟩ ⟨42, 0x69, 0x85, 0x193, 0, 0⟩),
    (0x80808A8D20000000, .vexp2 ⟨8, 1, false⟩ ⟨42, 0x69, 0, 0, 0, 0⟩),
    (0x81834A8D20000000, .vlog2 ⟨8, 6, true⟩ ⟨42, 0x69, 0, 0, 0, 0⟩),
    (0x82858A8D20000000, .vrcp ⟨8, 11, false⟩ ⟨42, 0x69, 0, 0, 0, 0⟩),
    (0x83884A8D20000000, .vrsq ⟨8, 16, true⟩ ⟨42, 0x69, 0, 0, 0, 0⟩),
    (0x84AA8A8D20000000, .vtanh ⟨10, 21, false⟩ ⟨42, 0x69, 0, 0, 0, 0⟩),
    (0x85AD4A8D20000000, .vsigm ⟨10, 26, true⟩ ⟨42, 0x69, 0, 0, 0, 0⟩),
    (0xA0424A8D20000000, .vcvtF32Int ⟨4, 4, true⟩ ⟨42, 0x69, 0, 0, 0, 0⟩),
    (0xA1448A8D20000000, .vcvtF32Uint ⟨4, 9, false⟩ ⟨42, 0x69, 0, 0, 0, 0⟩),
    (0xA2474A8D20000000, .vcvtIntF32 ⟨4, 14, true⟩ ⟨42, 0x69, 0, 0, 0, 0⟩),
    (0xA3498A8D20000000, .vcvtIntF32Rtz ⟨4, 19, false⟩ ⟨42, 0x69, 0, 0, 0, 0⟩),
    (0xA44C4A8D20000000, .vcvtUintF32 ⟨4, 24, true⟩ ⟨42, 0x69, 0, 0, 0, 0⟩),
    (0xA54E8A8D20000000, .vcvtUintF32Rtz ⟨4, 29, false⟩ ⟨42, 0x69, 0, 0, 0, 0⟩),
    (0xA6414A8D28500000, .vcvtBf16F32 ⟨4, 2, true⟩ ⟨42, 0x69, 0x85, 0, 0, 0⟩),
    (0xA7438A8D28500000, .vcvtBf16F32Rtz ⟨4, 7, false⟩ ⟨42, 0x69, 0x85, 0, 0, 0⟩),
    (0xA8464A8D28500000, .vcvtF16F32 ⟨4, 12, true⟩ ⟨42, 0x69, 0x85, 0, 0, 0⟩),
    (0xA9488A8D28500000, .vcvtF16F32Rtz ⟨4, 17, false⟩ ⟨42, 0x69, 0x85, 0, 0, 0⟩),
    (0xAA2B4A8D20000001, .vcvtF32Bf16 ⟨2, 22, true⟩ ⟨42, 0x69, 0, 0, 0, 1⟩),
    (0xAB2D8A8D20000001, .vcvtF32F16 ⟨2, 27, false⟩ ⟨42, 0x69, 0, 0, 0, 1⟩),
    (0xB0404A8D28500600, .vqnt ⟨4, 0, true⟩ ⟨42, 0x69, 0x85, 0, 6, 0⟩),
    (0xB1428A8D28500600, .vdqnt ⟨4, 5, false⟩ ⟨42, 0x69, 0x85, 0, 6, 0⟩),
    (0xB2454A8D20000600, .vscl ⟨4, 10, true⟩ ⟨42, 0x69, 0, 0, 6, 0⟩),
    (0xC0178A8D28500015, .vsel ⟨1, 15, false⟩ ⟨42, 0x69, 0x85, 0, 0, 21⟩),
    (0xC11A4A8D20000000, .vmov ⟨1, 20, true⟩ ⟨42, 0x69, 0, 0, 0, 0⟩)] :
    List (BitVec 64 × Instr)).all (fun e => (decodeSlot .v e.1).toOption == some e.2) = true := by decide +kernel
theorem test_decode_v_VR_4 : ([
    (0xC32F4A8D2000000B, .vbcast ⟨2, 30, true⟩ ⟨42, 0x69, 0, 0, 0, 11⟩),
    (0xC5144A8D2000006D, .vins ⟨1, 8, true⟩ ⟨42, 0x69, 0, 0, 0, 0x6d⟩),
    (0xC6268A8D28500000, .vperm ⟨2, 13, false⟩ ⟨42, 0x69, 0x85, 0, 0, 0⟩),
    (0xC7694A8D28500000, .vxcl ⟨6, 18, true⟩ ⟨42, 0x69, 0x85, 0, 0, 0⟩),
    (0xC76B8A8D20000096, .vxclX ⟨6, 23, false⟩ ⟨42, 0x69, 0, 0, 0, 0x96⟩)] :
    List (BitVec 64 × Instr)).all (fun e => (decodeSlot .v e.1).toOption == some e.2) = true := by decide +kernel
theorem test_decode_v_VP : ([
    (0x0B2A44CD28500003, .vfcmp ⟨2, 20, true⟩ ⟨19, 0x69, 0x85, 3⟩),
    (0x501384CD28500003, .vcmp ⟨1, 7, false⟩ ⟨19, 0x69, 0x85, 3⟩)] :
    List (BitVec 64 × Instr)).all (fun e => (decodeSlot .v e.1).toOption == some e.2) = true := by decide +kernel
theorem test_decode_v_VK : ([
    (0x906F8AAC00000000, .vrand ⟨6, 31, false⟩ ⟨42, 44⟩)] :
    List (BitVec 64 × Instr)).all (fun e => (decodeSlot .v e.1).toOption == some e.2) = true := by decide +kernel
theorem test_decode_v_VI : ([
    (0xC21C8A805C3F1E7B, .vmovi ⟨1, 25, false⟩ ⟨42, 0x5c3f1e7b⟩)] :
    List (BitVec 64 × Instr)).all (fun e => (decodeSlot .v e.1).toOption == some e.2) = true := by decide +kernel
theorem test_decode_v_VX : ([
    (0xC431A10D20000055, .vextr ⟨3, 3, false⟩ ⟨33, 0x69, 85⟩)] :
    List (BitVec 64 × Instr)).all (fun e => (decodeSlot .v e.1).toOption == some e.2) = true := by decide +kernel
theorem test_decode_v_VM : ([
    (0xE04E4A9696AD332C, .vld ⟨4, 28, true⟩ ⟨84, 0x5a5a, 0x2d3, 12, 2, 6⟩),
    (0xE1208D3696AD332C, .vst ⟨2, 1, false⟩ ⟨0x69, 0x5a5a, 0x2d3, 12, 2, 6⟩)] :
    List (BitVec 64 × Instr)).all (fun e => (decodeSlot .v e.1).toOption == some e.2) = true := by decide +kernel
theorem test_decode_v_VG : ([
    (0xE2C34A815B4B4653, .vgath ⟨12, 6, true⟩ ⟨84, 21, 0x5a5a, 12, 83⟩),
    (0xE3A58D215B4B4653, .vscat ⟨10, 11, false⟩ ⟨0x69, 21, 0x5a5a, 12, 83⟩)] :
    List (BitVec 64 × Instr)).all (fun e => (decodeSlot .v e.1).toOption == some e.2) = true := by decide +kernel
theorem test_decode_m_MX : ([
    (0x0108652316D578C9, .mma ⟨0, 16, true⟩ ⟨9, 18, 12, 0x16d, 5, 3, 6, 0, 12, 9⟩),
    (0x0502652016D560C0, .mred ⟨0, 4, true⟩ ⟨9, 18, 0, 0x16d, 5, 3, 0, 0, 12, 0⟩),
    (0x0604A52016D560C0, .mscan ⟨0, 9, false⟩ ⟨9, 18, 0, 0x16d, 5, 3, 0, 0, 12, 0⟩)] :
    List (BitVec 64 × Instr)).all (fun e => (decodeSlot .m e.1).toOption == some e.2) = true := by decide +kernel
theorem test_decode_m_MS : ([
    (0x020AA12316D57AB9, .mmas ⟨0, 21, false⟩ ⟨8, 18, 12, 0x16d, 5, 3, 6, 2, 11, 2, 1⟩)] :
    List (BitVec 64 × Instr)).all (fun e => (decodeSlot .m e.1).toOption == some e.2) = true := by decide +kernel
theorem test_decode_m_MK : ([
    (0x030D652D16D564CC, .mmat ⟨0, 26, true⟩ ⟨9, 18, 13, 0x16d, 5, 3, 76, 12⟩),
    (0x040FA52D16D364CC, .mmav ⟨0, 31, false⟩ ⟨9, 18, 13, 0x16d, 3, 3, 76, 12⟩)] :
    List (BitVec 64 × Instr)).all (fun e => (decodeSlot .m e.1).toOption == some e.2) = true := by decide +kernel
theorem test_decode_m_MR : ([
    (0x0807652CB33B55A6, .mld ⟨0, 14, true⟩ ⟨9, 18, 0x65, 76, 3, 5, 0x155, 0xa6⟩),
    (0x0909A52CB33B55A6, .mst ⟨0, 19, false⟩ ⟨9, 18, 0x65, 76, 3, 5, 0x155, 0xa6⟩)] :
    List (BitVec 64 × Instr)).all (fun e => (decodeSlot .m e.1).toOption == some e.2) = true := by decide +kernel
theorem test_decode_m_MT : ([
    (0x100C640000000000, .mzero ⟨0, 24, true⟩ ⟨9, 0, 0, 0⟩),
    (0x110EA5AC00000000, .madd ⟨0, 29, false⟩ ⟨9, 6, 11, 0⟩),
    (0x1201658000000000, .mcopy ⟨0, 2, true⟩ ⟨9, 6, 0, 0⟩),
    (0x1303A58000000000, .mxpose ⟨0, 7, false⟩ ⟨9, 6, 0, 0⟩),
    (0x1406640354000000, .mscale ⟨0, 12, true⟩ ⟨9, 0, 0, 0x1aa⟩)] :
    List (BitVec 64 × Instr)).all (fun e => (decodeSlot .m e.1).toOption == some e.2) = true := by decide +kernel
theorem test_decode_m_MV : ([
    (0x18088A9800000000, .mrmax ⟨0, 17, false⟩ ⟨42, 6⟩)] :
    List (BitVec 64 × Instr)).all (fun e => (decodeSlot .m e.1).toOption == some e.2) = true := by decide +kernel
theorem test_decode_c_CK : ([
    (0x400B6D2D19698000, .kvnew ⟨0, 22, true⟩ ⟨0x5a5a, 12, 0x2d3, 0⟩),
    (0x410DAD2D19698000, .kvapp ⟨0, 27, false⟩ ⟨0x5a5a, 12, 0x2d3, 0⟩),
    (0x42006D2D19698000, .kvtrunc ⟨0, 0, true⟩ ⟨0x5a5a, 12, 0x2d3, 0⟩),
    (0x4302AD2D19698000, .kvfork ⟨0, 5, false⟩ ⟨0x5a5a, 12, 0x2d3, 0⟩),
    (0x44056D2D19698000, .kvfree ⟨0, 10, true⟩ ⟨0x5a5a, 12, 0x2d3, 0⟩),
    (0x4507AD2D19698000, .kvrackRack ⟨0, 15, false⟩ ⟨0x5a5a, 12, 0x2d3, 0⟩),
    (0x460A6D2D1969E800, .kvbind ⟨0, 20, true⟩ ⟨0x5a5a, 12, 0x2d3, 13⟩),
    (0x470CAD2D19698000, .kvqry ⟨0, 25, false⟩ ⟨0x5a5a, 12, 0x2d3, 0⟩),
    (0x010F6D2D1969E800, .sbind ⟨0, 30, true⟩ ⟨0x5a5a, 12, 0x2d3, 13⟩),
    (0x0201AD2D1969E800, .sbindg ⟨0, 3, false⟩ ⟨0x5a5a, 12, 0x2d3, 13⟩),
    (0x0304400000006800, .sunbind ⟨0, 8, true⟩ ⟨0, 0, 0, 13⟩),
    (0x0406AD2D1969E800, .sflush ⟨0, 13, false⟩ ⟨0x5a5a, 12, 0x2d3, 13⟩),
    (0x08096D2D19698000, .cpy ⟨0, 18, true⟩ ⟨0x5a5a, 12, 0x2d3, 0⟩),
    (0x090BAD2D19698000, .cpy2d ⟨0, 23, false⟩ ⟨0x5a5a, 12, 0x2d3, 0⟩),
    (0x0A0E6D2D19698000, .mcstMulticast ⟨0, 28, true⟩ ⟨0x5a5a, 12, 0x2d3, 0⟩),
    (0x1000AD2D19698000, .spmap ⟨0, 1, false⟩ ⟨0x5a5a, 12, 0x2d3, 0⟩),
    (0x11036D2D19698000, .spsync ⟨0, 6, true⟩ ⟨0x5a5a, 12, 0x2d3, 0⟩),
    (0x1205AD2D19698000, .spinv ⟨0, 11, false⟩ ⟨0x5a5a, 12, 0x2d3, 0⟩),
    (0x60086D2D19698000, .migrMove ⟨0, 16, true⟩ ⟨0x5a5a, 12, 0x2d3, 0⟩),
    (0x610AAD2D19698000, .cred ⟨0, 21, false⟩ ⟨0x5a5a, 12, 0x2d3, 0⟩),
    (0x620D6D2D19698000, .cbcast ⟨0, 26, true⟩ ⟨0x5a5a, 12, 0x2d3, 0⟩)] :
    List (BitVec 64 × Instr)).all (fun e => (decodeSlot .c e.1).toOption == some e.2) = true := by decide +kernel

/-! ### Small states -/

/-- A running core at PL2 with a few registers. -/
def core : Core := { Core.reset with run := .running, pl := 2, part := 16, x := [(1, 5), (2, 0x8000000000000000), (3, 0xFFFFFFFFFFFFFFFF), (4, 64), (5, 16)] }
/-- The package with that core on core 0, which executes. -/
def small : State := { State.reset.setCoreAt 0 core with cur := 0 }
/-- The root at PL2 on core 255 with a page of 64 KiB at VA 0 that it may fetch, read and write; what a test changes of its core. -/
def root (f : Core → Core) : State := { (State.reset.withFetchWord 64 0).onCore id with cur := 255 }.onCore f
/-- Registers of the root. -/
def regs (xs : FMap Dword) (k : Core) : Core := { k with x := xs }
/-- A computation completes, and its result and state meet a condition. -/
def okAnd {α : Type} (r : Except (Abort × List Post) (α × State)) (p : α → State → Bool) : Bool :=
  match r with
  | .ok (a, t) => p a t
  | .error _ => false
/-- An outcome is a next state that meets a condition. -/
def nextAnd (o : Host.Outcome State Fault Refusal) (p : State → Bool) : Bool :=
  match o with
  | .next t => p t
  | _ => false
def on : Ctl := ⟨1, 0, false⟩

/-! ### The hypotheses of the statements hold somewhere -/

theorem witness_DecodeOfEncode : (Instr.add on ⟨3, 4, 5, 0⟩).wf = true ∧ (Instr.add on ⟨3, 4, 5, 0⟩).cls = some .s ∧
    (Instr.vld ⟨15, 31, true⟩ ⟨0x054, 0x7FFF, 0x3FF, 63, 3, 7⟩).wf = true ∧
    (Instr.kvbind ⟨0, 31, true⟩ ⟨0x7FFF, 63, 0x3FF, 15⟩).wf = true ∧ (Instr.mzero ⟨0, 0, false⟩ ⟨11, 0, 0, 0⟩).wf = true := by decide
theorem witness_EncodeOfDecode : decodeSlot .s 0x0113A148C0000000 = .ok (.add ⟨1, 7, false⟩ ⟨33, 18, 12, 0⟩) := by rfl
theorem witness_HeaderRoundTrip : decodeHeader 0x003FFFFF = .ok ⟨0x3F, 0xFF, true, true, 0x3F⟩ ∧ decodeHeader 0x00010000 = .error .header ∧
    decodeHeader 0x00400000 = .error .header := by refine ⟨rfl, rfl, rfl⟩
/-- Enabled under p0, under a stage gate of 0 complemented; not enabled under either the other way. -/
theorem witness_enabled : small.enabled on = true ∧ small.enabled ⟨15, 31, true⟩ = true ∧ small.enabled ⟨1, 24, false⟩ = false ∧
    small.enabled ⟨1, 0, true⟩ = false := by decide +kernel
theorem witness_ScalarBinary : small.enabled on = true := witness_enabled.1
theorem witness_ScalarDivide : small.enabled on = true ∧ small.getX 0 = 0 ∧ small.getX 2 = 0x8000000000000000 ∧
    small.getX 3 = 0xFFFFFFFFFFFFFFFF ∧ small.getX 1 ≠ 0 := by decide +kernel
theorem witness_ScalarBits : small.enabled on = true ∧ (63 : BitVec 6).toNat + (0 : BitVec 6).toNat ≤ 63 ∧
    (0 : BitVec 6).toNat + (63 : BitVec 6).toNat ≤ 63 := by decide +kernel
theorem witness_ScalarImmediate : small.enabled on = true := witness_enabled.1
theorem witness_PredicateResults : small.enabled on = true ∧ (5 : BitVec 3).toNat ≤ 5 ∧ 6 ≤ (7 : BitVec 3).toNat ∧
    (decide (small.getX 1 = small.getX 0)) = false := by decide +kernel
theorem witness_DisabledDoesNothing : small.enabled ⟨1, 24, false⟩ = false := witness_enabled.2.2.1
/-- A write to x1 in flight, before its issue, inside its window, and at its bound. -/
def flying (now : Nat) : State := small.onCore fun k => { k with issueNo := now, pend := [⟨.x, 1, 9, (BitVec.allOnes 64).setWidth 4096, 4, 8⟩] }
theorem witness_LatencyWindow : (flying 4).core.flight .x 1 = [⟨.x, 1, 9, (BitVec.allOnes 64).setWidth 4096, 4, 8⟩] ∧
    (flying 7).core.flight .x 1 = (flying 4).core.flight .x 1 ∧ (flying 8).core.flight .x 1 = (flying 4).core.flight .x 1 := by decide +kernel
theorem witness_ReadAfterBound : (∀ e ∈ (flying 8).core.flight .x 1, e.due ≤ (flying 8).core.issueNo) ∧ small.core.flight .p 23 = [] ∧
    small.core.flight .v (small.core.physV 63) = [] := by decide +kernel
theorem witness_ControlTransfers : small.enabled on = true ∧ (small.getX 4).toNat % 4 = 0 ∧ (small.getX 4).toNat < 2 ^ 52 ∧
    (small.getX 1).toNat % 4 ≠ 0 ∧ ¬(small.getX 2).toNat < 2 ^ 52 ∧ (small.getX 63).toNat % 4 = 0 := by decide +kernel
theorem witness_Loops : small.core.lc = 0 ∧ (small.onCore fun k => { k with lc := 1 }).core.lc ≠ 0 ∧ small.enabled on = true := by decide +kernel
/-- v8 to v15 rotate, from position 3. -/
def turning : Core := { core with rwin := BitVec.ofNat 19 (8 + 2 ^ 6 * 8 + 2 ^ 13 * 3) }
theorem witness_WindowRotation : rwinOk turning.rwin.toNat = true ∧ turning.rwFirst = 8 ∧ turning.rwSize = 8 ∧ rwinOk core.rwin.toNat = true ∧
    core.rwSize = 0 := by decide +kernel
theorem witness_EmptySlots : small.enabled on = true := witness_enabled.1
/-- `ADD x3, x4, x5` with LAT 1 in slot S of a bundle of one word. -/
def oneAdd : State := State.reset.withFetchWord 96 (1 + 2 ^ 32 * 0x01100310_50000000)
theorem witness_StepRow : ((5 : Dword).toNat % 4 = 1) ∧ ((64 : Dword).toNat % 4 = 0) ∧ (small.getX 1).toNat % 16 = 5 ∧
    okAnd (readDesc (root (regs [])|>.ckCursor ⟨0, 0, 0, 0⟩)) (fun d _ => d / 2 ^ 116 % 2 == 0) = true := by decide +kernel
theorem witness_StepEvent : (Instr.frameBoundary).cls = none ∧ { oneAdd with turns := [.event .frameBoundary] }.turns = [.event .frameBoundary] ∧
    oneAdd.boot.inReset = false ∧ State.reset.boot.inReset = true ∧
    (∀ e ∈ ([.thermtrip, .perstAssert] : List Instr), { State.reset with turns := [.event e] }.turns = [.event e]) := by decide +kernel
theorem witness_HeldInReset : State.reset.boot.inReset = true ∧ State.reset.turns = [] ∧
    { State.reset with turns := [.core 255] }.boot.inReset = true := by decide +kernel
theorem witness_BootOkKept : State.reset.boot.inReset = true ∧ State.reset.boot.step ≤ 5 ∧ State.reset.boot.fail = false ∧ State.reset.boot.code = 0 ∧
    nextAnd (step State.reset) (fun _ => true) = true := by decide +kernel

/-- A PL2 core of the root, task of MC 0, with page 0 of ASID 0 mapped to the frame at 0x400000220000 for every access. -/
def mapped (f : Core → Core) : State :=
  { (State.reset.setCoreAt 0 (f core)) with
      cur := 0, mcs := [(0, true)], csrs := [(0x050, 0x400000000000), (0x080, 0x8000000000000000)],
      boot := { State.reset.boot with inReset := false },
      mem := [(0x400000000000, 2), (0x400000000001, 16), (0x40000000000A, 0x20), (0x40000000000D, 0x40),
        (0x400000200000, 0x01), (0x400000200001, 0x80), (0x400000200002, 0x20), (0x400000200005, 0x40),
        (0x400000208000, 0x01), (0x400000208002, 0x21), (0x400000208005, 0x40),
        (0x400000210000, 0x67), (0x400000210002, 0x22), (0x400000210005, 0x40),
        (0x400000220007, 0x80), (0x400000220008, 0xFF)] }
theorem witness_mapped : okAnd (xlateTask 0 .write (mapped id)) (fun l _ => decide (l = .dev 0x400000220000 .plain)) = true := by decide +kernel
/-- `mapped` with other registers. -/
def with_ (xs : FMap Dword) : State := mapped fun k => { k with x := xs }
/-- A computation ends early with a cause. -/
def errAnd {α : Type} (r : Except (Abort × List Post) (α × State)) (p : Abort → Bool) : Bool :=
  match r with
  | .ok _ => false
  | .error (a, _) => p a
/-- A stall. -/
def isStall : Abort → Bool
  | .stall _ => true
  | _ => false
/-- A core about to run `ADD x3, x4, x5` in slot S of a bundle of one word at VA 0x10. -/
def coded : State :=
  let s := mapped fun k => { k with pc := 0x10 }
  { s with
    mem := s.mem.writeLE 0x400000220010 (1 + 2 ^ 32 * 0x01100310_50000000) 12, turns := [.core 0], boot := { s.boot with step := 5 } }
theorem witness_StepRunsDecoded : let s0 := { coded with tick := 1, turns := [], cur := 0, cycle := 1 }
    coded.turns = [.core 0] ∧ coded.boot.inReset = false ∧ (coded.coreAt 0).run = .running ∧ s0.core.late = [] ∧ s0.core.due.isNone = true ∧
    okAnd (fetchBundle s0) (fun r s1 => decide (r.1.pm = 1) && (s1.stopPoint r.1).isNone && (s1.enterBundle r.1).core.slots.all (fun sl => !sl.armed) &&
      (decodeSlot .s (BitVec.ofNat 64 (r.2 / 2 ^ 32))).toOption.isSome && decide (r.1.rpt = 0)) = true := by decide +kernel
/-- Slots S and V0 with a word in the bundle; V1 armed by an earlier one; and a `FENCE` beside an armed slot. -/
def slotted : State :=
  let s := mapped fun k => { k with pc := 0x10, slots := [.off, ⟨true, encode (.vfadd ⟨4, 0, false⟩ ⟨1, 2, 3, 0, 0, 0⟩), []⟩, .off, .off, .off] }
  { s with mem := s.mem.writeLE 0x400000220010 (3 + 2 ^ 32 * (encode (.fence ⟨0, 0, false⟩ ⟨0, 0, 0, 0, 0, 1, 0⟩)).toNat +
      2 ^ 96 * (encode (.vfadd ⟨4, 0, false⟩ ⟨4, 5, 6, 0, 0, 0⟩)).toNat) 20, turns := [.core 0], boot := { s.boot with step := 5 } }
theorem witness_StepRunsDecoded_slots : let s0 := { slotted with tick := 1, turns := [], cur := 0, cycle := 1 }
    slotted.turns = [.core 0] ∧ (slotted.coreAt 0).run = .running ∧ s0.core.late = [] ∧ s0.core.due.isNone = true ∧
    okAnd (fetchBundle s0) (fun r s1 =>
      let pre := s1.enterBundle r.1
      let start := opened pre r.1 r.2
      let ws := decodeSlots r.1.pm r.2
      let ops := start.core.slotOps ws
      (s1.stopPoint r.1).isNone && decide (pre.core.rpt = 0) && nextAnd (runSlots runOp ops start) (fun _ => true) &&
        (ws.map (·.1)) == [0, 1] && (pre.core.slots[1]?).any (fun sl => sl.armed && (decodeSlot (slotCls 2) sl.word).toOption.isSome) &&
        (ops.map (·.slot)) == [0, 1, 2] && ops.any fun o => o.slot == 0 && fencesBundle o.op) = true := by decide +kernel
theorem witness_IllegalBundle_fetch (pc : BitVec 52) : let k := (mapped fun k => { k with pc := pc }).core
    k.late = [] ∧ k.due = none ∧ k.rpt = 0 := ⟨rfl, rfl, rfl⟩
theorem witness_IllegalBundle : (mapped fun k => { k with pc := 2 }).core.pc.toNat % 4 ≠ 0 ∧
    (mapped fun k => { k with pc := 8 }).core.pc.toNat % 4 = 0 ∧
    okAnd (fetchCode 8 4 (mapped fun k => { k with pc := 8 })) (fun w _ => match decodeHeader (BitVec.ofNat 32 w) with
      | .error .header => false
      | _ => true) = true ∧
    okAnd (fetchCode 4 4 (mapped fun k => { k with pc := 4 })) (fun w _ => match decodeHeader (BitVec.ofNat 32 w) with
      | .error .header => true
      | _ => false) = true := by decide +kernel
theorem witness_FaultChoice : (∀ f ∈ ([⟨5, ⟨0x02, 0, 0, 0⟩⟩, ⟨0, ⟨0x03, 0, 0, 0⟩⟩] : List SlotFault), f.slot < 6) ∧
    ([⟨5, ⟨0x02, 0, 0, 0⟩⟩] : List SlotFault) ≠ [] ∧ destClashes [(0, .x, 1), (1, .x, 1)] = [0, 1] ∧ destClashes [(0, .x, 1), (0, .x, 1)] = [] ∧
    bankClashes [⟨1, 0, false⟩, ⟨2, 16, false⟩] = [1, 2] ∧ bankClashes [⟨1, 0, false⟩, ⟨2, 16384, true⟩] = [] := by decide
/-- An issue with clashing registers, with clashing banks, and with neither; an access to a bank that a fetch holds, and into a gather's window. -/
theorem witness_FaultChoice_issue : let s (f : Issue → Issue) : State := small.onIssue f
    (∀ f ∈ ([fun i => { i with dests := [(0, .x, 1), (1, .x, 1)] }, fun i => { i with acc := [⟨1, 0, false⟩, ⟨2, 16, false⟩] }, id] : List (Issue → Issue)),
      (s f).core.issue.stall = none ∧ (s f).core.issue.faults = []) ∧
    destClashes (s fun i => { i with dests := [(0, .x, 1), (1, .x, 1)] }).core.issue.dests = [0, 1] ∧
    (s fun i => { i with acc := [⟨1, 0, false⟩, ⟨2, 16, false⟩] }).core.bankFaults = [1, 2] ∧
    destClashes (s id).core.issue.dests = [] ∧ (s id).core.bankFaults = [] ∧
    (let k : Core := { core with mfetch := some ⟨0, 4, [⟨0, 3, 1, 4⟩], [], [], none⟩, issue := { core.issue with acc := [⟨1, 3, false⟩] } }
     (k.mfetch).any (fun f => (f.banksAt 0 k.fetchCycle).contains 3) = true) ∧
    (⟨5, 0, 0⟩ : Window).start = core.fetchCycle := by decide +kernel
theorem witness_FormatRegisters : (Instr.fmt ⟨0, 0, false⟩ ⟨0, 5, 15⟩).wf = true ∧ (Instr.fmtrd ⟨1, 0, false⟩ ⟨3, 5, 0⟩).wf = true ∧
    (Instr.fmtrd ⟨0, 0, false⟩ ⟨3, 5, 0⟩).wf = false ∧ small.enabled on = true := by decide +kernel
/-- A number that is not assigned, one that every level reads, one that PL0 may not read. -/
theorem witness_CsrReads : csrLevels 0xFFF = none ∧ csrLevels 0x000 = some (.pl 0, .pl 0) ∧ small.lvlOk (.pl 0) = true ∧
    csrLevels 0x011 = some (.pl 2, .pl 2) ∧ (mapped fun k => { k with pl := 0 }).lvlOk (.pl 2) = false := by decide +kernel
theorem witness_CsrWrites : csrLevels 0x002 = some (.pl 0, .pl 0) ∧ small.watchForeign 0x002 = false ∧ (0x002 : Nat) ≠ 0xCF8 ∧
    rwinOk (small.getX 0).toNat = true ∧ rwinOk (small.readCsr 0x002 ||| small.getX 0).toNat = true ∧
    csrLevels 0xFFF = none ∧ (csrLevels 0x00B).any (fun e => decide (e.2 = .never)) = true ∧
    (csrLevels 0x064).any (fun e => decide (e.2 ≠ .never) && small.lvlOk e.1 && small.lvlOk e.2) = true ∧
    (csrLevels 0xC90).any (fun e => decide (e.2 ≠ .never) && small.lvlOk e.1 && small.lvlOk e.2) = true ∧ small.watchForeign 0xC90 = false ∧
    (csrLevels 0x011).any (fun e => !(mapped fun k => { k with pl := 0 }).lvlOk e.2) = true ∧
    (csrLevels 0xCF8).any (fun e => decide (e.2 ≠ .never) && small.lvlOk e.1 && small.lvlOk e.2) = true ∧ small.watchForeign 0xCF8 = false ∧
    rwinOk (small.getX 3).toNat = false ∧ rwinOk (small.readCsr 0x002 ||| small.getX 3).toNat = false ∧
    rwinOk ((small.onCore fun k => { k with rwin := 1 }).readCsr 0x002 &&& ~~~small.getX 0).toNat = false := by decide +kernel
theorem witness_CsrEffects : (small.csr 0x065).getLsbD 0 = false ∧ (small.setCsr 0x065 1 |>.csr 0x065).getLsbD 0 = true ∧ small.core.pl = 2 ∧
    (mapped fun k => { k with pl := 1 }).core.pl ≠ 2 := by decide +kernel
theorem witness_AttestWrite : (with_ [(1, 64)]).enabled on = true ∧ 1 ≤ (with_ []).core.pl.toNat ∧ (with_ []).att = none ∧
    ((with_ []).csr 0xCF8).getLsbD 0 = false ∧ (((with_ []).setCsr 0xCF8 1).csr 0xCF8).getLsbD 0 = true := by decide +kernel
/-- The security engine has a request for the buffer at a VA, asked for at a level. -/
def attesting (va pl : Nat) : State := { with_ [] with att := some ⟨0, 0, 16, pl, va⟩ }
/-- A buffer in one page, one that names a partition which does not exist, one that is not mapped, one that two pages hold. -/
theorem witness_AttestWrite_engine : (8 : Nat) % 64 ≠ 0 ∧ (64 : Nat) % 64 = 0 ∧ inHost 64 = false ∧ (attesting 64 2).att = some ⟨0, 0, 16, 2, 64⟩ ∧
    okAnd (xlateRun attAgent 0 0 64 1024 (attesting 64 2)) (fun r s1 => match r with
      | some [(.dev pa tag, n)] => decide (n = 1024) && (s1.poisoned pa 48).isNone && decide ((s1.rdByte tag (pa + 2)).toNat ≤ 16)
      | _ => false) = true ∧
    okAnd (xlateRun attAgent 0 0 64 1024 { attesting 64 2 with mem := (with_ []).mem.write 0x400000220042 17 }) (fun r s1 => match r with
      | some [(.dev pa tag, _)] => decide (16 < (s1.rdByte tag (pa + 2)).toNat)
      | _ => false) = true ∧
    okAnd (xlateRun attAgent 0 0 0x10000 1024 (attesting 0x10000 2)) (fun r _ => r.isNone) = true ∧
    okAnd (xlateRun attAgent 0 0 65472 1024 { attesting 65472 1 with mem := (with_ []).mem.writeLE 0x400000210008 0x400000230067 8 }) (fun r s1 => match r with
      | some ((.dev pa _, n) :: _ :: _) => decide (n = 64) && (s1.poisoned pa 48).isNone
      | _ => false) = true := by decide +kernel
/-- PL0 with a handler of its partition, and without one; PL1 and PL2 with and without a trap to return from. -/
theorem witness_TrapIssue : let a := { mapped fun k => { k with pl := 0, part := 3 } with csrs := [(0x023, 0x4000)] }
    (a.core.pl.toNat < 2 ∧ a.tvec (a.core.pl.toNat + 1) ≠ 0) ∧ small.core.pl.toNat = 2 ∧
    (mapped fun k => { k with pl := 1 }).tvec 2 = 0 ∧ (mapped fun k => { k with pl := 1, estat1 := 4 }).core.estat1.getLsbD 2 = true ∧
    (mapped fun k => { k with estat2 := 5 }).core.estat2.getLsbD 2 = true ∧ small.core.estat2.getLsbD 2 = false := by decide +kernel
theorem witness_TrapEntry : (mapped fun k => { k with pl := 1 }).core.pl.toNat < 2 := by decide +kernel
theorem witness_TrapReturn : let a := mapped fun k => { k with pl := 0, part := 3, asid := 9, fmts := [] }
    a.core.pl.toNat < 2 ∧ { a with mcs := [] }.core.asid = 9 ∧ (∀ w ∈ a.core.fmts, a.core.issueNo ≤ w.at_) ∧
    (mapped fun k => { k with pl := 0, asid := (mapped fun k => { k with pl := 0 }).levelAsid 0 }).core.asid =
      (mapped fun k => { k with pl := 0, asid := (mapped fun k => { k with pl := 0 }).levelAsid 0 }).levelAsid 0 := by decide +kernel
theorem witness_Privilege : (mapped fun k => { k with pl := 0 }).core.pl = 0 ∧ (mapped fun k => { k with pl := 1 }).core.pl.toNat < 2 ∧
    (mapped fun k => { k with pl := 0 }).enabled on = true := by decide +kernel
/-- `LDD` at VA 0 and at VA 1, across a line, with ORD 0; with ORD 1 at VA 8; misaligned in the host window. -/
theorem witness_Loads : okAnd (loadBytes 0 8 (with_ [])) (fun bs _ => decide (ofBytes bs = 0x8000000000000000)) = true ∧
    okAnd (loadBytes 1 8 (with_ [])) (fun bs _ => decide (ofBytes bs = 0xFF80000000000000)) = true ∧
    okAnd (loadBytes 60 8 (with_ [])) (fun bs _ => decide (bs.length = 8)) = true ∧
    okAnd (loadEvent 8 8 (with_ []).endRegion) (fun r _ => decide (ofBytes r.1 = 0xFF)) = true ∧
    inHost 1 = false ∧ inHost 0xF000000000001 = true ∧
    okAnd (xlateTask 56 .read (with_ [])) (fun l s1 => match l with
      | .dev pa _ => decide (pa % 64 = 56) && s1.poison.isEmpty && (s1.coreAt (s1.l1Home pa)).l1.isEmpty && s1.core.held.isEmpty && s1.core.ntq.isEmpty &&
          s1.hist.isEmpty && s1.cxl.isEmpty
      | _ => false) = true := by decide +kernel
/-- ASID 0 has a host function and PASID, and the translation cache of die 0 an entry for its first host page. -/
def hosted : State := { with_ [] with csrs := (0x400, 0x80000000) :: (with_ []).csrs, dtc := [⟨0, 0, 0, 0, 1, 7, true, true⟩] }
/-- What the host has delivered for an access, and a request for it that is out. -/
def delivered (key : Nat) : State := hosted.onIssue fun i => { i with given := [(key, List.replicate 8 0)] }
def waitingHost (key : Nat) : State := { hosted with hostReqs := [⟨5, 0, 0, 0, 0, 8, key⟩] }
def isHost : Loc → Bool
  | .host _ _ _ _ => true
  | .dev _ _ => false
theorem witness_Loads_host : let va := 0xF000000000000
    let key := hostKey 0 va 8 3
    va % 8 = 0 ∧ inHost va = true ∧ meetsHost 0xEFFFFFFFFFFFC 8 = true ∧ 0xEFFFFFFFFFFFC % 8 ≠ 0 ∧
    ((delivered key).hostGiven 0 key).isSome = true ∧ ((delivered key).endRegion.hostGiven 0 key).isSome = true ∧ hosted.hostGiven hosted.cur key = none ∧
    (askedHost (waitingHost key) key).isSome = true ∧ askedHost hosted key = none ∧ hosted.endRegion.hostGiven 0 key = none ∧
    askedHost hosted.endRegion key = none ∧ okAnd (xlateTask va .read hosted) (fun l _ => isHost l) = true ∧
    okAnd (xlateTask va .read hosted.endRegion) (fun l _ => isHost l) = true := by decide +kernel
theorem witness_Stores : let s := with_ [(1, 65528), (2, 65529)]
    s.smAddr ⟨3, 1, 0, 0, 0⟩ = 65528 ∧ 65528 % 65536 + 8 ≤ 65536 ∧ s.smAddr ⟨3, 2, 0, 0, 0⟩ % 8 ≠ 0 ∧ meetsHost 65529 8 = false ∧
    okAnd (xlateTask 65528 .write s) (fun l s1 => match l with
      | .dev pa tag => (s1.watchHits pa 8).all (fun w => decide (s1.watchMc w ≠ s1.core.mcid)) && decide (s1.core.restart = false) &&
          s1.core.ntq.isEmpty && (List.range 8).all (fun w => !(s1.csr (0xC98 + w)).getLsbD 0) && decide (s1.lineTagOf pa = tagAt tag pa)
      | _ => false) = true := by decide +kernel
/-- Across two pages; in the host window, without and with a release. -/
theorem witness_Stores_split : let s := { with_ [] with mem := (with_ []).mem.writeLE 0x400000210008 0x400000230067 8 }
    65536 - 65532 % 65536 < 8 ∧ meetsHost 65532 8 = false ∧
    okAnd (xlateTask 65532 .write s) (fun l s1 => match l with
      | .dev pa _ => okAnd (xlateTask 65536 .write s1) fun l2 s2 => match l2 with
        | .dev pb _ => s2.watchHits pa 4 == [] && s2.watchHits pb 4 == []
        | _ => false
      | _ => false) = true ∧
    0xF000000000000 % 8 = 0 ∧ inHost 0xF000000000000 = true ∧ okAnd (xlateTask 0xF000000000000 .write hosted) (fun l s1 => isHost l && !s1.core.restart && s1.core.ntq.isEmpty) = true ∧
    okAnd (xlateTask 0xF000000000000 .write hosted.endRegion) (fun l _ => isHost l) = true := by decide +kernel
/-- Where the word is what a CAS expects and where it is not; misaligned; in the host window. -/
theorem witness_Atomics : let s := with_ [(1, 0), (2, 7), (3, 0x8000000000000000), (4, 2), (5, 0xF000000000000)]
    okAnd (xlateTask 0 .write s.endRegion) (fun l s1 => match l with
      | .dev pa tag => let s3 := (s1.drainNt.pooledAtomic pa).taskRefresh pa 8
        (s1.drainNt.poisoned pa 8).isNone && s3.core.held.isEmpty && s3.core.ntq.isEmpty &&
          decide (s3.rdLE tag pa 8 = (s.endRegion.getX 3).toNat) && decide (s3.rdLE tag pa 8 ≠ (s.endRegion.getX 2).toNat)
      | _ => false) = true ∧
    (s.endRegion.getX 4).toNat % 4 ≠ 0 ∧ inHost ((s.endRegion.getX 5).toNat % 2 ^ 52) = true ∧ (s.endRegion.getX 5).toNat % 8 = 0 := by decide +kernel
/-- A `CAS` in the host window: its result is there; its request is out; it has none yet. -/
theorem witness_Atomics_host : let va := 0xF000000000000
    let key := hostKey 0 va 8 2
    ((delivered key).endRegion.hostGiven 0 key).isSome = true ∧ (waitingHost key).endRegion.hostGiven 0 key = none ∧
    (askedHost (waitingHost key).endRegion key).isSome = true ∧ hosted.endRegion.hostGiven 0 key = none ∧ askedHost hosted.endRegion key = none ∧
    okAnd (xlateTask va .write hosted.endRegion) (fun l s1 => isHost l && s1.core.issue.faults == [] && s1.core.issue.stall.isNone && s1.core.endFaults == [] &&
      s1.core.issue.dests.all fun d => d.2 != (.x, 3)) = true := by decide +kernel
/-- A write to VA 8 that the task has seen, number 4, with a release of another core; and one, number 5, that it has not. -/
def remembering : State :=
  { (mapped fun k => { k with view := { View.none with seen := [4] } }) with
      writes := 6, hist := [⟨5, 0, .plain, [(0x400000220008, 1)], [⟨.task 9 0 0, 4, [5]⟩]⟩, ⟨4, 0, .plain, [(0x400000220008, 0)], []⟩] }
theorem witness_FencesWaits : let s := with_ [(1, 0), (2, 0x8000000000000000)]
    okAnd (waitWord ⟨3, 1, 2, 0, 0, 0, 0⟩ s.endRegion) (fun w s1 => waitCond 0 w.1 (s.endRegion.getX 2) && !waitCond 1 w.1 (s.endRegion.getX 2) &&
      decide (s1.core.fused = false)) = true ∧
    (let z (pad : Bool) (x : Dword) : Sleep := ⟨pad, 0x400000220008, .plain, 0, x⟩
     let t (pad : Bool) (x : Dword) : State := mapped fun k => { k with wait := some (.waita (z pad x)) }
     (0, (t false 0xFF).core) ∈ (t false 0xFF).cores ∧ (t false 0xFF).core.wait = some (.waita (z false 0xFF)) ∧
     waitCond 0 (BitVec.ofNat 64 ((t false 0xFF).rdLE .plain 0x400000220008 8)) 0xFF = true ∧
     waitCond 0 (BitVec.ofNat 64 ((t false 1).rdLE .plain 0x400000220008 8)) 1 = false ∧ (z true 0).pad = true) ∧
    (⟨.task 9 0 0, 4, [5]⟩ : Rel).meets remembering.me 3 = true ∧ (∃ w ∈ remembering.hist, w.id = 5) ∧
    4 ∈ remembering.core.view.seen ∧ 4 ∉ remembering.core.view.nt ∧ (∃ w ∈ remembering.hist, w.id = 4) := by decide +kernel
theorem witness_EnqueueExit : let s := with_ [(1, 5), (3, 512)]
    (s.endRegion.getX 1).toNat < 256 ∧ 512 ≤ (s.endRegion.getX 3).toNat ∧ okAnd (leaveUnits s.endRegion) (fun _ _ => true) = true ∧
    s.endRegion.core.maps = [] ∧ s.endRegion.core.streams = [] ∧ s.endRegion.core.ntq = [] := by decide +kernel
/-- A packet for another package, 5: no Brodilo; the link down; its answer there; not asked yet. -/
theorem witness_EnqueueExit_peer : let s := (with_ [(3, 256 + 5)]).endRegion
    let up := s.setCsr 0x063 0x100
    256 ≤ (s.getX 3).toNat ∧ (s.getX 3).toNat < 512 ∧ s.core.issue.faults = [] ∧ s.core.issue.stall = none ∧ s.core.endFaults = [] ∧
    s.core.issue.dests = [] ∧ s.fabV = false ∧ up.fabV = true ∧ .peer 5 ∉ up.linksDown ∧ .peer 5 ∈ { up with linksDown := [.peer 5] }.linksDown ∧
    ({ up with given := [⟨0, 64, [1, 0]⟩] }.given.find? fun (g : Given) => g.agent = up.cur ∧ g.key = 64) = some ⟨0, 64, [1, 0]⟩ ∧
    (up.given.find? fun (g : Given) => g.agent = up.cur ∧ g.key = 64) = none := by decide +kernel

/-- A job on MC 0 of groups of 2^n cores. -/
def jobOf (n : Nat) : Job := ⟨0, 16, n, 0, 0, 0, 0, 0, false, false, false⟩
/-- The core belongs to domains of levels 0 and 1 only; arriving alone completes the phase of a domain of one task, not of one of two. -/
theorem witness_Barriers : let s (n : Nat) : State := { remembering with cores := [(0, { remembering.core with domset := 3 })], jobs := [jobOf n] }.endRegion
    (s 0).member 1 = true ∧ (s 0).member 2 = false ∧ (s 0).barUnder 0 1 0 = false ∧ ((s 0).arrive 0 1 0 0 []).barUnder 0 1 0 = false ∧
    ((s 0).arrive 0 1 0 0 []).barDone 0 1 0 = true ∧ ((s 1).arrive 0 1 0 0 []).barDone 0 1 0 = false ∧
    ((s 0).arrive 0 1 0 0xFFFFFFFFFFFFFFFF []).barUnder 0 1 0 = true ∧ ((s 0).arrive 0 1 0 0 []).member 1 = true ∧
    4 ∈ (((s 0).arrive 0 1 0 0 (s 0).before).barOf 0 1 0).view ∧ (∃ w ∈ ((s 0).arrive 0 1 0 0 (s 0).before).hist, w.id = 4) := by decide +kernel
/-- MC 1 in a STATE, and in memory at VA 64 an image for it: its STATE, the partition 16, page tables and a save area. -/
def imaged (was now : Byte) : State :=
  let s := { with_ [] with mcs := [(0, true), (1, true)] }
  { s with mem := ((((s.mem.writeLE 0x400000000100 (was.toNat + 0x1000) 2).write 0x400000220040 now).write 0x400000220041 16).writeLE
      0x400000220048 0x400000200000 8).writeLE 0x400000220088 0x400000800000 8 }
theorem witness_McbKeysRings : let s := (with_ [(1, 0x4000), (2, 64), (3, 1), (4, 32)]).endRegion.fullFence 3
    1 ≤ s.core.pl.toNat ∧ 2 ^ 14 ≤ (s.getX 1).toNat ∧ (s.getX 2).toNat % 64 = 0 ∧ s.reachesMc 0 = true ∧ s.poisoned (s.mcbPa 0) 256 = none ∧
    ({ s with poison := [(s.mcbPa 0 / 64, true)] }.poisoned (s.mcbPa 0) 256).isSome = true ∧ s.frameOk (s.mcbPa 0) = true ∧
    s.reachesAsid 0 = true ∧ FMap.get 0 s.kvCount 0 = 0 ∧ FMap.get 0 { s with kvCount := [(0, 1)] }.kvCount 0 ≠ 0 ∧
    (mapped fun k => { k with pl := 1, part := 3, asid := 9 }).reachesMc 0 = false ∧
    (mapped fun k => { k with pl := 1, part := 3, asid := 9 }).reachesAsid 0 = false ∧
    okAnd (storeBytes 64 (toBytes 256 (s.mcb 0)) false none s) (fun _ _ => true) = true ∧ okAnd (loadBytes 64 96 s) (fun _ _ => true) = true ∧
    okAnd (ringfGo 0 1 0 0xFF s) (fun _ _ => true) = true ∧ (s.getX 4).toNat = 32 ∧
    s.partExists 3 = false ∧ { s with csrs := [(0x073, 0x8000000000000001)] }.partExists 3 = true := by decide +kernel
/-- An image whose STATE is no STATE; a transition that MCST does not make, and one that it makes. -/
theorem witness_McbKeysRings_mcst : let img (t : State) (bs : List Byte) := mcbImage (ofBytes bs) (t.mcb 1)
    okAnd (loadBytes 64 256 ((imaged 4 15).endRegion.fullFence 3)) (fun bs t => t.mcbMalformed 1 (img t bs)) = true ∧
    okAnd (loadBytes 64 256 ((imaged 4 2).endRegion.fullFence 3)) (fun bs t => !t.mcbMalformed 1 (img t bs) && decide (t.mcState 1 = 4) && !t.hitching 1 &&
      !mcstMoves 4 (img t bs % 16)) = true ∧
    okAnd (loadBytes 64 256 ((imaged 1 1).endRegion.fullFence 3)) (fun bs t => !t.mcbMalformed 1 (img t bs) && decide (t.mcState 1 = 1) && !t.hitching 1 &&
      decide (img t bs % 16 = 1)) = true := by decide +kernel
/-- What the statement of DISPATCH, SIGWAIT and TLBINV asks of a state, each form of MC 0 in ASID 0. -/
def asked (s : State) : State := s.endRegion.fullFence 3
/-- MC 0 with a job of one group of two cores, halted and with an image of the group where that is asked. -/
def jobbed (st : Byte) (gst : Byte) (ims : List Image) : State :=
  let s := mapped fun k => { k with run := .running }
  { s with jobs := [jobOf 1], mem := (s.mem.write 0x400000000000 st).write 0x400000000081 gst, images := ims }
def imageOf0 (r : Option (BitVec 512)) : Image := ⟨0, 0, core, 0, 0, false, 0, 0, true, r, false, none, [], []⟩
theorem witness_Dispatch : let s := asked (jobbed 2 2 [])
    s.reachesMc 0 = true ∧ s.frameOk (s.mcbPa 0) = true ∧ (asked (mapped id)).job 0 = none ∧ s.job 0 = some (jobOf 1) ∧
    (jobOf 1).ntg < 1 ∧ (asked (jobbed 2 1 [])).gplace 0 0 = (0, 0, 1) ∧ s.gplace 0 0 = (0, 0, 2) ∧ 0 ≤ (jobOf 1).ntg ∧
    (∀ q ∈ s.dispq, ¬(q.mcid = 0 ∧ q.grp = 0)) ∧ s.queued 0 16 < 256 ∧
    (∃ q ∈ { s with dispq := [⟨0, 16, 0, 0, []⟩] }.dispq, q.mcid = 0 ∧ q.grp = 0) ∧
    256 ≤ { s with dispq := List.replicate 256 ⟨0, 16, 1, 0, []⟩ }.queued 0 16 ∧
    s.hitching 0 = false ∧ { s with plans := [⟨0, [], 1, 0⟩] }.hitching 0 = true ∧ s.mcState 0 ≠ 5 ∧
    (let t := asked (jobbed 5 0 [imageOf0 none])
     t.mcState 0 = 5 ∧ t.job 0 = some (jobOf 1) ∧ (∀ d, d < 4 → t.queued d 16 + (jobOf 1).ntg < 256) ∧ t.groupImages 0 0 ≠ [] ∧ t.resumes 0 0 = false) ∧
    (asked (mapped fun k => { k with pl := 1, part := 3 })).reachesMc 0 = false := by decide +kernel
theorem witness_Sigwait : let s := asked (jobbed 2 1 [])
    s.core.wait ≠ some (.sigwait 0) ∧ s.mcState 0 = 2 ∧ (asked (jobbed 1 0 [])).mcState 0 = 1 ∧ (s.signalJob 0 true).mcState 0 ≠ 5 ∧
    (s.signalJob 0 false).mcState 0 ≠ 5 ∧ s.core.issue.given = [] ∧ (asked (jobbed 5 0 [])).mcState 0 = 5 ∧
    (asked (jobbed 2 2 [])).onCoreGroups 0 = [] ∧ (asked (jobbed 2 2 [])).mcState 0 = 2 ∧
    (let w (g : List (Nat × List Byte)) (st : Byte) : State := asked ((jobbed st 1 []).onCore fun k => { k with wait := some (.sigwait 0), issue := { k.issue with given := g } })
     (w [] 5).core.wait = some (.sigwait 0) ∧ (w [] 5).mcState 0 = 5 ∧ (w [(sigwaitKey, [])] 2).mcState 0 ≠ 5 ∧
     ((w [(sigwaitKey, [])] 2).core.issue.given.any fun q => q.1 == sigwaitKey) = true) := by decide +kernel
/-- No request of the host is outstanding, one of the ASID is; every MODE. -/
theorem witness_Tlbinv : let s := asked (mapped id)
    s.reachesAsid 0 = true ∧ (asked (mapped fun k => { k with pl := 1, part := 3, asid := 9 })).reachesAsid 0 = false ∧ s.hostReqs = [] ∧
    (∃ r ∈ { s with hostReqs := [⟨8, 0, 0, 0, 3, 5, 0⟩] }.hostReqs, (r.fn, r.pasid) ∈ s.hostIds [0]) ∧
    (with_ [(2, 1024)]).getX 2 = 1024 ∧ (1024 : Nat) / 1024 = 1 ∧ (2048 : Nat) / 1024 = 2 ∧ 0 ∈ s.modeTwo ∧ 2 ^ 12 ≤ (4096 : Nat) ∧
    (3 * 1024 + 5) / 1024 % 4 = 3 ∧ (65535 : Nat) % 2 ^ 16 ≠ 0 ∧ (1024 + 1) / 1024 = 1 ∧
    runsMeet (16 * 0xF00000000 + 3) 1 (16 * 0xF00000000) (16 * (0 % 65536 + 1)) = true ∧
    (∃ r ∈ { s with hostReqs := [⟨8, 0, 0, 0, 3, 5, 0⟩] }.hostReqs, (r.fn, r.pasid) ∈ s.hostIds s.modeTwo) := by decide +kernel
/-- A block of zeros that a PCFG reads, and what it says of partition 3 with an ASID. -/
theorem witness_PartitionsPhases : let s := asked (with_ [(1, 0), (2, 64)])
    let three := s.setCsr 0x073 0x8000000000000009
    okAnd (loadBytes 64 64 s) (fun bs s1 => blockOk [(4, 0), (25, 16)] (ofBytes bs) && blockOk [(4, 0)] (ofBytes bs) && blockOk quotaFields (ofBytes bs) &&
      blockOk [(4, 0), (10, 8)] (ofBytes bs) && !s1.partExists 3 && decide (s1.asidPart 9 = 16) && !s1.rootNames 9 && s1.rootNames 0 &&
      (s1.setCsr 0x073 0x8000000000000009).partExists 3 && decide ((s1.setCsr 0x073 0x8000000000000009).phase 3 = 0) &&
      decide (((s1.setCsr 0x073 0x8000000000000009).setCsr 0xCA3 5).phase 3 = 5) && (s1.setCsr 0x073 0x8000000000000009).partMcs 3 == [] &&
      decide (s1.csrF 0x0D3 15 0 = 0) && !s1.grants.any (·.part == 3)) = true ∧
    blockOk [(4, 0), (25, 16)] (16 + 2 ^ 16 * 9) = true ∧ (16 + 2 ^ 16 * 9) % 32 = 16 ∧
    (three.grant ⟨3, 6, 0x400000230000, 65536, 0⟩).1 = 0 ∧ three.quotaTaken ⟨3, 6, 0x400000230000, 65536, 0⟩ = false ∧
    three.splOthers 3 + 32768 ≤ 32768 ∧ (three.quotaBlock (3 + 2 ^ 14 + 2 ^ 128)).toOption.isSome = true ∧ (three.quotaBlock 3).toOption.isSome = false ∧
    blockOk [(4, 0), (10, 8)] (3 + 2 ^ 8 * 5) = true ∧ 5 < (3 + 2 ^ 8 * 6) / 2 ^ 8 % 8 ∧ three.phase 3 = 0 ∧ (three.setCsr 0xCA3 2).phase 3 = 2 ∧
    (three.setCsr 0xCA3 4).phase 3 = 4 ∧
    (let t := { s with grants := [⟨3, 6, 0x400000230000, 65536, 0⟩] }.setCsr 0x073 0x8000000000000009 |>.setCsr 0xCA3 4
     (t.revoke ⟨3, 6, 0x400000230000, 65536, 0⟩).1 = 0 ∧ t.phase 3 = 4 ∧ t.ungranted ⟨3, 6, 0x400000230000, 65536, 0⟩ = []) := by
  decide +kernel
/-- Blocks of a PCFG that lie at VA 64. -/
theorem witness_CalendarBandsSlicesMappings : let s := asked (with_ [(1, 0), (2, 64), (3, 8)])
    okAnd (loadBytes 64 64 s) (fun bs s1 => blockOk [(127, 64), (191, 128), (255, 192), (4, 0)] (ofBytes bs) && blockOk [(63, 0)] (ofBytes bs) &&
      blockOk [(255, 0), (307, 256), (317, 308), (318, 318)] (ofBytes bs) && s1.reachesAsid 0) = true ∧
    blockOk [(7, 0), (16, 8), (28, 24)] (255 + 2 ^ 8 + 2 ^ 24 * 31) = true ∧ (255 + 2 ^ 8) % 256 + 1 ≤ 256 ∧
    blockOk [(7, 0), (16, 8), (28, 24)] (255 + 2 ^ 9 + 2 ^ 24 * 30) = true ∧ 256 < 255 + 2 ∧ 8 ≤ (s.getX 3).toNat ∧
    blockOk [(63, 0)] 16 = true ∧ 15 < 16 % 32 ∧ (3 : Nat) % 32 ≤ 15 ∧ s.partExists 3 = false ∧ (s.setCsr 0x073 0x8000000000000009).partExists 3 = true ∧
    blockOk [(4, 0), (127, 64), (191, 128), (255, 192)] 17 = true ∧ 16 < 17 % 32 ∧ blockOk [(4, 0), (127, 64), (191, 128), (255, 192)] 3 = true ∧
    (asked (mapped fun k => { k with pl := 1, part := 3, asid := 9 })).reachesAsid 0 = false := by decide +kernel
def okIs {ε α : Type} [DecidableEq α] (r : Except ε α) (a : α) : Bool := r.toOption == some a
/-- GMAP: a segment in the hash index, and leaves that map it. -/
theorem witness_Gmap : let f := 0x400000400000
    let s := { (asked (mapped id)).setCsr 0x065 0x400001000001 with grants := [⟨16, 9, f, 1, 0⟩], grist := [(5, f)] }
    let s := s.wr (s.gristPa f) (5 + 2 ^ 257) 64
    let t := s.mapSegment (s.asidPart 0) 0x400000210000 0x200000 f
    okIs (s.gmapTable 0 0x200000) 0x400000210000 = true ∧ s.hashFrame 5 = some f ∧ s.gristF f 257 256 ≠ 3 ∧ s.leafBusy 0x400000210000 0x200000 = false ∧
    okIs (t.gmapTable 0 0x200000) 0x400000210000 = true ∧ t.isGrist f = true ∧ t.gristHash f = 5 ∧ f % 2 ^ 21 = 0 ∧ f < 2 ^ 48 ∧
    (∀ i, i < 32 → t.rd (0x400000210000 + 8 * (0x200000 / 2 ^ 16 % 4096 + i)) 8 % 2 = 1 ∧
      t.rd (0x400000210000 + 8 * (0x200000 / 2 ^ 16 % 4096 + i)) 8 / 8 % 2 = 1 ∧
      t.rd (0x400000210000 + 8 * (0x200000 / 2 ^ 16 % 4096 + i)) 8 / 2 ^ 16 % 2 ^ 32 * 65536 = f + 65536 * i) := by decide +kernel

/-! ### Vectors and tiles -/

/-- v1 holds 1 in every lane, v2 the numbers of the lanes, v3 is freed; f1 holds an 8-bit format (E4M3); x6 lies in the second group of the
scratchpad; stream 1 is one of KV rows with a row ahead; slot V0 holds
an explicit issue. -/
def vecs : State := small.onCore fun k => { k with
  v := [(1, mkVec fun _ => 1), (2, mkVec fun i => BitVec.ofNat 32 i)], freed := 8, f := [(1, 1944)], x := k.x ++ [(6, 0x100000)], issue := { k.issue with slot := 1, explicit := true, y := k.y },
  streams := [(1, ⟨.kv, false, false, 0, 0, 0, 0, 0, 0, 0, 0, false, 0, 0, 64, 0, 0, 0, 8, [⟨5, none⟩], [], [], []⟩)] }
theorem witness_sources : Reads vecs 0x001 (vecs.getV 1) vecs ∧ Reads vecs 0x100 (vecs.getY 0) vecs ∧ vecs.isFreed 3 = true ∧
    Delivers vecs 4 0 0 0 (vecs.putV 4 0 0 0) ∧ vecs.enabledV on = true ∧ vecs.enabledV ⟨6, 24, true⟩ = true := by
  refine ⟨⟨?_, rfl, rfl⟩, ⟨rfl, rfl⟩, ?_, rfl, ?_, ?_⟩ <;> decide +kernel
theorem witness_Lanes (v : Vec) : ∃ t, Delivers vecs 4 v (vecs.effPred on) 1 t := ⟨_, rfl⟩
theorem witness_VectorArithmetic : Reads vecs 0x001 (vecs.getV 1) vecs ∧ Reads vecs 0x100 (vecs.getY 0) vecs := ⟨witness_sources.1, witness_sources.2.1⟩
/-- A special function has a result that is not exact, one that is, and one for each range of `VEXP2`. -/
theorem witness_DotsAndSpecials : (f32 0x7F800001).isNan = true ∧ 0x80000000 < (0x80000001 : BitVec 32).toNat ∧
    (match f32 0x3FC00000 with
      | .fin neg m e => !neg && decide (m ≠ 0) && !isPow2 m && decide (fixOf m e % 2 ^ 320 ≠ 0)
      | _ => false) = true ∧
    (match f32 0x40800000 with
      | .fin neg m e => !neg && isPow2 m && decide (((ilog2 m : Int) + e) % 2 = 0) && decide (fixOf m e % 2 ^ 320 = 0)
      | _ => false) = true ∧
    (match f32 0x43000000 with
      | .fin neg m e => !neg && decide (128 * 2 ^ 320 ≤ fixOf m e)
      | _ => false) = true ∧
    (match f32 0xC3170000 with
      | .fin neg m e => neg && decide (150 * 2 ^ 320 < fixOf m e)
      | _ => false) = true ∧
    (0 : Int) ≤ (⟨1, 2⟩ : Enclosure).lo ∧ (⟨1, 2⟩ : Enclosure).lo ≤ (⟨1, 2⟩ : Enclosure).hi := by decide +kernel
theorem witness_VectorConversions : fmtValid (vecs.getF 1) = true ∧ (nfmt (vecs.getF 1)).blk = 0 ∧ fmtValid (vecs.getF 0) = false ∧
    fmtValid 0x40798 = true ∧ (nfmt 0x40798).blk ≠ 0 := by decide +kernel
theorem witness_VectorMoves : vecs.isFreed 3 = true ∧ vecs.isFreed 4 = false ∧ (vecs.effPred on).getLsbD 127 = true ∧
    (vecs.effPred ⟨6, 1, false⟩).getLsbD 0 = false := by decide +kernel
theorem witness_VectorMemory :
    okAnd (vmRun ⟨3, 0, 0, 4, 0, 0⟩ (vecs.vmCursor ⟨3, 0, 0, 4, 0, 0⟩)) (fun r s1 => okAnd (touchRun r.1 r.2.1 true s1) fun _ _ => true) = true ∧
    okAnd (vmRun ⟨3, 0, 0, 4, 1, 0⟩ (vecs.vmCursor ⟨3, 0, 0, 4, 1, 0⟩)) (fun r s1 => okAnd (touchRun r.1 r.2.1 false s1) fun _ _ => true) = true ∧
    okAnd (vmRun ⟨3, 0, 0, 4, 2, 1⟩ (vecs.vmCursor ⟨3, 0, 0, 4, 2, 1⟩)) (fun _ _ => true) = true ∧
    (vecs.vmCursor ⟨3, 0, 0, 4, 0, 0⟩).cursor 0 % 64 = 0 ∧ (vecs.vmCursor ⟨3, 0, 0, 1, 0, 0⟩).cursor 0 % 64 ≠ 0 ∧ vecs.core.spBad = [] ∧
    vecs.enabledV ⟨6, 24, false⟩ = false ∧
    okAnd (gatherWords (vecs.getV 1) (BitVec.allOnes 128) (vecs.vgCursor ⟨3, 2, 0, 4, 0⟩)) (fun ws _ => decide (ws.length = 128)) = true ∧
    vecs.core.maps = [] ∧ dstCls ((3 : BitVec 9).extractLsb' 1 8) ≠ 1 ∧ srcCls (3 : BitVec 9) ≠ 1 := by decide +kernel
/-- A cursor that no mode takes, with each mode's format; a gather whose words lie in one bank. -/
theorem witness_VectorMemory_banks : let x := (vecs.vmCursor ⟨3, 0, 0, 1, 0, 0⟩).cursor 0
    x % (spRunA 0 (nfmt 0)).2 ≠ 0 ∧ x % (spRunA 1 (nfmt 0)).2 ≠ 0 ∧ fmtValid (vecs.getF 1) = true ∧ x % (spRunA 2 (nfmt (vecs.getF 1))).2 ≠ 0 ∧
    fmtValid 0x40798 = true ∧ (nfmt 0x40798).blk ≠ 0 ∧ x % (spRunA 3 (nfmt 0x40798)).2 ≠ 0 ∧
    (let at_ (i : Nat) : Nat := (64 + 1024 * i) % 2 ^ 20 / 4 * 4
     (∃ b, b < 16 ∧ 8 < (((List.range 128).map fun i => at_ i / 64).eraseDups.filter fun k => k % 16 = b).length) ∧
     (vecs.vgCursor ⟨3, 2, 0, 4, 0⟩).cursor 0 = 64 ∧ (vecs.vgCursor ⟨3, 2, 0, 1, 0⟩).cursor 0 % 64 ≠ 0) := by decide +kernel
theorem witness_VectorRegisters : vecs.isFreed 4 = false ∧ vecs.isFreed 3 = true ∧ srcCls 3 = 0 ∧ srcIdx 3 = 3 ∧ vecs.core.y.length = 4 ∧
    (vecs.onIssue fun i => { i with slot := 1 }).core.issue.slot = 1 ∧ (vecs.core.issue.y[0]?).any (fun e => decide (e.due ≤ vecs.core.issueNo)) = true := by decide +kernel
def free (s : State) (ts : List Nat) : Bool := s.core.mfetch.isNone && ts.all fun t => !s.core.tileBusy.getLsbD t
/-- BF16 operands of 32 indices in the two groups. -/
theorem witness_MatrixMultiply_dense : let s := vecs.mxCursor ⟨11, 0, 6, 0, 0, 0, 0, 1, 0, 0⟩
    okAnd (needFmt 1 0 s) (fun f _ => okAnd (needOperand (s.cursor 0) 0 (f.steps 32) 0 s) fun _ s1 =>
      okAnd (needOperand (s.cursor 1) 0 (f.steps 32) 1 s1) fun _ s2 => free s2 [11]) = true := by decide +kernel
/-- E4M3 operands: A dense, B sparse with LV 32 over one tile. -/
theorem witness_MatrixMultiply_sparse : let s := vecs.msCursor ⟨11, 0, 6, 0, 0, 1, 1, 0, 0, 0, 0⟩
    let f := nfmt (s.getF 1)
    fmtValid (s.getF 1) = true ∧ f.blk = 0 ∧ 32 ≤ 128 * 2 ^ 0 ∧
    okAnd (needOperand (s.cursor 0) 0 ((MatFmt.narrow f).steps 32) 0 s) (fun _ s1 =>
      okAnd (needOperand (s.cursor 1) 0 (sparseSteps f 32) 1 s1) fun _ s2 => free s2 [11]) = true := by decide +kernel
theorem witness_MatrixMultiply_rows : let s := vecs.mkCursor ⟨11, 0, 1, 0, 0, 0, 0, 0⟩
    (s.strm 1).any (fun t => decide (t.kind = .kv) && decide (t.ekind = 0)) = true ∧
    okAnd (needOperand (s.cursor 0) 0 ((MatFmt.wide bf16).steps 32) 0 s) (fun _ s1 => okAnd (popRows 1 1 s1) fun rows s2 =>
      decide (rows = [5]) && free s2 [11]) = true := by decide +kernel
theorem witness_MatrixMoves : free vecs [11, 0] = true ∧ Reads vecs 0x001 (vecs.getV 1) vecs ∧
    (vecs.onCore fun k => { k with tileBusy := 1 }).core.tileBusy.getLsbD 0 = true ∧
    okAnd (rowFmt 3 1 (vecs.mrCursor ⟨11, 4, 0, 127, 3, 1, 0, 0⟩)) (fun m s => okAnd (rowsAt ⟨11, 4, 0, 127, 3, 1, 0, 0⟩ m s) fun _ s1 =>
      s1.core.spBad.isEmpty) = true ∧
    fp16.round false ((([.fin false 1 0] : List Machine.Num)[0]?).getD .nan) < 2 ^ (MatFmt.wide fp16).rowBits := by
  refine ⟨?_, witness_sources.1, ?_, ?_, ?_⟩ <;> decide +kernel

/-! ### Commands and units -/

/-- The scratchpad holds at 0x40 a descriptor for `SBIND`, at 0x80 one for `SPMAP`; an explicit issue in slot C0. -/
def padded : State := mapped fun k => { k with
  sp := (Pad.zero.setChunk 1 (BitVec.ofNat 512 (2 ^ 64 + 2 ^ 102))).setChunk 2 (BitVec.ofNat 512 (256 * 2 ^ 32)), issue := { k.issue with slot := 4, explicit := true },
  domset := 3, streams := [(1, ⟨.kv, false, false, 0, 0, 0, 0, 0, 0, 0, 0, false, 0, 0, 64, 0, 0, 0, 8, [], [], [], []⟩)] }
/-- Commands outstanding. -/
def busy (op n : Nat) : State := { padded with cmds := List.replicate n (padded.newCmd op 0 0) }
theorem witness_StreamBinds :
    okAnd (readDesc (padded.ckCursor ⟨1, 0, 0, 2⟩)) (fun d s1 => (s1.strm 2).isNone && bindCompl d && sbindOk false d && sbindOk true d && okAnd (issueFlags 0x01 d s1) fun _ _ => true) = true ∧
    okAnd (readDesc (padded.ckCursor ⟨0, 0, 0, 2⟩)) (fun d s1 => (s1.strm 2).isNone && bindCompl d && s1.kvbindOk d && okAnd (issueFlags 0x46 d s1) fun _ _ => true) = true ∧
    okAnd (readDesc (padded.ckCursor ⟨0, 0, 0, 1⟩)) (fun d s1 => (s1.strm 1).isSome && decide (s1.mine Cmd.isCopy < 32) && okAnd (sendCmd 0x04 d (s1.cursor 0) s1) fun _ _ => true) = true ∧
    okAnd (readDesc ((busy 0x08 32).ckCursor ⟨0, 0, 0, 1⟩)) (fun _ s1 => decide (32 ≤ s1.mine Cmd.isCopy)) = true ∧
    (padded.ckCursor ⟨0, 1, 0, 1⟩).cursor 0 % 64 ≠ 0 := by decide +kernel
theorem witness_CommandsIssue :
    okAnd (readDesc (padded.ckCursor ⟨0, 0, 0, 0⟩)) (fun d s1 => decide (s1.mine Cmd.isKv < 16) && okAnd (issueFlags 0x40 d s1) fun _ _ => true) = true ∧
    okAnd (readDesc ((busy 0x40 16).ckCursor ⟨0, 0, 0, 0⟩)) (fun _ s1 => decide (16 ≤ s1.mine Cmd.isKv)) = true ∧
    okAnd (readDesc ({ padded with jobs := [jobOf 0], racks := List.replicate 256 ⟨0, 16, none, none⟩ }.ckCursor ⟨0, 0, 0, 0⟩)) (fun d s1 =>
      decide (256 ≤ (s1.racks.filter fun r => r.die = s1.die ∧ r.part = s1.core.part).length) &&
      okAnd (sendCmd 0x61 d 0 s1) fun c t => decide (c.level ≤ 4) && s1.member c.level &&
        (t.cmds.all fun x => x.id == c.id || !(t.sameColl x { c with coll := FMap.get 0 s1.core.colls (collKey 0x61 c.level) + 1 }))) = true ∧
    okAnd (readDesc (padded.ckCursor ⟨2, 0, 0, 0⟩)) (fun d s1 => !(complOf 0x10 d).bad && !rangeBad d && !bit d 116 && s1.core.maps.isEmpty &&
      okAnd (mapNew d s1) fun st s2 => decide (st = 0) && okAnd (mapSync d s2) fun st s3 => decide (st = 0) && okAnd (mapInv d s3) fun st _ => decide (st = 0)) = true ∧
    okAnd (readDesc (padded.ckCursor ⟨0, 0, 0, 0⟩)) (fun d s1 => okAnd (mapRemove d s1) fun st _ => decide (st ≠ 0)) = true := by decide +kernel
/-- The range 0 to 255 is mapped at VA 256, with one byte written; a descriptor that names it, for each of `SPMAP` UNMAP, `SPSYNC` and `SPMAP`. -/
theorem witness_CommandsIssue_maps : let s := mapped fun k => { k with maps := [⟨0, 256, 256, 0, [(0, ⟨.dirty, 1⟩)]⟩] }
    let d := 256 * 2 ^ 32
    rangeBad d = false ∧ rangeBad (d + 2 ^ 116) = false ∧ bit (d + 2 ^ 116) 116 = true ∧ bit d 116 = false ∧ bits d 115 64 % 256 = 0 ∧
    spGroup 0 = spGroup 255 ∧ (∃ m ∈ s.core.nextMaps, m.off = 0 ∧ m.len = 256) ∧ (mapped id).core.nextMaps = [] ∧
    (let gs := s.core.dirty.filter fun e => (s.core.maps[e.1]?).any (·.off == 0)
     gs ≠ [] ∧ okAnd ((gs.mapM fun (i, g) => finalWriteBack i g) s) (fun _ _ => true) = true) ∧
    s.core.dirtyIn 0 256 ≠ [] ∧ (mapped id).core.dirtyIn 0 256 = [] ∧ okAnd (syncChecks 0 (s.core.dirtyIn 0 256) s) (fun _ _ => true) = true ∧
    s.core.maps[0]? = some ⟨0, 256, 256, 0, [(0, ⟨.dirty, 1⟩)]⟩ ∧
    okAnd (xlateAs 0 256 .write s) (fun l s1 => !s1.wbWatched l [(0, 0)]) = true ∧ s.core.ntq = [] ∧ s.core.held = [] ∧
    (∀ w, w < 8 → (s.csr (0xC98 + w)).getLsbD 0 = false) := by decide +kernel

/-- A core that waits, or has been asked to stop; its code page as it has fetched it; a bundle at VA 0x100 with the SAFE bit. -/
def waiting (f : Core → Core) : State :=
  let s := mapped fun k => f { k with ibuf := [(0, ⟨0x400000220000, .plain, [(0x400000220007, 0x80), (0x400000220008, 0xFF), (0x400000220101, 0x40)], []⟩)] }
  { s with mem := s.mem.write 0x400000220101 0x40, jobs := [jobOf 0], tlb := [⟨0, 0, 0, 3, 0x400000220067⟩] }
theorem witness_StepEvent_stop : (waiting fun k => { k with pc := 0x100, preq := some .victim }).stopsSafely 0 = true ∧
    (waiting fun k => { k with pc := 0x200, preq := some .victim }).stopsSafely 0 = false := by decide +kernel
/-- `STD x3, [x1]` at VA 0x200, to a byte that a watchpoint of the same MC covers. -/
def watched : State :=
  let s := mapped fun k => { k with pc := 0x200, x := [(1, 64)] }
  { s with
    mem := s.mem.writeLE 0x400000220200 (1 + 2 ^ 32 * (encode (.std ⟨0, 0, false⟩ ⟨3, 1, 0, 0, 0⟩)).toNat) 12,
    csrs := s.csrs ++ [(0xC90, 0x400000220040), (0xC98, 1)] }
theorem witness_TaskUnits_waits : let kv := waiting fun k => { k with wait := some (.kv 0 0 0 ⟨0x12, 0x15, 0, BitVec.ofNat 192 (2 ^ 60)⟩) }
    let atSafe := waiting fun k => { k with pc := 0x100, wslot := 6, preq := some .victim }
    let st := waiting fun k => { k with wait := some (.steep 0x400000400000 ⟨0x15, 0x7, 3, 0⟩) }
    (kv.coreAt 0).run = .running ∧ kv.stopHeader.isNone = true ∧ atSafe.stopHeader.isSome = true ∧ kv.stillMissing 0 ⟨0x12, 0x15, 0, BitVec.ofNat 192 (2 ^ 60)⟩ = true ∧ (0x12 : Nat) ∉ [0x20, 0x21, 0x22] ∧
    { st with csrs := st.csrs ++ [(0x065, 0x400000000001)], mem := [(0x4000010000A0, 1)] }.segSteeping 0x400000400000 = true := by decide +kernel
/-- `LDD x3, [x1]` at VA 0x200, from a line at VA 64 that is poisoned. -/
def consumer : State :=
  let s := mapped fun k => { k with pc := 0x200, x := [(1, 64)] }
  { s with
    mem := s.mem.writeLE 0x400000220200 (1 + 2 ^ 32 * (encode (.ldd ⟨0, 0, false⟩ ⟨3, 1, 0, 0, 0⟩)).toNat) 12, poison := [(0x400000220040 / 64, true)] }
theorem witness_TaskUnits_poison : (consumer.consuming 0x400000220040).isSome = true ∧ (0x400000220040 : Nat) / 64 * 64 = 0x400000220040 ∧
    consumer.consuming 0 = none ∧
    List.find? (fun l => (consumer.consuming l).isSome) ((consumer.poison.map fun e => 64 * e.1) ++ consumer.core.spBad.map fun e => e.2 / 64 * 64) =
      some 0x400000220040 := by decide +kernel
/-- Tasks whose release waits for a peer that is lost; tasks that are asked to stop while a row or a segment is awaited. -/
theorem witness_TaskUnits_lost : let s := { waiting id with linksDown := [.peer 5], peerReqs := [⟨4, 5, 0, 0, []⟩] }
    s.job 0 = some (jobOf 0) ∧ (s.coreAt 0).mcid = 0 ∧ (Link.peer 5) ∈ s.linksDown ∧ s.dependsOn (jobOf 0) (.peer 5) = true := by decide +kernel
theorem witness_TaskUnits_stops :
    okAnd (fetchBundle (waiting fun k => { k with pc := 0x100, preq := some .halt })) (fun r u => u.atSafe r.1 && decide (u.cur = 0) && u.core.preq == some .halt) = true ∧
    okAnd (fetchBundle (waiting fun k => { k with pc := 0x200, preq := some .fault })) (fun r u => !u.atSafe r.1 && decide (u.cur = 0) && u.core.preq == some .fault &&
      u.core.wait.isNone && decide (u.core.rpt = 0) && !u.outside && u.core.issue.woken.isNone) = true ∧
    okAnd (fetchBundle { waiting fun k => { k with pc := 0x100, preq := some .slice } with mem := (waiting id).mem.write 0x400000000040 64 }) (fun r u => u.atSafe r.1 &&
      decide (u.mcbF u.core.mcid 563 512 = 64) && okAnd (loadBytes ((64 + 64 * r.1.lmi.toNat) % 2 ^ 52) 64 u) fun _ _ => true) = true ∧
    okAnd (fetchBundle (waiting fun k => { k with pc := 0x100, preq := some .slice })) (fun r u => u.atSafe r.1 && decide (u.mcbF u.core.mcid 563 512 = 0)) = true ∧
    (let stopping (w : Wait) : State := waiting fun k => { k with pc := 0x200, preq := some .victim, wait := some w }
     ∀ w ∈ [.kv 0 0 0 ⟨0x12, 0x15, 0, BitVec.ofNat 192 (2 ^ 60)⟩, .steep 0x400000400000 ⟨0x15, 0x7, 3, 0⟩, .waita ⟨true, 0, .plain, 0, 0⟩, .bar, .motion, .sigwait 0],
      okAnd (fetchBundle (stopping w)) (fun r u => !u.atSafe r.1 && u.core.wait == some w && u.core.preq == some .victim && decide (u.cur = 0)) = true) ∧
    (let k : Core := (mapped fun k => { k with preq := some .slice, restart := true, ckpt := some ⟨0, 0, 0, 0, [], [], []⟩ }).coreAt 0
     k.preq = some .slice ∧ k.restart = true ∧ k.ckpt.isSome = true) ∧
    ((mapped fun k => { k with held := [⟨[(0x400000220040, 1)], .plain, none, 0, false, [], false⟩] }).coreAt 0).held ≠ [] ∧
    (mapped id).core.windowHolds 0 64 = false := by
  decide +kernel
theorem witness_TaskUnits_watch : okAnd (fetchBundle watched) (fun r _ =>
      (watched.core.slotOps (decodeSlots r.1.pm r.2)).findSome? (fun o => watched.storeVa o.op) == some (64, 8)) = true ∧
    (match (watched.xlate watched.asker watched.die 0 64 .write).1 with
      | .hit (.dev pa _) => (watched.watchHits pa 8).any (fun i => watched.watchMc i == 0)
      | _ => false) = true ∧
    okAnd (fetchBundle watched) (fun r u => (chooseFault (u.metWith r.1 r.2 [⟨0, ⟨0x30, 0, 0, 0⟩⟩])).any fun f => decide (f.cause = 0x30)) = true ∧
    okAnd (fetchBundle consumer) (fun r u => ((consumer.consuming 0x400000220040).bind fun own => chooseFault (u.metWith r.1 r.2 own)).any
      fun f => decide (f.cause = 0x20)) = true := by decide +kernel

/-- A sequence of one block of 64 positions, present in tier 1. -/
def kvs : State := { padded with
  csrs := padded.csrs ++ [(0x054, 0x400000235000), (0x058, 1)],
  mem := [(0x400000000000, 2), (0x400000000001, 16), (0x40000000000A, 0x20), (0x40000000000D, 0x40), (0x400000000010, 1), (0x400000000012, 0x23), (0x400000000015, 0x40),
    (0x400000230000, 1), (0x400000230003, 64), (0x400000230009, 0x10), (0x40000023000A, 0x23), (0x40000023000D, 0x40),
    (0x400000231000, 1), (0x400000231001, 0x20), (0x400000231002, 0x23), (0x400000231005, 0x40),
    (0x400000232000, 1), (0x400000232001, 0x30), (0x400000232002, 0x23), (0x400000232005, 0x40),
    (0x400000233000, 1), (0x400000233001, 0x40), (0x400000233002, 0x23), (0x400000233005, 0x40), (0x400000234000, 1),
    (0x400000235000, 4), (0x400000235005, 0x40), (0x400000235009, 0x60), (0x40000023500A, 0x23), (0x40000023500D, 0x40)] }

theorem witness_StreamUnits_walk : inHost 0 = false ∧ (match (mapped id).xlateWalk 0 0 0 .read with
    | (.hit _, _) => true
    | _ => false) = true := by decide +kernel
theorem witness_StreamUnits_kv : (kvs.coreAt 0).run = .running ∧
    (kvs.strm 1).any (fun t => decide (t.kind = .kv) && decide (t.cur + t.ahead.length < t.stop) && okAnd (kvFetch 1 t 0 kvs) fun _ _ => true) = true ∧
    ({ kvs with mem := kvs.mem.write 0x400000230000 0 }.strm 1).any (fun t => errAnd (kvFetch 1 t 0 { kvs with mem := kvs.mem.write 0x400000230000 0 }) fun a =>
      match a with
      | .fault f => !([0x12, 0x15, 0x16].contains f.cause)
      | _ => false) = true := by decide +kernel
theorem witness_StreamUnits_fills : let t : Stream := ⟨.global, false, false, 0, 0, 64, 0, 2, 0, 0, 0, false, 0, 0, 0, 0, 0, 0, 0, [], [], [], []⟩
    okAnd (globalElement 0 (t.place (2 ^ 52) 0) [] (mapped id)) (fun _ _ => true) = true ∧
    (mapped fun k => { k with maps := [⟨0, 256, 0, 0, []⟩] }).core.windowHolds 0 256 = false ∧
    okAnd (needGranule 0 (mapped fun k => { k with maps := [⟨0, 256, 0, 0, []⟩] })) (fun _ _ => true) = true := by decide +kernel

/-- A command that copies 64 bytes from VA 0 to VA 0x100; one whose SCOPE is reserved; one that sends a frame. -/
def cmdOf (op d : Nat) : Cmd := { (mapped id).newCmd op d 0 with id := 7 }
def withCmd (op d : Nat) : State := { mapped id with cmds := [cmdOf op d] }
theorem witness_CommandEngines_completion : (withCmd 0x08 (0x100 + 2 ^ 134)).cmds.find? (·.id = 7) = some (cmdOf 0x08 (0x100 + 2 ^ 134)) ∧
    (complOf 0x08 (0x100 + 2 ^ 134)).bad = false ∧
    okAnd (engineBody (cmdOf 0x08 (0x100 + 2 ^ 134 + 2 ^ 164)) (withCmd 0x08 (0x100 + 2 ^ 134 + 2 ^ 164))) (fun r s1 => r.any fun r => decide (r.status = 0) &&
      okAnd ((cmdOf 0x08 (0x100 + 2 ^ 134 + 2 ^ 164)).finish r s1) fun _ _ => true) = true ∧
    (complOf 0x08 (5 * 2 ^ 386)).bad = true ∧ okAnd ((cmdOf 0x08 (5 * 2 ^ 386)).finish (.fail 1 0) (withCmd 0x08 (5 * 2 ^ 386))) (fun _ _ => true) = true ∧
    errAnd (engineBody (cmdOf 0x08 (0x100 + 2 ^ 134 + 2 ^ 164)) { withCmd 0x08 (0x100 + 2 ^ 134 + 2 ^ 164) with motion := [⟨0, 0, 9, 0⟩] }) isStall = true ∧
    (cmdOf 0x08 (2 ^ 63)).isEgress = true ∧ okAnd (egressBody (cmdOf 0x08 (2 ^ 63)) (withCmd 0x08 (2 ^ 63))) (fun _ _ => true) = true ∧
    okAnd (rackTurn (cmdOf 0x45 0) (withCmd 0x45 0)) (fun _ _ => true) = true ∧
    okAnd (migrTurn false (cmdOf 0x60 0) (withCmd 0x60 0)) (fun _ _ => true) = true := by decide +kernel
/-- A copy of 128 bytes in the package moves as many of its 8-byte words as a free value says. -/
theorem engineBody_copy (c : Cmd) (s : State) (h8 : c.op = 8) (he : c.isEgress = false) (hd : c.desc.toNat = 0x100 + 2 ^ 135)
    (hn : c.endsStatus s (endpoint 0 128) (endpoint 0x100 128) = none) : engineBody c s = c.paced 128 (cutAt 0x100 128) false (fun off m =>
      c.copyUnit (endpoint 0 128) (endpoint 0x100 128) off m (off / 64) (overlaps c (endpoint 0 128) (endpoint 0x100 128) 128)) s := by
  have h1 : bits (0x100 + 2 ^ 135) 159 128 = 128 := by decide
  have h2 : bits (0x100 + 2 ^ 135) 63 0 = 0x100 := by decide
  have h3 : bits (0x100 + 2 ^ 135) 127 64 = 0 := by decide
  have h4 : bits (0x100 + 2 ^ 135) 167 164 = 0 := by decide
  have h5 : bits (0x100 + 2 ^ 135) 162 160 = 0 := by decide
  have h6 : bits (0x100 + 2 ^ 135) 383 168 = 0 := by decide
  have h7 : (endpoint 0 128).bad = false ∧ (endpoint 0x100 128).bad = false ∧ (endpoint 0 128).kind = 0 ∧ (endpoint 0x100 128).kind = 0 ∧
    ropOk 0 (endpoint 0x100 128) 128 = true ∧ (endpoint 0x100 128).addr = 0x100 ∧ ((endpoint 0 128).addr % 8 != (0x100 : Nat) % 8) = false := by decide
  unfold engineBody cpyBody
  simp only [h8, hd, he, h1, h2, h3, h4, h5, h6, h7.1, h7.2.1, h7.2.2.1, h7.2.2.2.1, h7.2.2.2.2.1, h7.2.2.2.2.2.1, h7.2.2.2.2.2.2]
  simp [get, getThe, MonadStateOf.get, bind, StateT.get, StateT.bind]
  simp [pure, Except.pure, Except.bind, hn]
/-- The engine, as it chooses, ends such a copy or comes back to it: either clause has its case. -/
theorem witness_CommandEngines_paced : let c := cmdOf 0x08 (0x100 + 2 ^ 135)
    let s := withCmd 0x08 (0x100 + 2 ^ 135)
    let copy := c.pacedBy 128 (cutAt 0x100 128 64) fun off m =>
      c.copyUnit (endpoint 0 128) (endpoint 0x100 128) off m (off / 64) (overlaps c (endpoint 0 128) (endpoint 0x100 128) 128)
    okAnd (copy 72 s) (fun r _ => r.isNone) = true ∧ okAnd (copy 128 s) (fun r _ => r.isSome) = true ∧
    ∃ x, engineBody c s = copy (cutAt 0x100 128 8 (0 + x % 128)) s :=
  ⟨by decide +kernel, by decide +kernel, _, engineBody_copy _ _ (by decide +kernel) (by decide +kernel) (by decide +kernel) (by decide +kernel)⟩
theorem witness_CommandEngines_racking : kvs.gbtPa 0 = some 0x400000235000 ∧ kvs.gbtF 0x400000235000 59 48 = 0 ∧ kvs.moves = [] ∧ (0 : Nat) % 4 = 0 ∧
    kvs.gbtF 0x400000235000 3 2 ≠ 0 ∧ kvs.gbtF 0x400000235000 31 16 = 0 ∧
    { kvs with mem := kvs.mem.write 0x400000235002 1 }.gbtF 0x400000235000 31 16 ≠ 0 ∧ (kvs.setCsr 0x063 0x100).peerUp 5 = true ∧
    kvs.paired 5 2 = none ∧ { kvs with grants := [⟨16, 8, 5, 1, 2⟩] }.paired 5 2 = some 16 ∧
    (match kvs.gbtWalk 16 kvs.fabId 0 0 with
      | .hit g _ _ _ _ => kvs.gbtF g 59 48 != 4095 && ({ kvs with mem := kvs.mem.writeLE 0x400000235006 0x0FFF 2 }).gbtF g 59 48 == 4095
      | _ => false) = true ∧
    kvs.autoWaits 0 = false ∧ { kvs with mem := kvs.mem.write 0x400000235000 8 }.autoWaits 0 = true := by decide +kernel
/-- A command of KV whose sequence another holds, and one whose sequence none holds. -/
theorem witness_CommandEngines_held : let c := { kvs.newCmd 0x42 0 0 with id := 7 }
    { kvs with cmds := [c] }.seqHeld c = false ∧ { kvs with cmds := [c, { c with id := 8, wait := some .motion }] }.seqHeld c = true := by decide +kernel
/-- A steep list of MC 0 at a VA. -/
def listedAt (va n next done : Nat) (fs : List SteepFetch) : State := { mapped id with steeps := [⟨0, 0, va, n, next, done, 0, fs, [], []⟩] }
def listed (n : Nat) (fs : List SteepFetch) : State := listedAt 0 n 0 0 fs
/-- A fault. -/
def isFault : Abort → Bool
  | .fault _ => true
  | _ => false
theorem witness_CommandEngines_steeping : (listed 0 []).steeps.find? (fun t => t.mcid = 0) = some ⟨0, 0, 0, 0, 0, 0, 0, [], [], []⟩ ∧
    okAnd (engRead (2 ^ 65) 0 0 0 64 (listed 0 [])) (fun _ _ => true) = true ∧
    okAnd (engRead (2 ^ 65) 0 0 64 64 (listed 2 [])) (fun bs s1 => okAnd (steepStep ⟨0, 0, 0, 2, 0, 0, 0, [], [], []⟩ 0 (ofBytes bs) s1) fun _ _ => true) = true ∧
    errAnd (engRead (2 ^ 65) 0 0 0x10000 64 (listedAt 0x10000 0 0 0 [])) isFault = true ∧
    (∀ t ∈ [listedAt 0xFFC0 2 0 0 [], listedAt 0xFF80 2 1 0 [⟨0, 0, 0⟩]], ∀ st ∈ t.steeps, (st.next = 0 ∨ st.done < st.next) ∧ st.next < st.count ∧
      errAnd (engRead (2 ^ 65) 0 0 ((st.base + 64 + 64 * st.next) % 2 ^ 52) 64 t) isFault = true) ∧
    ((listed 2 [⟨0, 0, 0⟩]).steeps.find? (fun t => t.mcid = 0 ∧ (t.fetching.take 16).any (·.ent == 0))).isSome = true ∧
    (listed 2 [⟨0, 0, 0⟩]).fetched ⟨0, 0, 0, 2, 0, 0, 0, [⟨0, 0, 0⟩], [], []⟩ 0 true [] = none ∧
    ({ listed 2 [⟨0, 0, 0⟩] with grants := [⟨16, 7, 0, 1, 0⟩] }.fetched ⟨0, 0, 0, 2, 0, 0, 0, [⟨0, 0, 0⟩], [], []⟩ 0 false []).isSome = true := by decide +kernel

/-- MC 0 with its group on core 0, and what else is asked. -/
def grouped (st : BitVec 8) : State :=
  let s := mapped fun k => { k with since := 0 }
  { s with jobs := [jobOf 0], mem := (s.mem.write 0x400000000000 st).write 0x400000000081 1, grants := [⟨16, 0, 0, 64, 0⟩] }
/-- MC 1 of higher priority has a stopped group; the one core of the partition runs the group of MC 0. -/
def crowded : State :=
  let s := grouped 2
  { s with grants := [⟨16, 0, 0, 1, 0⟩], mcs := [(0, true), (1, true)], jobs := [jobOf 0, { jobOf 0 with mcid := 1 }],
           mem := (s.mem.write 0x400000000100 0x12).write 0x400000000101 16, resume := [⟨1, 0, 0⟩] }
/-- MC 0 may be hitched: its queue holds a sealed record, which asks for one core of 64; or no core is granted. -/
def ready (gs : List Grant) : State := { grouped 1 with
  pending := [(0, true)], grants := gs, recs := [⟨9, 1, true, false, 1, 0, 16, 0, 0, []⟩] }
/-- The die has a hitch under way. -/
theorem witness_DispatchUnits_oneHitch : let s := { ready [⟨16, 0, 0, 64, 0⟩] with plans := [⟨5, [], 1, 0⟩] }
    s.scanPick 0 = .job 0 0 ∧ (∃ p ∈ s.plans, p.mcid / 4096 = 0) ∧ (∀ b ∈ s.back, b.die ≠ 0) := by decide +kernel
theorem witness_DispatchUnits_scanner : (grouped 2).scanPick 0 = .nothing ∧
    { grouped 2 with dispq := [⟨0, 16, 0, 0, []⟩] }.scanPick 0 = .restore ⟨0, 16, 0, 0, []⟩ 1 ∧
    { grouped 2 with resume := [⟨0, 0, 0⟩] }.scanPick 0 = .resume ⟨0, 0, 0⟩ 1 [] ∧
    crowded.scanPick 0 = .resume ⟨1, 0, 0⟩ 0 [(0, 0)] ∧ (∀ b ∈ crowded.back, b.die ≠ 0) ∧
    (ready []).scanPick 0 = .job 0 0 ∧ (ready [⟨16, 0, 0, 64, 0⟩]).scanPick 0 = .job 0 0 ∧ (∀ b ∈ (ready []).back, b.die ≠ 0) ∧
    (∀ p ∈ (ready []).plans, p.mcid / 4096 ≠ 0) ∧ (ready [⟨16, 0, 0, 64, 0⟩]).plans = [] := by decide +kernel
def chosen (s : State) : Option (State × List (Nat × Nat)) :=
  { s with plans := [⟨0, [], 2 ^ s.mcbF 0 38 36, 0⟩] }.choosePlaces (s.mcPart 0) (s.mcPrio 0) (s.hitchDies 0) (s.mcbF 0 40 39 + 1) []
theorem witness_DispatchUnits_hitch : (chosen (ready [])).isNone = true ∧
    (chosen (ready [⟨16, 0, 0, 64, 0⟩])).any (fun w => decide (w.2 = []) && w.1.plans == [⟨0, [(0, 1)], 1, 0⟩]) = true ∧
    (match ((ready [⟨16, 0, 0, 64, 0⟩]).pop 0 0 0).1 with
      | .popped _ => true
      | _ => false) = true ∧ (ready [⟨16, 0, 0, 64, 0⟩]).mcbF 0 431 416 = 0 ∧ (ready [⟨16, 0, 0, 64, 0⟩]).mcbF 0 479 448 = 0 := by decide +kernel
theorem witness_DispatchUnits_groups : let p : HitchPlan := ⟨0, [(1, 5)], 1, 0⟩
    let s := { grouped 1 with plans := [p] }
    let launched (s : State) := { (s.releaseRec 0) with plans := [] }.startJob 0 p.places p.record false (s.takenView 0)
    s.plans.find? (·.mcid = 0) = some p ∧ s.poisoned (s.mcbPa 0) 256 = none ∧ ({ s with poison := [(s.mcbPa 0 / 64, true)] }.poisoned (s.mcbPa 0) 256).isSome = true ∧ (∀ q ∈ p.places, ∀ i, i < p.size → (s.coreAt (64 * q.1 + q.2 + i)).run = .free) ∧
    (launched s).phase ((launched s).mcPart 0) ≠ 1 ∧ (launched (s.setCsr 0xCB0 1)).phase ((launched (s.setCsr 0xCB0 1)).mcPart 0) = 1 ∧
    (∃ q ∈ s.plans, q.mcid = 0) ∧ (∀ q ∈ (grouped 1).plans, q.mcid ≠ 0) ∧
    { grouped 2 with images := [imageOf0 none] }.groupStopped 0 0 = true ∧ { grouped 2 with images := [imageOf0 (some 0)] }.groupStopped 0 0 = true ∧
    ({ grouped 2 with images := [imageOf0 none] }.groupImages 0 0).all (·.rec_.isNone) = true ∧
    ({ grouped 2 with images := [imageOf0 (some 0)] }.groupImages 0 0).any (·.rec_.isSome) = true ∧ ((mapped id).gplace 0 0).2.2 ≠ 1 := by decide +kernel
/-- The cores' slices have ended, with another group that waits and with none; CALENDAR[0] of the root, and of partition 3 with credit drawn, with
weight and with neither. -/
theorem witness_DispatchUnits_slices : let s := { (grouped 2).setCsr 0x062 (0x30 ||| 0x10000) with frame := 100 }.onCore fun k => { k with slice := 1 }
    s.sliced = some (s.mcPart 0) ∧ (s.groupCores 0 0).filter (fun n => (s.coreAt n).run == .running) = [0] ∧
    (s.coreAt 0).slice ≠ 0 ∧ (s.coreAt 0).since + 1 + (s.coreAt 0).slice ≤ s.frame ∧ s.sliceWanted = false ∧
    { s with resume := [⟨0, 0, 0⟩] }.sliceWanted = true := by decide +kernel
def owed : State := (small.setCsr 0x133 5).setCal 10 3 { CalUse.zero with credit := 2 }
theorem witness_DispatchUnits_calendar : small.csrF (0x200 + small.cycle / 8) 4 0 = 0x1F ∧ (0x1F : Nat) ∉ ([3].filter (· ≤ 16)).eraseDups ∧
    small.calSlot.find? 10 ≠ some (256 * small.frame + small.cycle / 8) ∧
    { small with calSlot := [(10, 256 * small.frame + small.cycle / 8)] }.calSlot.find? 10 = some (256 * small.frame + small.cycle / 8) ∧
    (small.setCsr 0x200 3).csrF 0x200 4 0 = 3 ∧ (3 : Nat) ∈ ([3].filter (· ≤ 16)).eraseDups ∧ (∀ p, p < 16 → small.holds p 1 1 = false) ∧
    (owed.rotate 1 10 ([3].filter fun p => decide (0 < (owed.calUse 10 p).credit) && decide ((owed.calUse 10 p).used < owed.ceiling 1 p) &&
      decide ((owed.calUse 10 p).drawn < owed.ceiling 1 p - owed.csrF (0x130 + p) 8 0))).isSome = true ∧
    [3].filter (fun p => decide (0 < (small.calUse 10 p).credit)) = [] ∧
    (small.rotate 1 10 ([3].filter fun p => decide ((small.calUse 10 p).used < small.ceiling 1 p) && decide (0 < small.weight 1 p))).isSome = true ∧
    ([3].filter fun p => decide (0 < ((small.setCsr 0x173 0).calUse 10 p).credit)) = [] ∧
    ([3].filter fun p => decide (0 < (small.setCsr 0x173 0).weight 1 p)) = [] := by decide +kernel
theorem witness_DispatchUnits_phases : let s := { small.setCsr 0x073 0x8000000000000009 with cycle := 0, frame := 0x100000 }
    (s.setCsr 0xCA3 1).drained 3 = true ∧ (s.setCsr 0xCA3 3).phase 3 = 3 ∧ s.hostReqs = [] ∧
    s.partExists 3 = true ∧ (s.sealOf 3).due ≤ s.frame := by decide +kernel
theorem witness_DispatchUnits_scrub : let s := { small.setCsr 0x073 0x8000000000000009 with cycle := 0 }.setCsr 0xCA3 3
    s.phase 3 = 3 ∧ (((s.freeSequences 3).freeBlocks 3).dropGrist 3).hostReqs = [] ∧
    (let t := (s.setCsr 0x133 5).setCsr 0x173 0x0101010101010101
     t.phase 3 = 3 ∧ t.csrF 0x133 8 0 ≠ 0 ∧ (((t.freeSequences 3).freeBlocks 3).dropGrist 3).hostReqs = []) ∧
    (let t := (s.setCsr 0x133 0).setCsr 0x173 0
     t.phase 3 = 3 ∧ t.csrF 0x133 8 0 = 0 ∧ ∃ r, r < 8 ∧ t.csrF 0x173 (8 * r + 7) (8 * r) = 0) ∧
    (s.csrF 0x133 8 0 ≠ 0 ∨ ∀ r, r < 8 → s.csrF 0x173 (8 * r + 7) (8 * r) ≠ 0) := by decide +kernel

/-- A packet to MC 0: key 9, operation 1. -/
def packet9 : BitVec 512 := BitVec.ofNat 512 (9 + 2 ^ 128)
theorem witness_PackageUnits_push : let s := (mapped id).setCsr 0x0E0 100
    packetMc packet9 = 0 ∧ s.mcPart 0 = 16 ∧ s.mcState 0 ≠ 0 ∧ s.csrF (0xCA0 + 16) 2 0 ≠ 3 ∧ s.waiting 0 (packet9.extractLsb' 0 128) = none ∧
    s.heldRecs 16 0 < s.csrF (0x0D0 + 16) 15 0 ∧ s.freeRecs 0 ≠ 0 ∧ bits packet9.toNat 135 128 = 1 ∧ (s.push 0 true packet9).1 ≤ 1 ∧
    (s.push 0 true packet9).2.waiting 0 (packet9.extractLsb' 0 128) = some 0 ∧
    (((s.push 0 true packet9).2.recs[0]?).any fun r => decide (r.op.toNat = 1) && decide (r.count ≤ spliceCap 1)) = true := by decide +kernel
/-- A ring of one entry without its mark, an empty ring, and a marked entry. -/
theorem witness_PackageUnits_rings : let s := mapped id
    let ring (tail : Byte) : State := { s with mem := (s.mem.write 0x40000000002C tail).write 0x400000000030 1 }
    s.fnReaches 0 0 = true ∧ s.ringHeld 0 = false ∧ okAnd (ringStep 0 s) (fun r _ => decide (r = .empty)) = true ∧ okAnd (ringStep 0 (ring 1)) (fun r _ => decide (r = .badMark)) = true ∧
    okAnd (ringStep 0 { ring 1 with mem := (ring 1).mem.write 0x400000220047 0x80 }) (fun r _ => match r with
      | .pushed _ => true
      | _ => false) = true := by decide +kernel
def bytes (l : List Nat) : List Byte := l.map (BitVec.ofNat 8)
/-- A frame of no IP type to the MAC of partition 3; one that carries a CRP message; one too short a message. -/
theorem witness_PackageUnits_frames : let s := (small.setCsr 0x0F3 0x020000000003).setCsr 0xCE3 0
    let mac := bytes [2, 0, 0, 0, 0, 3, 2, 0, 0, 0, 0, 9]
    let crp (n : Nat) := mac ++ bytes [8, 0, 0x45, 0, 0, 28 + n, 0, 0, 0, 0, 64, 17, 0, 0, 1, 1, 1, 1, 2, 2, 2, 2, 0, 9, 0xB7, 0x98, 0, 8 + n, 0, 0] ++ List.replicate n 0
    s.framePart (mac ++ bytes [0x12, 0x34]) = some 3 ∧ s.phase 3 ≠ 3 ∧ (s.setCsr 0xCA3 3).phase 3 = 3 ∧ (s.setCsr 0xCA3 3).framePart (mac ++ bytes [0x12, 0x34]) = some 3 ∧ frameKind 0xB798 (mac ++ bytes [0x12, 0x34]) = .raw ∧
    okAnd (rawReceive 0 3 (mac ++ bytes [0x12, 0x34]) s) (fun _ _ => true) = true ∧ bit (s.csrN 0xCE3) 0 = false ∧ okAnd (rawLost 3 0 (s.csrF 0x073 9 0) (bits (s.csrN 0xCE3) 51 12 * 4096) s) (fun _ _ => true) = true ∧ s.csrF 0x060 15 0 = 0xB798 ∧
    (match frameKind 0xB798 (crp 64) with
      | .crp hdr msg => decide (msg.length = 64) && okAnd (crpIngest 0 3 hdr msg s) fun _ _ => true
      | _ => false) = true ∧
    (match frameKind 0xB798 (crp 8) with
      | .crp _ msg => decide (msg.length = 8)
      | _ => false) = true := by decide +kernel
theorem witness_PackageUnits_errors : small.frameOk 0x400000000000 = true ∧ small.frameOk (64 * 5) = true ∧ normLink (.peer 5) ∉ small.linksDown ∧
    normLink (.peer 5) ∈ { small with linksDown := [normLink (.peer 5)] }.linksDown := by decide +kernel
theorem witness_PackageUnits_peers : let s := { (mapped id).setCsr 0x063 0x100 with grants := [⟨16, 8, 5, 1, 2⟩] }
    s.peerUp 5 = true ∧ s.paired 5 2 = some 16 ∧ s.paired 5 3 = none ∧ s.csrF 0x080 9 0 = 0 ∧
    okAnd (peerRead 5 0 0 8 true s) (fun r _ => decide (r.1.length = 8)) = true ∧ okAnd (peerRead 5 0 0 8 false { s with poison := [(0x400000220000 / 64, true)] }) (fun r _ => r.2) = true ∧
    okAnd (peerStore 5 0 64 (bytes [1, 2, 3, 4]) false true s) (fun _ _ => true) = true ∧
    okAnd (peerReduce 5 0 1 64 (bytes [1, 2, 3, 4]) false true s) (fun _ _ => true) = true ∧
    (∀ q ∈ ([⟨4, 5, 3, 0, []⟩, ⟨4, 5, 3, 16, []⟩, ⟨4, 5, 300, 0, []⟩, ⟨4, 5, nobody, 0, toBytes 17 0⟩, ⟨4, 5, nobody, 0, toBytes 17 3⟩] : List PeerReq),
      ({ s with peerReqs := [q] } : State).peerReqs.find? (fun (r : PeerReq) => r.id = 4) = some q) ∧
    (toBytes 17 0).head? = some 0 ∧ (toBytes 17 3).head? = some 3 ∧ (toBytes 17 3).length = 17 ∧ (300 : Nat) ≠ nobody := by decide +kernel
theorem witness_PackageUnits_writes : small.fnMay 0 0x400000220000 8 = true ∧ bytes [1] ≠ [] ∧ watched.rangeValid 16 0x400000220040 1 = true ∧
    watched.watchHits 0x400000220040 1 ≠ [] := by decide +kernel

def granted : BootRecord := ⟨true, true, true, true, [1], List.replicate 64 0 ++ List.replicate 32 255, 0, 0, 0, []⟩
theorem witness_HostUnits : let r : AtsReq := ⟨0, 1, 2, 3, 4⟩
    let s := { small with ats := [r] }
    let i : Inval := ⟨1, none, 0, 9, [], true⟩
    (∃ q ∈ s.ats, q.die = 0 ∧ q.fn = 1 ∧ q.pasid = 2 ∧ q.page = 3) ∧ s.invals.any (fun i => i.covers 1 2 3) = false ∧
    { s with invals := [⟨1, none, 0, 9, [4], true⟩] }.invals.any (fun i => i.covers 1 2 3) = true ∧ small.invals = [] ∧
    s.priState 1 2 3 4 = none ∧ { s with pri := [⟨0, 1, 2, 3, 4, .succeeded⟩] }.priState 1 2 3 4 = some .succeeded ∧
    (∀ e ∈ small.cores, e.2.unsent = []) ∧ (∀ q ∈ ({ small with hostReqs := [⟨8, 5, 2, 2, 3, 5, 0⟩] } : State).hostReqs, i.meets q.fn q.pasid q.page 1 = false) ∧
    (∃ q ∈ ({ small with hostReqs := [⟨8, 5, 1, 2, 3, 5, 0⟩] } : State).hostReqs, i.meets q.fn q.pasid q.page 1 = true) ∧
    (∀ q ∈ ([⟨8, 5, 1, 2, 3, 5, 0⟩, ⟨8, nobody, 1, 2, 3, 5, 0⟩, ⟨8, 300, 1, 2, 3, 5, 0⟩] : List HostReq),
      ({ small with hostReqs := [q] } : State).hostReqs.find? (fun (q : HostReq) => q.id = 8) = some q) ∧ (300 : Nat) ≠ nobody := by decide +kernel
/-- A record with the IDHASH of the package, whose cores are all enabled. -/
def signed : List Byte := (List.replicate 32 (0 : Byte) ++ toBytes 32 Config.idHash.toNat) ++ List.replicate 32 255
theorem witness_HostUnits_boot : State.reset.boot.inReset = true ∧ State.reset.boot.fail = false ∧ granted.signatureOk = true ∧
    (signed.drop 32).take 32 = toBytes 32 Config.idHash.toNat ∧ rootCoreOf (disabledBy signed) = some 255 ∧
    (∃ b : List Byte, (b.drop 32).take 32 ≠ toBytes 32 Config.idHash.toNat) ∧
    rootCoreOf (disabledBy granted.record) = some 255 ∧ rootCoreOf (disabledBy []) = none := by
  have h : (toBytes 32 Config.idHash.toNat).length = 32 := by simp [toBytes]
  have h2 : (signed.drop 64).take 32 = List.replicate 32 255 := by
    rw [signed, List.drop_left' (by simp [h])]; rfl
  refine ⟨rfl, rfl, rfl, by simp [signed, h], ?_, ⟨[], fun e => ?_⟩, by decide +kernel, by decide +kernel⟩
  · rw [disabledBy, h2]; decide +kernel
  · simpa [toBytes] using congrArg List.length e

/-! ### Ill-formed terms: one for each check of `Instr.wf` -/

/-- LAT below the minimum, LAT given to an operation without it, an unused field, an immediate out of range (R252 to R264). -/
theorem test_wf_scalar : ([.add ⟨0, 0, false⟩ ⟨3, 4, 5, 0⟩, .mul ⟨2, 0, false⟩ ⟨3, 4, 5, 0⟩, .div ⟨11, 0, false⟩ ⟨3, 4, 5, 0⟩, .add on ⟨3, 4, 5, 1⟩,
    .clz on ⟨3, 4, 5, 0⟩, .shli on ⟨3, 4, 64⟩, .bfx on ⟨3, 4, 60, 4⟩, .bfi on ⟨3, 4, 63, 1⟩, .lih on ⟨3, 0x1000000⟩, .cmp on ⟨24, 0, 1, 2, 0, 0, 0⟩,
    .cmp on ⟨3, 6, 1, 2, 0, 0, 0⟩, .cmp on ⟨3, 5, 1, 2, 0, 0, 1⟩, .pand on ⟨3, 1, 0, 0, 1, 2, 0⟩, .pnot on ⟨3, 0, 0, 0, 1, 2, 0⟩, .pget on ⟨3, 0, 1, 0, 0, 0, 0⟩,
    .jmpx on ⟨0, 4, 0, 0⟩, .jmpx ⟨0, 0, false⟩ ⟨1, 4, 0, 0⟩, .ret ⟨0, 0, false⟩ ⟨0, 1, 0, 0⟩, .setlc ⟨0, 0, false⟩ ⟨1, 4, 0⟩, .halt ⟨0, 0, false⟩ ⟨1⟩,
    .fmt ⟨0, 0, false⟩ ⟨1, 2, 3⟩, .fmtrd ⟨1, 0, false⟩ ⟨1, 2, 3⟩, .csrr ⟨1, 0, false⟩ ⟨1, 0, 5⟩, .csrr ⟨2, 0, false⟩ ⟨1, 2, 5⟩, .eret ⟨0, 0, false⟩ ⟨1⟩,
    .csrw ⟨0, 0, false⟩ ⟨1, 2, 0x064⟩, .cxlcapWrite ⟨0, 0, false⟩ ⟨1, 2, 0x065⟩] : List Instr).all (fun i => !i.wf) = true := by decide +kernel
/-- Reserved ORD, SCOPE, KIND, AOP and SZ; x57 as the first of eight; p24; unused fields (R325 to R337, R271 to R280). -/
theorem test_wf_memory : ([.ldd ⟨0, 0, false⟩ ⟨1, 2, 2, 0, 0⟩, .ldd ⟨0, 0, false⟩ ⟨1, 2, 1, 5, 0⟩, .ldd ⟨0, 0, false⟩ ⟨1, 2, 0, 1, 0⟩, .std ⟨0, 0, false⟩ ⟨1, 2, 1, 0, 0⟩,
    .stnt ⟨0, 0, false⟩ ⟨1, 2, 2, 0, 0⟩, .fence ⟨0, 0, false⟩ ⟨0, 0, 0, 0, 5, 1, 0⟩, .fence ⟨0, 0, false⟩ ⟨0, 0, 0, 0, 4, 0, 0⟩,
    .fence ⟨0, 0, false⟩ ⟨0, 0, 0, 0, 4, 4, 0⟩, .drainnt ⟨0, 0, false⟩ ⟨0, 0, 0, 0, 0, 1, 0⟩, .amo ⟨0, 0, false⟩ ⟨1, 2, 3, 0, 0, 0, 10, 1⟩,
    .amo ⟨0, 0, false⟩ ⟨1, 2, 3, 0, 0, 0, 9, 1⟩, .amo ⟨0, 0, false⟩ ⟨1, 2, 3, 4, 0, 0, 0, 1⟩, .cas ⟨0, 0, false⟩ ⟨1, 2, 3, 4, 0, 0, 1, 1⟩,
    .red ⟨0, 0, false⟩ ⟨0, 2, 3, 0, 0, 0, 8, 1⟩, .red ⟨0, 0, false⟩ ⟨1, 2, 3, 0, 0, 0, 0, 1⟩, .waita ⟨0, 0, false⟩ ⟨1, 2, 3, 0, 0, 5, 0⟩,
    .enq ⟨0, 0, false⟩ ⟨1, 57, 3, 0, 0, 0, 0⟩, .enq ⟨0, 0, false⟩ ⟨1, 56, 3, 24, 0, 0, 0⟩, .exit ⟨0, 0, false⟩ ⟨0, 1, 0, 0, 0, 0, 0⟩,
    .exitS ⟨0, 0, false⟩ ⟨0, 1, 1, 0, 0, 0, 0⟩, .barArr ⟨0, 0, false⟩ ⟨0, 1, 0, 0, 5, 0, 0⟩, .barWait ⟨0, 0, false⟩ ⟨0, 1, 0, 0, 0, 0, 0⟩,
    .barTry ⟨0, 0, false⟩ ⟨0, 0, 0, 24, 0, 0, 0⟩, .mcld ⟨0, 0, false⟩ ⟨1, 2, 3, 4⟩, .useal ⟨0, 0, false⟩ ⟨1, 2, 3, 0⟩, .mcld on ⟨1, 2, 3, 0⟩] : List Instr).all
    (fun i => !i.wf) = true := by decide +kernel
/-- Source fields with L on a stream, streams and bypass registers that do not exist; class 3 destinations; unused operands, FSEL and FN
bits; `VXCL.X` without its bit; an odd destination of `VLD` (R224, R225, R283, R297). -/
theorem test_wf_vector : ([.vfadd ⟨3, 0, false⟩ ⟨1, 2, 3, 0, 0, 0⟩, .vfadd ⟨4, 0, false⟩ ⟨1, 0x0C0, 3, 0, 0, 0⟩, .vfadd ⟨4, 0, false⟩ ⟨1, 0x090, 3, 0, 0, 0⟩,
    .vfadd ⟨4, 0, false⟩ ⟨1, 0x104, 3, 0, 0, 0⟩, .vfadd ⟨4, 0, false⟩ ⟨0xC0, 2, 3, 0, 0, 0⟩, .vfadd ⟨4, 0, false⟩ ⟨0x50, 2, 3, 0, 0, 0⟩,
    .vfadd ⟨4, 0, false⟩ ⟨1, 2, 3, 1, 0, 0⟩, .vfabs ⟨4, 0, false⟩ ⟨1, 2, 3, 0, 0, 0⟩, .vfadd ⟨4, 0, false⟩ ⟨1, 2, 3, 0, 1, 0⟩,
    .vfadd ⟨4, 0, false⟩ ⟨1, 2, 3, 0, 0, 1⟩, .vcvtF32Bf16 ⟨4, 0, false⟩ ⟨1, 2, 0, 0, 0, 2⟩, .vsel ⟨4, 0, false⟩ ⟨1, 2, 3, 0, 0, 0x20⟩,
    .vbcast ⟨4, 0, false⟩ ⟨1, 2, 0, 0, 0, 0x10⟩, .vins ⟨4, 0, false⟩ ⟨0x41, 2, 0, 0, 0, 0⟩, .vxclX ⟨6, 0, false⟩ ⟨1, 2, 0, 0, 0, 0x7F⟩,
    .vcmp on ⟨24, 1, 2, 0⟩, .vfcmp ⟨2, 0, false⟩ ⟨1, 1, 2, 6⟩, .vld ⟨4, 0, false⟩ ⟨2, 0, 0, 0, 0, 1⟩, .vld ⟨4, 0, false⟩ ⟨3, 0, 0, 0, 0, 0⟩,
    .vgath ⟨12, 0, false⟩ ⟨1, 2, 0, 0, 0⟩, .vscat ⟨10, 0, false⟩ ⟨1, 0x0C0, 0, 0, 0⟩, .vmovi on ⟨0xC0, 0⟩, .vrand ⟨5, 0, false⟩ ⟨1, 0⟩] : List Instr).all
    (fun i => !i.wf) = true := by decide +kernel
/-- Tiles t12 to t15, reserved KIND, NTC, KB and NR, format registers that are not used; SIDX and other fields of a command (R305, R316). -/
theorem test_wf_matrix_command : ([.mma ⟨0, 0, false⟩ ⟨12, 0, 0, 0, 0, 0, 0, 1, 0, 0⟩, .mma ⟨0, 0, false⟩ ⟨0, 0, 0, 0, 0, 0, 0, 3, 0, 0⟩,
    .mma ⟨0, 0, false⟩ ⟨0, 0, 0, 0, 0, 1, 0, 1, 0, 0⟩, .mmas ⟨0, 0, false⟩ ⟨0, 0, 0, 0, 0, 0, 0, 3, 0, 0, 0⟩, .mmat ⟨0, 0, false⟩ ⟨0, 0, 0, 0, 8, 0, 0, 0⟩,
    .mmav ⟨0, 0, false⟩ ⟨0, 0, 0, 0, 4, 0, 0, 0⟩, .mmav ⟨0, 0, false⟩ ⟨0, 0, 0, 0, 0, 0, 32, 0⟩, .mred ⟨0, 0, false⟩ ⟨0, 0, 1, 0, 0, 0, 0, 1, 0, 0⟩,
    .mld ⟨0, 0, false⟩ ⟨0, 0, 0, 0, 2, 1, 0, 0⟩, .mst ⟨0, 0, false⟩ ⟨12, 0, 0, 0, 3, 1, 0, 0⟩, .mzero ⟨0, 0, false⟩ ⟨0, 1, 0, 0⟩, .mcopy ⟨0, 0, false⟩ ⟨0, 1, 1, 0⟩,
    .mrmax ⟨0, 0, false⟩ ⟨0x80, 0⟩, .mscale ⟨0, 0, false⟩ ⟨0, 0, 0, 0x0C0⟩, .cpy ⟨0, 0, false⟩ ⟨0, 0, 0, 1⟩, .kvapp on ⟨0, 0, 0, 0⟩,
    .sunbind ⟨0, 0, false⟩ ⟨1, 0, 0, 0⟩, .sunbind ⟨0, 0, false⟩ ⟨0, 0, 1, 0⟩] : List Instr).all (fun i => !i.wf) = true := by decide +kernel
/-- Words of reserved opcodes, and words with a bit set that the format reserves, do not decode (R252). -/
theorem test_decode_refuses : ([(.s, 0xFF00000000000000), (.v, 0xFF00000000000000), (.m, 0xFF00000000000000), (.c, 0xFF00000000000000),
    (.s, 0x0113A148C0000001), (.s, 0x0003A148C0000000), (.m, 0x1000000000000001), (.c, 0x0800000000000001)] : List (Cls × BitVec 64)).all
    (fun e => (decodeSlot e.1 e.2).toOption.isNone) = true := by decide +kernel

/-! ### One step each: expected values from the rules -/

/-! ### One step each: expected values from the rules' own examples and tables, or worked out by hand from them -/

/-- What x7 reads once every bound has come, after an operation on `small` with other registers. -/
def x7 (xs : FMap Dword) (i : Instr) : Nat :=
  match exec i (small.onCore (regs xs)) with
  | .next t => (xAt t 7 15).toNat
  | _ => 0
/-- The quotients and the remainders of the table of R254. -/
theorem test_divisions : let ab : FMap Dword := [(1, 7), (2, 0xFFFFFFFFFFFFFFFE), (3, 0xFFFFFFFFFFFFFFF9), (4, 2), (5, 5)]
    x7 ab (.div on ⟨7, 1, 2, 0⟩) = 0xFFFFFFFFFFFFFFFD ∧ x7 ab (.rem on ⟨7, 1, 2, 0⟩) = 1 ∧ x7 ab (.divu on ⟨7, 1, 2, 0⟩) = 0 ∧ x7 ab (.remu on ⟨7, 1, 2, 0⟩) = 7 ∧
    x7 ab (.div on ⟨7, 3, 4, 0⟩) = 0xFFFFFFFFFFFFFFFD ∧ x7 ab (.rem on ⟨7, 3, 4, 0⟩) = 0xFFFFFFFFFFFFFFFF ∧
    x7 ab (.divu on ⟨7, 3, 4, 0⟩) = 0x7FFFFFFFFFFFFFFC ∧ x7 ab (.remu on ⟨7, 3, 4, 0⟩) = 1 ∧ x7 ab (.div on ⟨7, 5, 6, 0⟩) = 0xFFFFFFFFFFFFFFFF ∧
    x7 ab (.remu on ⟨7, 5, 6, 0⟩) = 5 := by decide +kernel
theorem test_scalar_corners : let ab : FMap Dword := [(1, 0x8000000000000000), (2, 0xFFFFFFFFFFFFFFFF), (3, 65), (4, 1)]
    x7 ab (.add on ⟨7, 2, 4, 0⟩) = 0 ∧ x7 ab (.sub on ⟨7, 4, 2, 0⟩) = 2 ∧ x7 ab (.mulh on ⟨7, 2, 2, 0⟩) = 0 ∧ x7 ab (.mulhu on ⟨7, 2, 2, 0⟩) = 0xFFFFFFFFFFFFFFFE ∧
    x7 ab (.shl on ⟨7, 4, 3, 0⟩) = 2 ∧ x7 ab (.sra on ⟨7, 1, 3, 0⟩) = 0xC000000000000000 ∧ x7 ab (.min on ⟨7, 1, 4, 0⟩) = 0x8000000000000000 ∧
    x7 ab (.minu on ⟨7, 1, 4, 0⟩) = 1 ∧ x7 ab (.clz on ⟨7, 4, 0, 0⟩) = 63 ∧ x7 ab (.ctz on ⟨7, 6, 0, 0⟩) = 64 ∧ x7 ab (.popc on ⟨7, 2, 0, 0⟩) = 64 ∧
    x7 ab (.addi on ⟨7, 4, 0x3FFFFFFFF⟩) = 0 ∧ x7 ab (.bfx on ⟨7, 1, 60, 3⟩) = 8 ∧ x7 ab (.sel on ⟨7, 1, 4, 0⟩) = 0x8000000000000000 ∧ x7 ab (.sel on ⟨7, 1, 4, 3⟩) = 1 := by decide +kernel
/-- Lane 0 of what a V operation writes to v4, from lanes of its three sources. -/
def v4 (a b d : BitVec 32) (i : Instr) : Nat :=
  match exec i (vecs.onCore fun k => { k with v := [(1, mkVec fun _ => a), (2, mkVec fun _ => b), (5, mkVec fun _ => d)], freed := 0 }) with
  | .next t => (lane (vAt t 4 15) 127).toNat
  | _ => 0
/-- The example of R288, signed elements of it, and the saturating add at its ends. -/
theorem test_dot_products : v4 0xFFFFFFFF 0xFFFFFFFF 0x7FFF0000 (.vdot4sUU ⟨3, 0, false⟩ ⟨4, 1, 2, 5, 0, 0⟩) = 0x7FFFFFFF ∧
    v4 0xFFFFFFFF 0xFFFFFFFF 0x7FFF0000 (.vdot4UU ⟨3, 0, false⟩ ⟨4, 1, 2, 5, 0, 0⟩) = 0x8002F804 ∧
    v4 0xFFFFFFFF 0xFFFFFFFF 0 (.vdot4SS ⟨3, 0, false⟩ ⟨4, 1, 2, 5, 0, 0⟩) = 4 ∧ v4 0xFFFFFFFF 0xFFFFFFFF 0 (.vdot8SU ⟨3, 0, false⟩ ⟨4, 1, 2, 5, 0, 0⟩) = 0xFFFFFF88 ∧
    v4 0x80000000 0xFFFFFFFF 0 (.vadds on ⟨4, 1, 2, 0, 0, 0⟩) = 0x80000000 := by decide +kernel
/-- 1 + 2^-24 is a tie and stays 1; 1 + 2^-24 + 2^-47 is above it; a fused product keeps the low bit; NaN is 0x7FC00000; -0 is below +0. -/
theorem test_float_rounding : v4 0x3F800000 0x33800000 0 (.vfadd ⟨4, 0, false⟩ ⟨4, 1, 2, 0, 0, 0⟩) = 0x3F800000 ∧
    v4 0x3F800000 0x33800001 0 (.vfadd ⟨4, 0, false⟩ ⟨4, 1, 2, 0, 0, 0⟩) = 0x3F800001 ∧
    v4 0x3F800001 0x3F800001 0xBF800002 (.vfma ⟨4, 0, false⟩ ⟨4, 1, 2, 5, 0, 0⟩) = 0x28800000 ∧
    v4 0x7F800000 0xFF800000 0 (.vfadd ⟨4, 0, false⟩ ⟨4, 1, 2, 0, 0, 0⟩) = 0x7FC00000 ∧
    v4 0x80000000 0 0 (.vfmin ⟨2, 0, false⟩ ⟨4, 1, 2, 0, 0, 0⟩) = 0x80000000 ∧ v4 0x7F7FFFFF 0x7F7FFFFF 0 (.vfadd ⟨4, 0, false⟩ ⟨4, 1, 2, 0, 0, 0⟩) = 0x7F800000 ∧
    v4 0x00000001 0x3F000000 0 (.vfmul ⟨4, 0, false⟩ ⟨4, 1, 2, 0, 0, 0⟩) = 0 := by decide +kernel
/-- 2.5 rounds to 2, 3.5 to 4; RTZ drops; out of range and NaN. -/
theorem test_conversions : v4 0x40200000 0 0 (.vcvtIntF32 ⟨4, 0, false⟩ ⟨4, 1, 0, 0, 0, 0⟩) = 2 ∧ v4 0x40600000 0 0 (.vcvtIntF32 ⟨4, 0, false⟩ ⟨4, 1, 0, 0, 0, 0⟩) = 4 ∧
    v4 0xC0600000 0 0 (.vcvtIntF32Rtz ⟨4, 0, false⟩ ⟨4, 1, 0, 0, 0, 0⟩) = 0xFFFFFFFD ∧ v4 0x4F800000 0 0 (.vcvtIntF32 ⟨4, 0, false⟩ ⟨4, 1, 0, 0, 0, 0⟩) = 0x7FFFFFFF ∧
    v4 0xFFFFFFFF 0 0 (.vcvtF32Uint ⟨4, 0, false⟩ ⟨4, 1, 0, 0, 0, 0⟩) = 0x4F800000 := by decide +kernel
/-- The largest codes of the table of R206: E4M3 480, E5M2 114,688, E3M2 28, E2M1 6, INT8 127, UINT8 255. -/
theorem test_narrow_largest : (⟨8, 1, 4, 7, false, 0, 0, 0⟩ : NFmt).decode 0x7F = .fin false 15 5 ∧ (⟨8, 1, 5, 15, false, 0, 0, 0⟩ : NFmt).decode 0x7F = .fin false 7 14 ∧
    (⟨6, 1, 3, 3, false, 0, 0, 0⟩ : NFmt).decode 0x1F = .fin false 7 2 ∧ (⟨4, 1, 2, 1, false, 0, 0, 0⟩ : NFmt).decode 7 = .fin false 3 1 ∧
    (⟨8, 1, 0, 0, false, 0, 0, 0⟩ : NFmt).decode 0x7F = .fin false 127 0 ∧ (⟨8, 0, 0, 0, false, 0, 0, 0⟩ : NFmt).decode 0xFF = .fin false 255 0 := by decide +kernel
/-- The first known answer of Philox4x32-10 as its authors publish it (R296 names the generator). -/
theorem test_philox : philox 0 0 0 = [0x6627E8D5, 0xE169C58D, 0xBC57AC4C, 0x9B00DBD8] := by decide +kernel
/-- The digest of "abc" in FIPS 180-4, and test case 13 of AES-256-GCM as its authors publish it. -/
theorem test_hash_and_seal : (toBytes 32 (sha256 (bytes [97, 98, 99])).toNat).foldl (fun a b => 256 * a + b.toNat) 0 = 0xBA7816BF8F01CFEA414140DE5DAE2223B00361A396177A9CB410FF61F20015AD ∧
    gcmTag (List.replicate 32 0) (List.replicate 12 0) [] [] = bytes [0x53, 0x0F, 0x8A, 0xFB, 0xC7, 0x45, 0x36, 0xB9, 0xA9, 0x63, 0xB4, 0xF1, 0xC4, 0xCB, 0x73, 0x8B] := by
  decide +kernel
/-- `STW` writes four bytes and leaves the fifth; `LDH` sign-extends; `AMO` ADD of 32 bits returns the old word. -/
theorem test_memory : (match exec (.stw ⟨0, 0, false⟩ ⟨2, 1, 0, 0, 4⟩) (with_ [(1, 0), (2, 0xFFFFFFFF11223344)]) with
      | .next t => t.mem.readLE 0x400000220004 5 == 0xFF11223344
      | _ => false) = true ∧
    (match exec (.ldh ⟨0, 0, false⟩ ⟨7, 1, 0, 0, 6⟩) (with_ []) with
      | .next t => (xAt t 7 1).toNat == 0xFFFFFFFFFFFF8000
      | _ => false) = true ∧
    (match exec (.amo ⟨0, 0, false⟩ ⟨7, 1, 2, 0, 0, 0, 0, 0⟩) (with_ [(1, 8), (2, 2)]) with
      | .next t => (xAt t 7 1).toNat == 0xFF && t.mem.readLE 0x400000220008 4 == 0x101
      | _ => false) = true := by decide +kernel
/-- A TRAP from PL0 of partition 3 enters PL1: EPC1 is the PC, ESTAT1 is 4, ECAUSE1 is 0x50 with the code, and ERET goes back. -/
theorem test_trap : let s := { mapped fun k => { k with pl := 0, part := 3, pc := 0x40 } with csrs := [(0x023, 0x4000)] }
    let t := (s.enterTrap 9).core
    t.pl = 1 ∧ t.pc = 0x4000 ∧ t.epc1 = 0x40 ∧ t.estat1 = 4 ∧ t.ecause1 = 0x90050 ∧ ((s.enterTrap 9).leaveTrap).core.pc = 0x40 ∧
    ((s.enterTrap 9).leaveTrap).core.pl = 0 := by decide +kernel
/-- A step runs the bundle that is placed: ADD x3 = x4 + x5 of zeros, and the PC moves over 12 bytes. -/
theorem test_step : nextAnd (step oneAdd) (fun t => decide ((t.coreAt 255).pc = 12) && decide (t.tick = 1)) = true := by decide +kernel

end Sys2Proof.Tests
end

section
/-! PROOFS. The pages and lines that a scalar access runs over (R16, R327). -/

namespace Sys2Proof.Machine

open Sys2Proof.Safety

/-! ### Runs of an access, by pages -/

theorem State.smAddr_lt (s : State) (o : SM) : s.smAddr o < 2 ^ 52 := Nat.mod_lt _ (by decide)

@[simp] theorem pieces_zero (g fuel a : Nat) : pieces g fuel a 0 = [] := by cases fuel <;> simp [pieces]

/-- A run that does not leave its block is one piece. -/
theorem pieces_one {g a n : Nat} (fuel : Nat) (hn : 0 < n) (h : a % g + n ≤ g) : pieces g (fuel + 2) a n = [(a, n)] := by
  have hm : min n (g - a % g) = n := by omega
  simp [pieces, hm, Nat.ne_of_gt hn]

/-- A run that reaches into the next block and not beyond it is two pieces. -/
theorem pieces_two {g a n : Nat} (fuel : Nat) (h : g - a % g < n) (hg : a % g < g) (hn : n ≤ g) :
    pieces g (fuel + 2) a n = [(a, g - a % g), (a + (g - a % g), n - (g - a % g))] := by
  have h1 : min n (g - a % g) = g - a % g := by omega
  have h2 : (a + (g - a % g)) % g = 0 := by
    have : a + (g - a % g) = g * (a / g + 1) := by
      have := Nat.div_add_mod a g
      rw [Nat.mul_add]
      omega
    rw [this, Nat.mul_mod_right]
  have h3 : min (n - (g - a % g)) (g - (a + (g - a % g)) % g) = n - (g - a % g) := by omega
  have h4 : n ≠ 0 := by omega
  have h5 : n - (g - a % g) ≠ 0 := by omega
  simp [pieces, h1, h3, h4, h5]

/-- The sizes of a scalar access. -/
def ScalarSize (n : Nat) : Prop := n = 1 ∨ n = 2 ∨ n = 4 ∨ n = 8

theorem ScalarSize.pos {n : Nat} (h : ScalarSize n) : 0 < n := by unfold ScalarSize at h; omega
theorem ScalarSize.le {n : Nat} (h : ScalarSize n) : n ≤ 8 := by unfold ScalarSize at h; omega

/-- A naturally aligned scalar access lies in one block of any multiple of eight bytes. -/
theorem ScalarSize.fits {n va g : Nat} (h : ScalarSize n) (ha : va % n = 0) (hg : 8 ∣ g) (h0 : 0 < g) : va % g + n ≤ g := by
  have hlt := Nat.mod_lt va h0
  have hdvd : n ∣ g := by
    rcases h with rfl | rfl | rfl | rfl <;> omega
  have hmod : n ∣ va % g := (Nat.dvd_mod_iff hdvd).2 (Nat.dvd_of_mod_eq_zero ha)
  obtain ⟨k, hk⟩ := hdvd
  obtain ⟨j, hj⟩ := hmod
  rw [hj, hk] at hlt ⊢
  have : j + 1 ≤ k := Nat.lt_of_mul_lt_mul_left hlt
  calc n * j + n = n * (j + 1) := (Nat.mul_succ n j).symm
    _ ≤ n * k := Nat.mul_le_mul_left n this

/-- A scalar access in one translation is one page piece. -/
theorem pagePieces_one {va n : Nat} (hn : 0 < n) (h : va % pageStep va + n ≤ pageStep va) : pagePieces va n = [(va, n)] :=
  pieces_one _ hn h

theorem pagePieces_aligned {va n : Nat} (h : ScalarSize n) (ha : va % n = 0) : pagePieces va n = [(va, n)] := by
  refine pagePieces_one h.pos (h.fits ha ?_ ?_) <;> unfold pageStep <;> split <;> decide

/-- Outside the host window a translation covers 64 KiB (R16). -/
theorem pageStep_of_notMeetsHost {va n : Nat} (h : meetsHost va n = false) : pageStep va = 65536 := by
  unfold meetsHost at h
  rw [pageStep, (Bool.or_eq_false_iff.1 h).1, if_neg Bool.false_ne_true]

end Sys2Proof.Machine
end

section
/-! PROOFS. Loads in the host window, and an answer that is longer than its access (R141, R326, R328). -/

namespace Sys2Proof.Machine

open Sys2Proof.Safety

/-! ### Loads of what the host has delivered (R141, R326, R328) -/

/-- A read in the host window that the host has answered takes the answer as it stands. -/
theorem loadBytes_given {va n : Nat} {bs : List Byte} {s : State} (hp : pagePieces va n = [(va, n)]) (hva : va < 2 ^ 52)
    (hh : inHost va = true) (hg : s.hostGiven s.cur (hostKey s.core.asid va n 3) = some bs) : loadBytes va n s = .ok (bs, s) := by
  simp [-Nat.reducePow, loadBytes, loadEvent, srcPages, hp, srcOf, hostHas, Nat.mod_eq_of_lt hva, hh, hg, Src.read]

/-- A plain load whose bytes can be loaded. -/
theorem loadOp_plain {c : Ctl} {o : SM} {s s1 : State} {n : Nat} {signed : Bool} {bs : List Byte} (on : s.enabled c = true) (ho : o.ord = 0)
    (ha : s.smAddr o % n = 0) (h : loadBytes (s.smAddr o) n s = .ok (bs, s1)) :
    loadOp n signed c o s = .next (s1.putX o.xd.toNat (extend n signed (ofBytes bs)) 1) := by
  rw [loadOp, slotOp_on on]
  refine runSlot_ok (u := ()) ?_
  have hneed : (s.smAddr o % n == 0 || (o.ord == 0 && !meetsHost (s.smAddr o) n)) = true := by simp [ha]
  simp only [M.bind_run, M.get_run, hneed, M.need_true, M.pure_run, if_pos ho, h, M.change_run]

/-- A core whose `LDBU` at the first byte of the host window has been answered with two bytes, 0 and 1. The host interface keeps no such
answer (`execHostCompletion` drops one whose length is not that of the request), but it is a value of `State`. -/
def longAnswer : State :=
  State.reset.onCore fun k =>
    { k with x := [(2, 0xF000000000000)], issue := { k.issue with given := [(hostKey k.asid 0xF000000000000 1 3, [0, 1])] } }

/-- `LDBU x1, [x2]`, always enabled. -/
def longLoad : SM := ⟨1, 2, 0, 0, 0⟩

theorem longAnswer_enabled : longAnswer.enabled ⟨0, 0, false⟩ = true := by decide +kernel

theorem longAnswer_smAddr : longAnswer.smAddr longLoad = 0xF000000000000 := by decide +kernel

theorem longAnswer_hostGiven :
    longAnswer.hostGiven longAnswer.cur (hostKey longAnswer.core.asid (longAnswer.smAddr longLoad) 1 3) = some [0, 1] := by decide +kernel

/-- The load delivers the whole answer, 256, which is no byte. -/
theorem exec_longLoad : exec (.ldbu ⟨0, 0, false⟩ longLoad) longAnswer = .next (longAnswer.putX 1 256 1) :=
  loadOp_plain (n := 1) (signed := false) (bs := [0, 1]) longAnswer_enabled rfl (Nat.mod_one _)
    (loadBytes_given (pagePieces_aligned (.inl rfl) (Nat.mod_one _)) (State.smAddr_lt _ _) (by rw [longAnswer_smAddr]; decide)
      longAnswer_hostGiven)

/-- Two writes of an x register in an issue give the same state only if they write the same value. -/
theorem State.putX_injective {s : State} {r : Nat} (hr : r ≠ 0) {v w : Dword} {lat : Nat} (h : s.putX r v lat = s.putX r w lat) : v = w := by
  have hread (u : Dword) : xAt (s.putX r u lat) r (s.core.issueNo + lat) = u := by
    have hu := wroteX_putX s r u lat
    rw [WroteX, if_neg hr] at hu
    exact hu.1 _ (Nat.le_refl _)
  rw [← hread v, h, hread w]

/-- Refutes O35: the statement takes the low byte of what the host has delivered to an `LDBU`, where the model zero-extends the bytes as they
stand; in `longAnswer`, whose answer is two bytes long, the one writes 0 and the other 256. -/
theorem not_loads : ¬ Obligations.Loads := by
  unfold Obligations.Loads
  intro h
  obtain ⟨-, hops, -⟩ := h ⟨0, 0, false⟩ longLoad longAnswer longAnswer_enabled
  obtain ⟨-, -, -, hhost⟩ := hops (.ldbu, 1, false) (by simp)
  obtain ⟨hplain, -⟩ := hhost (Nat.mod_one _) (by rw [longAnswer_smAddr]; decide)
  obtain ⟨hgiven, -⟩ := hplain rfl
  have hstated : exec (.ldbu ⟨0, 0, false⟩ longLoad) longAnswer = .next (longAnswer.putX 1 0 1) := hgiven [0, 1] longAnswer_hostGiven
  rw [exec_longLoad, Host.Outcome.next.injEq] at hstated
  exact absurd (State.putX_injective (by decide) hstated) (by decide)

end Sys2Proof.Machine
end

section
/-! PROOFS. What the program of a store comes to: one store event for each page, or MISALIGN (R326 to R330). -/

namespace Sys2Proof.Machine

open Sys2Proof.Safety

/-! ### The bytes of a store -/

theorem toBytes_length (n v : Nat) : (toBytes n v).length = n := by
  induction n generalizing v with
  | zero => rfl
  | succ n ih => simp [toBytes, ih]

theorem toBytes_getElem {n v i : Nat} (h : i < (toBytes n v).length) : (toBytes n v)[i] = BitVec.ofNat 8 (v / 256 ^ i) := by
  induction n generalizing v i with
  | zero => simp [toBytes] at h
  | succ n ih =>
    cases i with
    | zero => simp [toBytes]
    | succ i => simp only [toBytes, List.getElem_cons_succ, ih, Nat.div_div_eq_div_mul, Nat.pow_succ']

/-- The bytes of `x` from its byte `off` on, at `m` addresses from `a` on. -/
def bytesAt (x : Dword) (a off m : Nat) : List Host.Cell := (List.range m).map fun i => (a + i, x.extractLsb' (8 * (off + i)) 8)

theorem bytesAt_zero (x : Dword) (a m : Nat) : bytesAt x a 0 m = (List.range m).map fun i => (a + i, x.extractLsb' (8 * i) 8) := by
  simp [bytesAt]

@[simp] theorem bytesAt_length (x : Dword) (a off m : Nat) : (bytesAt x a off m).length = m := by simp [bytesAt]

/-- What is left of a register's bytes after some, placed with their offsets. -/
theorem place_offsets (x : Dword) (a : Nat) {n off m : Nat} (h : off + m ≤ n) :
    ((offsets (((toBytes n x.toNat).drop off).take m)).map fun b => (a + b.1, b.2)) = bytesAt x a off m := by
  have hlen := toBytes_length n x.toNat
  have hlengths : ((offsets (((toBytes n x.toNat).drop off).take m)).map fun b => (a + b.1, b.2)).length = (bytesAt x a off m).length := by
    simp only [offsets, List.length_map, List.length_mapIdx, List.length_take, List.length_drop, hlen, bytesAt_length]
    omega
  refine List.ext_getElem hlengths fun i h1 h2 => ?_
  have hp : (256 : Nat) ^ (off + i) = 2 ^ (8 * (off + i)) := by rw [Nat.pow_mul]
  simp [offsets, bytesAt, toBytes_getElem, BitVec.extractLsb', Nat.shiftRight_eq_div_pow, hp]

theorem State.heldOf_dev (s : State) (x : Dword) (pa asid : Nat) (t : LineTag) (nt bytes : Bool) (rel : Option Nat)
    {n off m : Nat} (h : off + m ≤ n) :
    s.heldOf (.dev pa t) asid nt rel (offsets (((toBytes n x.toNat).drop off).take m)) bytes =
      ⟨bytesAt x pa off m, t, none, asid, nt, s.writeRels rel, bytes⟩ := by
  rw [State.heldOf, place_offsets x pa h]

theorem State.heldOf_host (s : State) (x : Dword) (fn pasid addr xaddr asid : Nat) (nt bytes : Bool) (rel : Option Nat)
    {n off m : Nat} (h : off + m ≤ n) :
    s.heldOf (.host fn pasid addr xaddr) asid nt rel (offsets (((toBytes n x.toNat).drop off).take m)) bytes =
      ⟨bytesAt x addr off m, .plain, some ⟨fn, pasid, addr / 4096, xaddr / 4096⟩, asid, nt, s.writeRels rel, bytes⟩ := by
  rw [State.heldOf, place_offsets x addr h]

/-! ### The program of a store (R326 to R330) -/

/-- No watchpoint of the task's own job names bytes at a place (R378). -/
def State.Unwatched (s : State) (pa n : Nat) : Prop := ∀ w ∈ s.watchHits pa n, s.watchMc w ≠ s.core.mcid

theorem needUnwatched_run {s : State} {va pa n : Nat} (h : s.Unwatched pa n) : needUnwatched va pa n s = .ok ((), s) := by
  have hn : ((s.watchHits pa n).any fun w => s.watchMc w == s.core.mcid) = false := by
    simpa [State.Unwatched] using h
  simp [needUnwatched, hn]

/-- A store to one page of device memory. -/
theorem storeBytes_dev {va pa n : Nat} {x : Dword} {t : LineTag} {nt : Bool} {rel : Option Nat} {s s1 : State}
    (hp : pagePieces va n = [(va, n)]) (hva : va < 2 ^ 52) (hx : xlateTask va .write s = .ok (.dev pa t, s1)) (hw : s1.Unwatched pa n) :
    storeBytes va (toBytes n x.toNat) nt rel s =
      .ok ((), s1.storeEvent nt ⟨bytesAt x pa 0 n, t, none, s1.core.asid, nt, s1.writeRels rel, bytewise va n⟩) := by
  have hh := s1.heldOf_dev x pa s1.core.asid t nt (bytewise va n) rel (n := n) (off := 0) (m := n) (by omega)
  rw [List.drop_zero] at hh
  simp [-Nat.reducePow, storeBytes, xlatePages, toBytes_length, hp, Nat.mod_eq_of_lt hva, hx, needUnwatched_run hw, hh]

/-- A store to one page of the host window. -/
theorem storeBytes_host {va n fn pasid addr xaddr : Nat} {x : Dword} {nt : Bool} {rel : Option Nat} {s s1 : State}
    (hp : pagePieces va n = [(va, n)]) (hva : va < 2 ^ 52) (hx : xlateTask va .write s = .ok (.host fn pasid addr xaddr, s1)) :
    storeBytes va (toBytes n x.toNat) nt rel s =
      .ok ((), s1.storeEvent nt ⟨bytesAt x addr 0 n, .plain, some ⟨fn, pasid, addr / 4096, xaddr / 4096⟩, s1.core.asid, nt, s1.writeRels rel,
        bytewise va n⟩) := by
  have hh := s1.heldOf_host x fn pasid addr xaddr s1.core.asid nt (bytewise va n) rel (n := n) (off := 0) (m := n) (by omega)
  rw [List.drop_zero] at hh
  simp [-Nat.reducePow, storeBytes, xlatePages, toBytes_length, hp, Nat.mod_eq_of_lt hva, hx, hh]

/-- A store across two pages of device memory: both translate before either part is written (R327). -/
theorem storeBytes_split {va n m pa pb : Nat} {x : Dword} {t u : LineTag} {nt : Bool} {rel : Option Nat} {s s1 s2 : State}
    (hp : pagePieces va n = [(va, m), (va + m, n - m)]) (hm : m ≤ n) (hva : va < 2 ^ 52) (hx : xlateTask va .write s = .ok (.dev pa t, s1))
    (hy : xlateTask ((va + m) % 2 ^ 52) .write s1 = .ok (.dev pb u, s2)) (hw : s2.Unwatched pa m) (hv : s2.Unwatched pb (n - m)) :
    let s3 := s2.storeEvent nt ⟨bytesAt x pa 0 m, t, none, s2.core.asid, nt, s2.writeRels rel, bytewise va n⟩
    storeBytes va (toBytes n x.toNat) nt rel s =
      .ok ((), s3.storeEvent nt ⟨bytesAt x pb m (n - m), u, none, s3.core.asid, nt, s3.writeRels rel, bytewise va n⟩) := by
  have h1 := s2.heldOf_dev x pa s2.core.asid t nt (bytewise va n) rel (n := n) (off := 0) (m := m) (by omega)
  have h2 (s3 : State) := s3.heldOf_dev x pb s3.core.asid u nt (bytewise va n) rel (n := n) (off := m) (m := n - m) (by omega)
  rw [List.drop_zero] at h1
  simp [-Nat.reducePow, storeBytes, xlatePages, toBytes_length, hp, Nat.mod_eq_of_lt hva, hx, hy, needUnwatched_run hw, needUnwatched_run hv, h1, h2]

section Store

variable {c : Ctl} {o : SM} {s t : State} {n : Nat} {nt : Bool}

/-- A plain store whose bytes can be stored. -/
theorem storeOp_plain (on : s.enabled c = true) (ho : o.ord = 0) (ha : s.smAddr o % n = 0 ∨ (meetsHost (s.smAddr o) n = false ∧ nt = false))
    (h : storeBytes (s.smAddr o) (toBytes n (s.getX o.xd.toNat).toNat) nt none s = .ok ((), t)) : storeOp n nt c o s = .next t := by
  rw [storeOp, slotOp_on on]
  refine runSlot_ok (u := ()) ?_
  have hneed : (s.smAddr o % n == 0 || (o.ord == 0 && !meetsHost (s.smAddr o) n && !nt)) = true := by
    rcases ha with ha | ⟨ha, rfl⟩ <;> simp [ha, ho]
  simp only [M.bind_run, M.get_run, hneed, M.need_true, M.pure_run, if_pos ho, h]

/-- A store that is a release, or is marked as one, whose bytes can be stored: the held stores leave first (R127). -/
theorem storeOp_release (on : s.enabled c = true) (ho : o.ord ≠ 0) (ha : s.smAddr o % n = 0)
    (h : storeBytes (s.smAddr o) (toBytes n (s.getX o.xd.toNat).toNat) nt (if nt then none else some o.scope.toNat) s.endRegion = .ok ((), t)) :
    storeOp n nt c o s = .next t := by
  rw [storeOp, slotOp_on on]
  refine runSlot_ok (u := ()) ?_
  have hneed : (s.smAddr o % n == 0 || (o.ord == 0 && !meetsHost (s.smAddr o) n && !nt)) = true := by simp [ha]
  simp only [M.bind_run, M.get_run, hneed, M.need_true, M.pure_run, if_neg ho, ordering, M.leaving_run, M.change_run, h]

/-- A store at an address that its size and kind do not allow (R328, R329). -/
theorem storeOp_misaligned (on : s.enabled c = true) (ha : s.smAddr o % n ≠ 0)
    (hb : o.ord ≠ 0 ∨ meetsHost (s.smAddr o) n = true ∨ nt = true) :
    storeOp n nt c o s = .next (s.recFault ⟨0x05, 0, 0, BitVec.ofNat 192 (s.smAddr o + 2 ^ 52)⟩ []) := by
  rw [storeOp, slotOp_on on]
  have hfault : misalign (s.smAddr o) true = ⟨0x05, 0, 0, BitVec.ofNat 192 (s.smAddr o + 2 ^ 52)⟩ := by
    simp [-Nat.reducePow, misalign, vaInfo, Nat.mod_eq_of_lt (s.smAddr_lt o)]
  have hneed : (s.smAddr o % n == 0 || (o.ord == 0 && !meetsHost (s.smAddr o) n && !nt)) = false := by
    rw [beq_eq_false_iff_ne.2 ha]
    rcases hb with hb | hb | hb
    · rw [beq_eq_false_iff_ne.2 hb]; rfl
    · simp [hb]
    · simp [hb]
  refine runSlot_fault ?_
  rw [← hfault]
  simp only [M.bind_run, M.get_run, hneed, M.need_false, M.stop_run]

end Store

end Sys2Proof.Machine
end

section
/-! PROOFS. A store event in the host window: the posted write that leaves (R48, R141). -/

namespace Sys2Proof.Machine

/-! ### A store that nothing holds back -/

/-- Where the region is not restartable and no non-temporal store is pending, a store takes place at once. -/
theorem State.storeEvent_direct {s : State} (hr : s.core.restart = false) (hq : s.core.ntq = []) (h : Held) :
    s.storeEvent false h = s.performHeld h := by
  simp [State.storeEvent, hr, hq]

/-- A release at `.SYS` is carried even where nothing is before it (R141). -/
theorem State.anySys_writeRels (s : State) : anySys (s.writeRels (some 4)) = true := by
  simp [anySys, State.writeRels, State.release]

/-- Bytes that lie next to each other are one run. -/
theorem runsOf_bytesAt (x : Dword) (a off m : Nat) : runsOf (bytesAt x a off (m + 1)) = [bytesAt x a off (m + 1)] := by
  have hcons (a off m : Nat) : bytesAt x a off (m + 1) = (a, x.extractLsb' (8 * off) 8) :: bytesAt x (a + 1) (off + 1) m := by
    simp only [bytesAt, List.range_succ_eq_map, List.map_cons, List.map_map, Nat.add_zero, List.cons.injEq, true_and]
    refine List.map_congr_left fun i _ => ?_
    simp only [Function.comp_apply, Nat.succ_eq_add_one, Nat.add_assoc, Nat.add_comm 1 i]
  induction m generalizing a off with
  | zero => rfl
  | succ m ih =>
    have hrest := ih (a + 1) (off + 1)
    rw [hcons (m := m + 1)]
    rw [hcons] at hrest ⊢
    unfold runsOf at hrest ⊢
    rw [List.foldr_cons, hrest]
    simp

/-- A posted write leaves with the bytes of the store, in order where it carries a release at `.SYS` (R48, R141). -/
theorem State.storeEvent_host {s : State} (hr : s.core.restart = false) (hq : s.core.ntq = []) {n : Nat} (hn : 0 < n) (x : Dword)
    (fn pasid addr xaddr asid : Nat) (nt bytes : Bool) (rel : Option Nat) :
    ∃ relaxed : Bool, (rel = some 4 → relaxed = false) ∧
      s.storeEvent false ⟨bytesAt x addr 0 n, .plain, some ⟨fn, pasid, addr / 4096, xaddr / 4096⟩, asid, nt, s.writeRels rel, bytes⟩ =
        { s with out := .hostWrite fn (xaddr / 4096 * 4096 + addr % 4096) ((List.range n).map fun i => x.extractLsb' (8 * i) 8) false relaxed ::
            s.out } := by
  obtain ⟨m, rfl⟩ := Nat.exists_eq_succ_of_ne_zero (Nat.ne_of_gt hn)
  refine ⟨!anySys (s.writeRels rel) &&
    (Config.free 1 s.tick .order (4096 * (xaddr / 4096) + addr % 4096) (fn + 2 ^ 64)) == 1, ?_, ?_⟩
  · rintro rfl
    rw [State.anySys_writeRels]
    rfl
  · have hhead : ((bytesAt x addr 0 (m + 1)).head?.elim 0 (·.1)) = addr := by simp [bytesAt, List.range_succ_eq_map]
    have hdata : (bytesAt x addr 0 (m + 1)).map (·.2) = (List.range (m + 1)).map fun i => x.extractLsb' (8 * i) 8 := by
      rw [bytesAt_zero, List.map_map]
      rfl
    rw [State.storeEvent_direct hr hq]
    simp only [State.performHeld, State.sendHeld, runsOf_bytesAt, List.foldl_cons, List.foldl_nil, State.postHost, hhead, hdata,
      Nat.mul_comm 4096]

end Sys2Proof.Machine
end

section
/-! PROOFS. What a store event in device memory writes, records and leaves alone (R27, R97, R118, R126, R127). -/

namespace Sys2Proof.Machine

/-! ### What a store event may change -/

/-- Of a core a store event changes its L1, the task's view, a `WAITA` that it sleeps at, and the value that has woken it. -/
def Core.StoreOnly (k l : Core) : Prop :=
  l = { k with l1 := l.l1, view := l.view, wait := l.wait, issue := { k.issue with woken := l.issue.woken } }

/-- Of the package a store event to device memory changes memory with the keys of its lines, the record of writes, what it writes through of
pooled memory, VCLOCK, and the cores by `Core.StoreOnly`. -/
def State.StoreOnly (s t : State) : Prop :=
  (∀ m, (s.coreAt m).StoreOnly (t.coreAt m)) ∧
  t = { s with mem := t.mem, lineTag := t.lineTag, cores := t.cores, hist := t.hist, writes := t.writes, cxl := t.cxl, vclock := t.vclock }

theorem Core.StoreOnly.refl (k : Core) : k.StoreOnly k := rfl

theorem Core.StoreOnly.trans {k l m : Core} (h : k.StoreOnly l) (g : l.StoreOnly m) : k.StoreOnly m :=
  Eq.trans g (congrArg (fun l : Core => { l with
    l1 := m.l1, view := m.view, wait := m.wait, issue := { l.issue with woken := m.issue.woken } }) h)

theorem State.StoreOnly.refl (s : State) : s.StoreOnly s := ⟨fun _ => .refl _, rfl⟩

theorem State.StoreOnly.trans {s t u : State} (h : s.StoreOnly t) (g : t.StoreOnly u) : s.StoreOnly u :=
  ⟨fun m => (h.1 m).trans (g.1 m), Eq.trans g.2 (congrArg (fun t : State => { t with
    mem := u.mem, lineTag := u.lineTag, cores := u.cores, hist := u.hist, writes := u.writes, cxl := u.cxl, vclock := u.vclock }) h.2)⟩


/-- A core replaced by one that a store event may make of it. -/
theorem State.storeOnly_setCoreAt {s : State} {n : Nat} {k : Core} (h : (s.coreAt n).StoreOnly k) : s.StoreOnly (s.setCoreAt n k) := by
  refine ⟨fun m => ?_, rfl⟩
  rw [State.coreAt_setCoreAt]
  split
  · next e => exact e ▸ h
  · exact .refl _

/-! ### The parts of a store event that write no memory -/

/-- A change that leaves memory and the record of writes alone, and is one that a store event may make. -/
def State.Quiet (s t : State) : Prop := s.SameStore t ∧ s.StoreOnly t

theorem State.Quiet.refl (s : State) : s.Quiet s := ⟨.refl s, .refl s⟩
theorem State.Quiet.trans {s t u : State} (h : s.Quiet t) (g : t.Quiet u) : s.Quiet u := ⟨h.1.trans g.1, h.2.trans g.2⟩

theorem State.quiet_foldl {α : Type} {f : State → α → State} (hf : ∀ (s : State) (a : α), s.Quiet (f s a)) (l : List α) (s : State) :
    s.Quiet (l.foldl f s) := by
  induction l generalizing s with
  | nil => exact .refl s
  | cons a l ih => exact (hf s a).trans (ih _)

theorem State.quiet_setCoreAt {s : State} {n : Nat} {k : Core} (h : (s.coreAt n).StoreOnly k) : s.Quiet (s.setCoreAt n k) :=
  ⟨s.sameStore_setCoreAt n k, State.storeOnly_setCoreAt h⟩

theorem State.quiet_l1Update (s : State) (id pa : Nat) (b : Byte) : s.Quiet (s.l1Update id pa b) := by
  unfold State.l1Update
  dsimp only
  split
  · exact .refl s
  · exact State.quiet_setCoreAt rfl

theorem State.quiet_wrote (s : State) (nt : Bool) (ids : List Nat) : s.Quiet (s.wrote nt ids) := by
  unfold State.wrote
  split
  · exact .refl s
  · exact State.quiet_setCoreAt rfl

theorem State.quiet_crosses (s : State) (die pa : Nat) : s.Quiet (s.crosses die pa) := by
  unfold State.crosses
  dsimp only
  split
  · exact .refl s
  · exact ⟨⟨rfl, rfl, rfl, rfl, rfl, rfl, rfl⟩, fun _ => .refl _, rfl⟩

/-! ### Bytes written under a key -/

/-- Cells written one after the other under a key. -/
def State.wrCells (s : State) (t : LineTag) (cs : List Host.Cell) : State := cs.foldl (fun s c => s.wrByte t c.1 c.2) s

@[simp] theorem State.wrCells_cons (s : State) (t : LineTag) (c : Host.Cell) (cs : List Host.Cell) :
    s.wrCells t (c :: cs) = (s.wrByte t c.1 c.2).wrCells t cs := rfl

theorem State.storeOnly_wrByte (s : State) (t : LineTag) (pa : Nat) (b : Byte) : s.StoreOnly (s.wrByte t pa b) := by
  unfold State.wrByte State.retag
  split <;> exact ⟨fun _ => .refl _, rfl⟩

theorem State.storeOnly_wrCells (s : State) (t : LineTag) (cs : List Host.Cell) : s.StoreOnly (s.wrCells t cs) := by
  induction cs generalizing s with
  | nil => exact .refl s
  | cons c cs ih => exact (s.storeOnly_wrByte t c.1 c.2).trans (ih _)

/-- The tag depends on the line alone. -/
theorem tagAt_congr (t : LineTag) {a b : Nat} (h : a / 64 = b / 64) : tagAt t a = tagAt t b := by
  have : a % 2 ^ 21 / 64 = b % 2 ^ 21 / 64 := by omega
  cases t <;> simp only [tagAt, this]

theorem State.lineTagOf_congr (s : State) {a b : Nat} (h : a / 64 = b / 64) : s.lineTagOf a = s.lineTagOf b := by
  simp [State.lineTagOf, h]

/-- A written line bears the key, and other lines bear theirs. -/
theorem State.lineTagOf_wrByte (s : State) (t : LineTag) (pa : Nat) (b : Byte) (a : Nat) :
    (s.wrByte t pa b).lineTagOf a = if pa / 64 = a / 64 then tagAt t a else s.lineTagOf a := by
  show (s.retag t pa).lineTagOf a = _
  unfold State.retag
  by_cases hl : pa / 64 = a / 64
  · rw [if_pos hl]
    split
    · next h => rw [← s.lineTagOf_congr hl, h, tagAt_congr t hl]
    · rw [← tagAt_congr t hl]
      simp only [State.lineTagOf, FMap.get_set, if_pos hl]
  · rw [if_neg hl]
    split
    · rfl
    · simp only [State.lineTagOf, FMap.get_set, if_neg hl]

/-- A byte of a line that bears the key stays through a write elsewhere under that key. -/
theorem State.wrByte_keeps (s : State) (t : LineTag) (pa : Nat) (b : Byte) {a : Nat} (h : s.lineTagOf a = tagAt t a) (ha : pa ≠ a) :
    (s.wrByte t pa b).lineTagOf a = tagAt t a ∧ (s.wrByte t pa b).mem.read a = s.mem.read a := by
  by_cases hl : pa / 64 = a / 64
  · refine ⟨by rw [State.lineTagOf_wrByte, if_pos hl], ?_⟩
    rw [s.wrByte_same t pa b a (by rw [s.lineTagOf_congr hl, h, tagAt_congr t hl]), if_neg ha]
  · exact ⟨by rw [State.lineTagOf_wrByte, if_neg hl, h], s.wrByte_out t pa b a fun e => hl e.symm⟩

theorem State.wrCells_keeps (s : State) (t : LineTag) (cs : List Host.Cell) {a : Nat} (h : s.lineTagOf a = tagAt t a) (ha : ∀ c ∈ cs, c.1 ≠ a) :
    (s.wrCells t cs).mem.read a = s.mem.read a := by
  induction cs generalizing s with
  | nil => rfl
  | cons c cs ih =>
    obtain ⟨htag, hread⟩ := s.wrByte_keeps t c.1 c.2 h (ha c List.mem_cons_self)
    rw [State.wrCells_cons, ih _ htag fun d hd => ha d (List.mem_cons_of_mem _ hd), hread]

/-- Lines that are not written keep every byte. -/
theorem State.wrCells_out (s : State) (t : LineTag) (cs : List Host.Cell) {a : Nat} (ha : ∀ c ∈ cs, a / 64 ≠ c.1 / 64) :
    (s.wrCells t cs).mem.read a = s.mem.read a := by
  induction cs generalizing s with
  | nil => rfl
  | cons c cs ih =>
    rw [State.wrCells_cons, ih _ fun d hd => ha d (List.mem_cons_of_mem _ hd), s.wrByte_out t c.1 c.2 a (ha c List.mem_cons_self)]

/-- Every written byte stands, where no address is written twice. -/
theorem State.wrCells_read (s : State) (t : LineTag) (cs : List Host.Cell) (hd : (cs.map (·.1)).Nodup) {c : Host.Cell} (hc : c ∈ cs) :
    (s.wrCells t cs).mem.read c.1 = c.2 := by
  induction cs generalizing s with
  | nil => cases hc
  | cons d cs ih =>
    rw [List.map_cons, List.nodup_cons] at hd
    obtain ⟨hnot, hrest⟩ := hd
    rw [State.wrCells_cons]
    rcases List.mem_cons.1 hc with rfl | hc
    · have htag : (s.wrByte t c.1 c.2).lineTagOf c.1 = tagAt t c.1 := by rw [State.lineTagOf_wrByte, if_pos rfl]
      rw [State.wrCells_keeps _ t cs htag fun e he h => hnot (List.mem_map.2 ⟨e, he, h⟩)]
      show ((s.retag t c.1).mem.write c.1 c.2).read c.1 = c.2
      rw [Memory.read_write, if_pos rfl]
    · exact ih _ hrest hc

/-! ### The record of a write -/

theorem FMap.find?_map {α β : Type} (f : α → β) (m : FMap α) (a : Nat) : FMap.find? (m.map fun e => (e.1, f e.2)) a = (m.find? a).map f := by
  induction m with
  | nil => rfl
  | cons e m ih =>
    obtain ⟨k, v⟩ := e
    simp only [List.map_cons, FMap.find?, ih]
    split <;> rfl

theorem Core.storeOnly_wake (s : State) (k : Core) : k.StoreOnly (k.wake s) := by
  unfold Core.StoreOnly
  rw [Core.wake_eq]

theorem State.storeOnly_wakeLines (s : State) (line : Nat → Bool) : s.StoreOnly (s.wakeLines line) := by
  unfold State.wakeLines
  split
  · refine ⟨fun m => ?_, rfl⟩
    unfold State.coreAt FMap.get
    rw [FMap.find?_map (fun k : Core => if k.watches line then k.wake s else k)]
    cases s.cores.find? m with
    | none => exact .refl _
    | some k =>
      show k.StoreOnly (if k.watches line then k.wake s else k)
      split
      · exact k.storeOnly_wake s
      · exact .refl k
  · exact .refl s

theorem State.storeOnly_overCxl (s : State) (hit : Nat → Bool) : s.StoreOnly (s.overCxl hit) := by
  unfold State.overCxl
  split
  · exact .refl s
  · exact ⟨fun _ => .refl _, rfl⟩

@[simp] theorem State.overCxl_mem (s : State) (hit : Nat → Bool) : (s.overCxl hit).mem = s.mem := by
  unfold State.overCxl
  split <;> rfl

@[simp] theorem State.overCxl_hist (s : State) (hit : Nat → Bool) : (s.overCxl hit).hist = s.hist := by
  unfold State.overCxl
  split <;> rfl

theorem State.storeOnly_record (t : State) (hist : List WRec) (writes : Nat) : t.StoreOnly { t with hist := hist, writes := writes } :=
  ⟨fun _ => .refl _, rfl⟩

section Recorded

variable (s t : State) (tag : LineTag) (rels : List Rel) (units : List (List Host.Cell))

theorem State.storeOnly_recorded : t.StoreOnly (s.recorded tag rels units t) := by
  unfold State.recorded
  exact ((t.storeOnly_record _ _).trans (State.storeOnly_overCxl _ _)).trans (State.storeOnly_wakeLines _ _)

@[simp] theorem State.recorded_mem : (s.recorded tag rels units t).mem = t.mem := by simp [State.recorded]

/-- Every cell of a recorded write is in a record of its own number, key and releases (R118, R123). -/
theorem State.recorded_hist {u : List Host.Cell} (hu : u ∈ units) {c : Host.Cell} (hc : c ∈ u) :
    ∃ w ∈ (s.recorded tag rels units t).hist, s.writes ≤ w.id ∧ w.tag = tag ∧ w.rels = rels ∧ ∃ old, (c.1, old) ∈ w.cells := by
  obtain ⟨i, hi, rfl⟩ := List.mem_iff_getElem.1 hu
  refine ⟨⟨s.writes + i, s.frame, tag, units[i].map fun c => (c.1, s.rdByte tag c.1), rels⟩, ?_, by simp, rfl, rfl, s.rdByte tag c.1, ?_⟩
  · simp only [State.recorded, State.wakeLines_hist, State.overCxl_hist, List.mem_append, List.mem_reverse, List.mem_mapIdx]
    exact .inl ⟨i, hi, rfl⟩
  · exact List.mem_map.2 ⟨c, hc, rfl⟩

end Recorded

/-- Every byte of a scalar store is in one of its units. -/
theorem Held.mem_units {h : Held} (hl : h.cells.length ≤ 8) {c : Host.Cell} (hc : c ∈ h.cells) : ∃ u ∈ h.units, c ∈ u := by
  have hsingle : ∃ u ∈ h.cells.map fun c => [c], c ∈ u := ⟨[c], List.mem_map.2 ⟨c, hc, rfl⟩, List.mem_singleton.2 rfl⟩
  unfold Held.units unitsOf
  dsimp only
  split
  · exact hsingle
  · split
    · exact ⟨h.cells, List.mem_singleton.2 rfl, hc⟩
    · exact hsingle

/-! ### A store takes place in device memory -/

/-- A scalar store covers no line whole, and so clears no poison (R416). -/
theorem State.cleanLines_short {s : State} {cs : List Host.Cell} (h : cs.length < 64) : s.cleanLines cs = s := by
  have hshort (l : Nat) : ((cs.filter fun c => c.1 / 64 == l).length == 64) = false := by
    have := List.length_filter_le (fun c : Host.Cell => c.1 / 64 == l) cs
    simp only [beq_eq_false_iff_ne]
    omega
  have hkeep : (s.poison.filter fun e => !((cs.filter fun c => c.1 / 64 == e.1).length == 64)) = s.poison :=
    List.filter_eq_self.2 fun e _ => by rw [hshort, Bool.not_false]
  unfold State.cleanLines
  dsimp only
  split
  · rfl
  · rw [hkeep]

/-- The watchpoints that are off are touched by no write (R378). -/
theorem State.watchHits_off {s : State} (h : ∀ w, w < 8 → (s.csr (0xC98 + w)).getLsbD 0 = false) (pa n : Nat) : s.watchHits pa n = [] := by
  refine List.filter_eq_nil_iff.2 fun w hw => ?_
  have hoff : bit (s.csrN (0xC98 + w)) 0 = false := h w (List.mem_range.1 hw)
  simp [hoff]

theorem State.watchEvents_none {s : State} {pa n : Nat} (h : s.watchHits pa n = []) (own : Option Nat) (kind who wmc : Nat) :
    s.watchEvents own kind who wmc pa n = s := by
  simp [State.watchEvents, h]

theorem State.StoreOnly.watchHits {s t : State} (h : s.StoreOnly t) (pa n : Nat) : t.watchHits pa n = s.watchHits pa n := by
  rw [h.2]
  rfl

/-- The record of a store to device memory, its bytes in place. -/
def State.placed (s : State) (h : Held) : State := s.recorded h.tag h.rels h.units (s.wrCells h.tag h.cells)

/-- A write to device memory is the bytes placed and recorded, then VCLOCK, then the L1 lines that hold the bytes (R97, R126). -/
theorem State.writeHeld_eq {s : State} {h : Held} (hl : h.cells.length < 64) :
    s.writeHeld true h = (h.units.mapIdx fun i u => (i, u)).foldl
      (fun t e => e.2.foldl (fun t c => t.l1Update (s.writes + e.1) c.1 c.2) t)
      ((s.placed h).crosses s.die (h.cells.head?.elim 0 (·.1))) := by
  have hclean : (s.wrCells h.tag h.cells).cleanLines h.cells = s.wrCells h.tag h.cells := State.cleanLines_short hl
  rw [State.placed, ← hclean]
  rfl

theorem State.quiet_writeHeld {s : State} {h : Held} (hl : h.cells.length < 64) : (s.placed h).Quiet (s.writeHeld true h) := by
  rw [State.writeHeld_eq hl]
  have hunit (t : State) (e : Nat × List Host.Cell) : t.Quiet (e.2.foldl (fun t c => t.l1Update (s.writes + e.1) c.1 c.2) t) :=
    State.quiet_foldl (fun t (c : Host.Cell) => t.quiet_l1Update (s.writes + e.1) c.1 c.2) e.2 t
  exact ((s.placed h).quiet_crosses s.die (h.cells.head?.elim 0 (·.1))).trans (State.quiet_foldl hunit _ _)

/-- A scalar store to device memory that no watchpoint names: its bytes are placed and recorded, and what follows writes no memory. -/
theorem State.quiet_performHeld {s : State} {h : Held} (hd : h.host = none) (h0 : h.cells ≠ []) (hl : h.cells.length < 64)
    (hw : ∀ pa n, s.watchHits pa n = []) : (s.placed h).Quiet (s.performHeld h) := by
  have hplaced : s.StoreOnly (s.placed h) := (s.storeOnly_wrCells _ _).trans (State.storeOnly_recorded _ _ _ _ _)
  have hq := (State.quiet_writeHeld (s := s) hl).trans (State.quiet_wrote _ h.nt ((s.writeHeld true h).madeSince s))
  obtain ⟨c, cs, hcs⟩ := List.exists_cons_of_ne_nil h0
  have he : s.performHeld h = ((s.writeHeld true h).wrote h.nt ((s.writeHeld true h).madeSince s)).watchEvents
      (some s.core.mcid) 0 s.cur s.core.mcid c.1 h.cells.length := by
    simp only [State.performHeld, hd, hcs]
  rw [he, State.watchEvents_none ((hplaced.trans hq.2).watchHits c.1 _ ▸ hw _ _)]
  exact hq

end Sys2Proof.Machine
end

section
/-! PROOFS. The stores: their rows, their pages, and what the store event leaves. -/

namespace Sys2Proof.Machine

open Sys2Proof.Safety

/-! ### What a store event leaves in device memory (R97, R118, R127) -/

section Performed

variable {s : State} {h : Held} (hd : h.host = none) (h0 : h.cells ≠ []) (hl : h.cells.length ≤ 8) (hw : ∀ pa n, s.watchHits pa n = [])

include hd h0 hl hw

theorem State.storeOnly_performHeld : s.StoreOnly (s.performHeld h) :=
  ((s.storeOnly_wrCells _ _).trans (State.storeOnly_recorded _ _ _ _ _)).trans (State.quiet_performHeld hd h0 (by omega) hw).2

theorem State.performHeld_mem : (s.performHeld h).mem = (s.wrCells h.tag h.cells).mem := by
  obtain ⟨hmem, -⟩ := (State.quiet_performHeld hd h0 (by omega) hw).1
  rw [hmem, State.placed, State.recorded_mem]

/-- A store enters the history of writes, under its key and with its releases. -/
theorem State.performHeld_hist {c : Host.Cell} (hc : c ∈ h.cells) :
    ∃ w ∈ (s.performHeld h).hist, s.writes ≤ w.id ∧ w.tag = h.tag ∧ w.rels = h.rels ∧ ∃ old, (c.1, old) ∈ w.cells := by
  obtain ⟨-, -, hhist, -⟩ := (State.quiet_performHeld hd h0 (by omega) hw).1
  obtain ⟨u, hu, hcu⟩ := Held.mem_units hl hc
  rw [hhist]
  exact s.recorded_hist _ h.tag h.rels h.units hu hcu

end Performed

theorem mem_bytesAt {x : Dword} {a off m : Nat} {c : Host.Cell} :
    c ∈ bytesAt x a off m ↔ ∃ i, i < m ∧ c = (a + i, x.extractLsb' (8 * (off + i)) 8) := by
  simp [bytesAt, eq_comm]

theorem bytesAt_nodup (x : Dword) (a off m : Nat) : ((bytesAt x a off m).map (·.1)).Nodup := by
  rw [bytesAt, List.map_map]
  exact List.pairwise_map.2 (List.nodup_range.imp fun hij e => hij (Nat.add_left_cancel e))

/-- The bytes that a scalar store to device memory leaves, those that it keeps, its record, and its frame. -/
theorem State.storeEvent_dev {s : State} (hr : s.core.restart = false) (hq : s.core.ntq = [])
    (hoff : ∀ w, w < 8 → (s.csr (0xC98 + w)).getLsbD 0 = false) {n : Nat} (hn : ScalarSize n) (x : Dword) (pa asid : Nat) (tag : LineTag)
    (rels : List Rel) (nt bytes : Bool) :
    let t := s.storeEvent false ⟨bytesAt x pa 0 n, tag, none, asid, nt, rels, bytes⟩
    (∀ i, i < n → t.mem.read (pa + i) = x.extractLsb' (8 * i) 8) ∧
    (∀ a, (∀ i, i < n → a / 64 ≠ (pa + i) / 64) → t.mem.read a = s.mem.read a) ∧
    ((∀ i, i < n → s.lineTagOf (pa + i) = tagAt tag (pa + i)) → ∀ a, (a < pa ∨ pa + n ≤ a) → t.mem.read a = s.mem.read a) ∧
    (∀ i, i < n → ∃ w ∈ t.hist, s.writes ≤ w.id ∧ w.tag = tag ∧ w.rels = rels ∧ ∃ old, (pa + i, old) ∈ w.cells) ∧
    s.StoreOnly t := by
  intro t
  have ht : t = s.performHeld ⟨bytesAt x pa 0 n, tag, none, asid, nt, rels, bytes⟩ := State.storeEvent_direct hr hq _
  have hpos := hn.pos
  have hle := hn.le
  have hcells : bytesAt x pa 0 n ≠ [] := List.ne_nil_of_length_pos (by rw [bytesAt_length]; exact hpos)
  have hlen : (bytesAt x pa 0 n).length ≤ 8 := by rw [bytesAt_length]; exact hle
  have hwatch := State.watchHits_off hoff
  have hmem : t.mem = (s.wrCells tag (bytesAt x pa 0 n)).mem := by rw [ht]; exact State.performHeld_mem rfl hcells hlen hwatch
  have hin (i : Nat) (hi : i < n) : (pa + i, x.extractLsb' (8 * i) 8) ∈ bytesAt x pa 0 n := mem_bytesAt.2 ⟨i, hi, by rw [Nat.zero_add]⟩
  have hout {a : Nat} (ha : ∀ i, i < n → a / 64 ≠ (pa + i) / 64) : t.mem.read a = s.mem.read a := by
    rw [hmem]
    refine s.wrCells_out tag _ fun c hc => ?_
    obtain ⟨i, hi, rfl⟩ := mem_bytesAt.1 hc
    exact ha i hi
  refine ⟨fun i hi => ?_, fun a ha => hout ha, fun htag a ha => ?_, fun i hi => ?_, ?_⟩
  · rw [hmem]
    exact s.wrCells_read tag _ (bytesAt_nodup x pa 0 n) (hin i hi)
  · by_cases hline : ∃ i, i < n ∧ a / 64 = (pa + i) / 64
    · obtain ⟨i, hi, hai⟩ := hline
      rw [hmem]
      refine s.wrCells_keeps tag _ (by rw [s.lineTagOf_congr hai, htag i hi, tagAt_congr tag hai]) fun c hc => ?_
      obtain ⟨j, hj, rfl⟩ := mem_bytesAt.1 hc
      show pa + j ≠ a
      omega
    · exact hout fun i hi e => hline ⟨i, hi, e⟩
  · rw [ht]
    exact State.performHeld_hist (h := ⟨bytesAt x pa 0 n, tag, none, asid, nt, rels, bytes⟩) rfl hcells hlen hwatch (hin i hi)
  · rw [ht]
    exact State.storeOnly_performHeld rfl hcells hlen hwatch

/-! ### The obligation -/

/-- The rows of the store operations: each is `storeOp` of its size, and non-temporal where the table says so. -/
theorem exec_store {c : Ctl} {o : SM} {s : State} {e : (Ctl → SM → Instr) × Nat × Bool}
    (he : e ∈ ([(.stb, 1, false), (.sth, 2, false), (.stw, 4, false), (.std, 8, false), (.stnt, 8, true)] :
      List ((Ctl → SM → Instr) × Nat × Bool))) :
    exec (e.1 c o) s = storeOp e.2.1 e.2.2 c o s ∧ ScalarSize e.2.1 := by
  simp only [List.mem_cons, List.not_mem_nil, or_false] at he
  rcases he with rfl | rfl | rfl | rfl | rfl <;> exact ⟨rfl, by unfold ScalarSize; decide⟩

theorem bytewise_scalar {n : Nat} (hn : ScalarSize n) (va : Nat) : bytewise va n = (va % n != 0) := by
  simp [bytewise, hn.le]

theorem bytewise_aligned {va n : Nat} (h : va % n = 0) : bytewise va n = false := by simp [bytewise, h]

/-- The page pieces of a store that runs from one page into the next. -/
theorem pagePieces_split {va n : Nat} (hn : n ≤ 65536) (hh : meetsHost va n = false) (hm : 65536 - va % 65536 < n) :
    pagePieces va n = [(va, 65536 - va % 65536), (va + (65536 - va % 65536), n - (65536 - va % 65536))] := by
  unfold pagePieces
  rw [pageStep_of_notMeetsHost hh]
  exact pieces_two _ hm (Nat.mod_lt _ (by decide)) hn

/-- The page piece of a store that stays in one page of device memory. -/
theorem pagePieces_inPage {va n : Nat} (hn : ScalarSize n) (h : va % n = 0 ∨ meetsHost va n = false) (hp : va % 65536 + n ≤ 65536) :
    pagePieces va n = [(va, n)] := by
  rcases h with h | h
  · exact pagePieces_aligned hn h
  · exact pagePieces_one hn.pos (by rw [pageStep_of_notMeetsHost h]; exact hp)

/-- Settles O36: the store's program is run page by page, and the store event is followed from the bytes that it places to its frame. -/
theorem stores : Obligations.Stores := by
  unfold Obligations.Stores
  intro c o s on va e he n nt v part h hw
  obtain ⟨hexec, hn⟩ := exec_store (c := c) (o := o) (s := s) he
  have hva : va < 2 ^ 52 := s.smAddr_lt o
  have hpart (s1 : State) (rel : Option Nat) (pa : Nat) (tag : LineTag) (off m : Nat) : part s1 rel pa tag off m =
      ⟨bytesAt (s.getX o.xd.toNat) pa off m, tag, none, s1.core.asid, nt, s1.writeRels rel, bytewise va n⟩ := by
    rw [bytewise_scalar hn]
    rfl
  have hhost (s1 : State) (rel : Option Nat) (fn pasid addr xaddr : Nat) : hw s1 rel fn pasid addr xaddr =
      ⟨bytesAt (s.getX o.xd.toNat) addr 0 n, .plain, some ⟨fn, pasid, addr / 4096, xaddr / 4096⟩, s1.core.asid, nt, s1.writeRels rel,
        false⟩ := by
    rw [bytesAt_zero]
  rw [hexec]
  refine ⟨?onePage, ?release, ?misaligned, ?twoPages, ?host, ?posted, ?effect⟩
  case onePage =>
    intro ho ha pa tag s1 hp hx hwatch
    rw [show h s1 none pa tag = _ from hpart s1 none pa tag 0 n]
    exact storeOp_plain on ho ha (storeBytes_dev (pagePieces_inPage hn (ha.imp_right And.left) hp) hva hx hwatch)
  case release =>
    intro ho ha pa tag s1 hx hwatch
    rw [show h s1 _ pa tag = _ from hpart s1 _ pa tag 0 n]
    exact storeOp_release on ho ha (storeBytes_dev (pagePieces_aligned hn ha) hva hx hwatch)
  case misaligned =>
    intro ha hb
    unfold Faults
    rw [hexec]
    exact storeOp_misaligned on ha hb
  case twoPages =>
    intro ho hh hnt m hm pa tag s1 pb tagB s2 hx hy hwatch s3
    have hpieces := pagePieces_split (va := va) (n := n) (Nat.le_trans hn.le (by decide)) hh hm
    have hleft : s2.Unwatched pa m := fun w hwm => hwatch w (List.mem_append_left _ hwm)
    have hright : s2.Unwatched pb (n - m) := fun w hwm => hwatch w (List.mem_append_right _ hwm)
    have hrun := storeOp_plain on ho (.inr ⟨hh, hnt⟩)
      (storeBytes_split (x := s.getX o.xd.toNat) (nt := nt) (rel := none) hpieces (Nat.le_of_lt hm) hva hx hy hleft hright)
    rw [hpart s3, show s3 = s2.storeEvent false (part s2 none pa tag 0 m) from rfl, hpart s2]
    show storeOp n nt c o s = _
    rw [hnt] at hrun ⊢
    exact hrun
  case host =>
    intro ha _
    have hb : bytewise va n = false := bytewise_aligned ha
    refine ⟨fun ho fn pasid addr xaddr s1 hx => ?_, fun ho fn pasid addr xaddr s1 hx => ?_⟩
    · rw [hhost, ← hb]
      exact storeOp_plain on ho (.inl ha) (storeBytes_host (pagePieces_aligned hn ha) hva hx)
    · rw [hhost, ← hb]
      exact storeOp_release on ho ha (storeBytes_host (pagePieces_aligned hn ha) hva hx)
  case posted =>
    intro rel fn pasid addr xaddr s1 hr hq
    rw [hhost]
    exact State.storeEvent_host hr hq hn.pos _ fn pasid addr xaddr _ nt false rel
  case effect =>
    intro pa tag rel s1 hr hq hoff t
    have ht : t = s1.storeEvent false _ := congrArg (s1.storeEvent false) (hpart s1 rel pa tag 0 n)
    rw [ht]
    obtain ⟨hbytes, hlines, hkey, hrec, hcores, hframe⟩ :=
      State.storeEvent_dev hr hq hoff hn (s.getX o.xd.toNat) pa s1.core.asid tag (s1.writeRels rel) nt (bytewise va n)
    exact ⟨hbytes, hlines, hkey, hcores, hrec, hframe⟩

end Sys2Proof.Machine
end

section
/-! PROOFS. The issue of a command: its descriptor, the room it needs, and the command as it is handed to its engine (R316, R338). -/

namespace Sys2Proof.Machine

/-! ### Operations that read a descriptor and need room -/

/-- The common form of the commands' issues: the descriptor, room among what is outstanding, and then the work. -/
def descOp (room : State → Bool) (work : Nat → State → M Unit) (c : Ctl) (o : CK) (s : State) : Host.Outcome State Fault Refusal :=
  slotOp c (do
    let d ← readDesc
    let s ← get
    M.need (room s) (.stall .other)
    work d s) (s.ckCursor o)

section Issue

variable {c : Ctl} {o : CK} {s s1 : State} {d : Nat}

section Form

variable {room : State → Bool} {work : Nat → State → M Unit} (on : s.enabled c = true) (hdesc : readDesc (s.ckCursor o) = .ok (d, s1))

include on hdesc

/-- Without room the bundle waits, and nothing stands but the cursor. -/
theorem descOp_full (hfull : room s1 = false) : descOp room work c o s = .next ((s.ckCursor o).recStall .other []) := by
  rw [descOp, slotOp_on (by rw [State.enabled_ckCursor, on])]
  exact runSlot_stall (by simp [hdesc, hfull])

theorem descOp_room {t : State} {u : Unit} (hroom : room s1 = true) (hwork : work d s1 s1 = .ok (u, t)) : descOp room work c o s = .next t := by
  rw [descOp, slotOp_on (by rw [State.enabled_ckCursor, on])]
  exact runSlot_ok (u := ()) (by simp [hdesc, hroom, hwork])

end Form

/-! ### The command -/

/-- A command that is handed to its engine stands behind all others with the next number. -/
def State.handOver (s : State) (cmd : Cmd) : State := { s with nextId := s.nextId + 1, cmds := s.cmds ++ [cmd] }

theorem sendCmd_run {op d off : Nat} {s t : State} {held : Bool} (h : issueFlags op d s = .ok (held, t)) :
    sendCmd op d off s = .ok ({ t.newCmd op d off with held := held }, t.handOver { t.newCmd op d off with held := held }) := by
  simp only [sendCmd, M.bind_run, h, M.get_run, M.set_run, M.pure_run]
  rfl

/-! ### Commands that their engines carry out later -/

/-- Room for a command of an opcode among those outstanding of its kind (R316, R338). -/
def roomFor (op : Nat) (s : State) : Bool := if 0x40 ≤ op ∧ op ≤ 0x5F then s.mine Cmd.isKv < 16 else s.mine Cmd.isCopy < 32

theorem engineOp_eq (op : Nat) (c : Ctl) (o : CK) (s : State) :
    engineOp op c o s = descOp (roomFor op) (fun d t => do
      let _ ← sendCmd op d (t.cursor 0)
      pure ()) c o s := rfl

/-- Room in the racking queue of the die and partition of the executing task (R67). -/
def rackRoom (s : State) : Bool := (s.racks.filter fun r => r.die = s.die ∧ r.part = s.core.part).length < 256

theorem rackIssue_eq (c : Ctl) (o : CK) (s : State) :
    rackIssue c o s = descOp rackRoom (fun d t => do
      let cmd ← sendCmd 0x45 d (t.cursor 0)
      M.change fun u => { u with racks := u.racks ++ [⟨u.die, u.core.part, none, some cmd.id⟩] }) c o s := rfl

theorem roomFor_kv {op : Nat} (h : 0x40 ≤ op ∧ op ≤ 0x5F) (s : State) : roomFor op s = decide (s.mine Cmd.isKv < 16) := if_pos h
theorem roomFor_copy {op : Nat} (h : ¬(0x40 ≤ op ∧ op ≤ 0x5F)) (s : State) : roomFor op s = decide (s.mine Cmd.isCopy < 32) := if_neg h

section Form

variable (on : s.enabled c = true) (hdesc : readDesc (s.ckCursor o) = .ok (d, s1))

include on hdesc

theorem engineOp_full {op : Nat} (hfull : roomFor op s1 = false) : engineOp op c o s = .next ((s.ckCursor o).recStall .other []) := by
  rw [engineOp_eq]
  exact descOp_full on hdesc hfull

theorem engineOp_room {op : Nat} (hroom : roomFor op s1 = true) {held : Bool} {t : State} (hflags : issueFlags op d s1 = .ok (held, t)) :
    engineOp op c o s = .next (t.handOver { t.newCmd op d (s1.cursor 0) with held := held }) := by
  rw [engineOp_eq]
  exact descOp_room (u := ()) on hdesc hroom (by simp only [M.bind_run, sendCmd_run hflags, M.pure_run])

/-! ### Racking commands (R67) -/

theorem rackIssue_full (hfull : 256 ≤ (s1.racks.filter fun r => r.die = s1.die ∧ r.part = s1.core.part).length) :
    rackIssue c o s = .next ((s.ckCursor o).recStall .other []) := by
  rw [rackIssue_eq]
  exact descOp_full on hdesc (decide_eq_false (Nat.not_lt.2 hfull))

/-- A racking command enters the queue of its die and partition too. -/
theorem rackIssue_room (hroom : (s1.racks.filter fun r => r.die = s1.die ∧ r.part = s1.core.part).length < 256) {cmd : Cmd} {t : State}
    (hsend : sendCmd 0x45 d (s1.cursor 0) s1 = .ok (cmd, t)) :
    rackIssue c o s = .next { t with racks := t.racks ++ [⟨t.die, t.core.part, none, some cmd.id⟩] } := by
  rw [rackIssue_eq]
  exact descOp_room (u := ()) on hdesc (decide_eq_true hroom) (by simp only [M.bind_run, hsend, M.change_run])

end Form

/-! ### Collectives (R354) -/

/-- The ring that a collective's command gets: that of the first member's issue. -/
def State.ringFor (s : State) (cmd : Cmd) : List Nat :=
  match s.cmds.find? fun x => x.id != cmd.id && s.sameColl x cmd with
  | some x => x.members
  | none => s.ringOf cmd.level

/-- Where no other part of the collective is outstanding, the ring is that of the domain as it stands. -/
theorem State.ringFor_first {s : State} {cmd : Cmd} (h : (s.cmds.all fun x => x.id == cmd.id || !(s.sameColl x cmd)) = true) :
    s.ringFor cmd = s.ringOf cmd.level := by
  have hnone : (s.cmds.find? fun x => x.id != cmd.id && s.sameColl x cmd) = none := by
    refine List.find?_eq_none.2 fun x hx => ?_
    have hx := List.all_eq_true.1 h x hx
    rw [bne, Bool.and_eq_true, Bool.not_eq_true', not_and, Bool.not_eq_true]
    intro hid
    rwa [hid, Bool.false_or, Bool.not_eq_true'] at hx
  unfold State.ringFor
  rw [hnone]

/-- The commands that need room among those of chapter 13. -/
def copyRoom (s : State) : Bool := s.mine Cmd.isCopy < 32

theorem copyRoom_full {s : State} (h : 32 ≤ s.mine Cmd.isCopy) : copyRoom s = false := decide_eq_false (Nat.not_lt.2 h)
theorem copyRoom_room {s : State} (h : s.mine Cmd.isCopy < 32) : copyRoom s = true := decide_eq_true h

/-- What the issue of a collective does after it has sent its command. -/
def collJoin (op : Nat) (s1 : State) (cmd : Cmd) : M Unit :=
  if cmd.level ≤ 4 ∧ s1.member cmd.level then do
    let n := FMap.get 0 s1.core.colls (collKey op cmd.level) + 1
    let t ← get
    set ((t.setCmd { cmd with coll := n, members := t.ringFor { cmd with coll := n } }).onCore fun k =>
      { k with colls := k.colls.insert (collKey op cmd.level) n })
  else pure ()

theorem collOp_eq (op : Nat) (c : Ctl) (o : CK) (s : State) :
    collOp op c o s = descOp copyRoom (fun d t => do
      let cmd ← sendCmd op d (t.cursor 0)
      collJoin op t cmd) c o s := rfl

section Form

variable (on : s.enabled c = true) (hdesc : readDesc (s.ckCursor o) = .ok (d, s1)) {op : Nat}

include on hdesc

theorem collOp_full (hfull : 32 ≤ s1.mine Cmd.isCopy) : collOp op c o s = .next ((s.ckCursor o).recStall .other []) := by
  rw [collOp_eq]
  exact descOp_full on hdesc (copyRoom_full hfull)

variable (hroom : s1.mine Cmd.isCopy < 32) {cmd : Cmd} {t : State} (hsend : sendCmd op d (s1.cursor 0) s1 = .ok (cmd, t))

include hroom hsend

/-- A task that is no member of the domain has no number. -/
theorem collOp_outside (hout : ¬(cmd.level ≤ 4 ∧ s1.member cmd.level = true)) : collOp op c o s = .next t := by
  rw [collOp_eq]
  exact descOp_room (u := ()) on hdesc (copyRoom_room hroom) (by simp only [M.bind_run, hsend, collJoin, if_neg hout, M.pure_run])

/-- A member's command takes its next number, and its ring, which is that of the domain for the first part of a collective (R354). -/
theorem collOp_member (hin : cmd.level ≤ 4 ∧ s1.member cmd.level = true) :
    ∃ ring, let n := FMap.get 0 s1.core.colls (collKey op cmd.level) + 1
      ((t.cmds.all fun x => x.id == cmd.id || !(t.sameColl x { cmd with coll := n })) = true → ring = t.ringOf cmd.level) ∧
      collOp op c o s = .next ((t.setCmd { cmd with coll := n, members := ring }).onCore fun k =>
        { k with colls := k.colls.insert (collKey op cmd.level) n }) := by
  refine ⟨t.ringFor { cmd with coll := FMap.get 0 s1.core.colls (collKey op cmd.level) + 1 },
    fun hfirst => State.ringFor_first (cmd := { cmd with coll := _ }) hfirst, ?_⟩
  rw [collOp_eq]
  exact descOp_room (u := ()) on hdesc (copyRoom_room hroom) (by simp only [M.bind_run, hsend, collJoin, if_pos hin, M.get_run, M.set_run])

end Form

/-! ### Region-map commands (R352) -/

@[simp] theorem State.madeSince_self (s : State) : s.madeSince s = [] := by simp [State.madeSince]
@[simp] theorem State.cmdSaw_nil (s : State) (c : Cmd) : s.cmdSaw c [] = s := if_pos rfl

/-- What the issue of a region-map command does after it has sent its command: the status, and the releases that its completion word has. -/
def mapSettle (op : Nat) (f : Nat → M Nat) (d : Nat) (cmd : Cmd) : M Unit := do
  let s0 ← get
  let st ← if (complOf op d).bad then pure 0x01 else f d
  M.change fun s => (s.setCmd { cmd with progress := st, before := s.before }).cmdSaw cmd (s.madeSince s0)

theorem mapOp_eq (op : Nat) (f : Nat → M Nat) (c : Ctl) (o : CK) (s : State) :
    mapOp op f c o s = descOp copyRoom (fun d t => do
      let cmd ← sendCmd op d (t.cursor 0)
      mapSettle op f d cmd) c o s := rfl

section Form

variable (on : s.enabled c = true) (hdesc : readDesc (s.ckCursor o) = .ok (d, s1)) {op : Nat} {f : Nat → M Nat}

include on hdesc

theorem mapOp_full (hfull : 32 ≤ s1.mine Cmd.isCopy) : mapOp op f c o s = .next ((s.ckCursor o).recStall .other []) := by
  rw [mapOp_eq]
  exact descOp_full on hdesc (copyRoom_full hfull)

variable (hroom : s1.mine Cmd.isCopy < 32) {cmd : Cmd} {t : State} (hsend : sendCmd op d (s1.cursor 0) s1 = .ok (cmd, t))

include hroom hsend

/-- A command whose completion fields are bad ends with MALFORMED and does nothing else. -/
theorem mapOp_bad (hbad : (complOf op d).bad = true) : mapOp op f c o s = .next (t.setCmd { cmd with progress := 0x01, before := t.before }) := by
  rw [mapOp_eq]
  refine descOp_room (u := ()) on hdesc (copyRoom_room hroom) ?_
  simp only [M.bind_run, hsend, mapSettle, M.get_run, hbad, if_true, M.pure_run, M.change_run, State.madeSince_self, State.cmdSaw_nil]

/-- A command whose work answers a status keeps it, and has seen the writes that the work has made. -/
theorem mapOp_status (hbad : (complOf op d).bad = false) {st : Nat} {u : State} (hf : f d t = .ok (st, u)) :
    mapOp op f c o s = .next ((u.setCmd { cmd with progress := st, before := u.before }).cmdSaw cmd (u.madeSince t)) := by
  rw [mapOp_eq]
  refine descOp_room (u := ()) on hdesc (copyRoom_room hroom) ?_
  simp only [M.bind_run, hsend, mapSettle, M.get_run, hbad, Bool.false_eq_true, if_false, hf, M.change_run]

end Form

end Issue

/-! ### The rows of the commands -/

theorem exec_kvCommand {c : Ctl} {o : CK} {s : State} {e : (Ctl → CK → Instr) × Nat}
    (he : e ∈ ([(.kvnew, 0x40), (.kvapp, 0x41), (.kvtrunc, 0x42), (.kvfork, 0x43), (.kvfree, 0x44), (.kvqry, 0x47)] :
      List ((Ctl → CK → Instr) × Nat))) :
    exec (e.1 c o) s = engineOp e.2 c o s ∧ 0x40 ≤ e.2 ∧ e.2 ≤ 0x5F := by
  simp only [List.mem_cons, List.not_mem_nil, or_false] at he
  rcases he with rfl | rfl | rfl | rfl | rfl | rfl <;> exact ⟨rfl, by decide⟩

theorem exec_copyCommand {c : Ctl} {o : CK} {s : State} {e : (Ctl → CK → Instr) × Nat}
    (he : e ∈ ([(.cpy, 0x08), (.cpy2d, 0x09), (.mcstMulticast, 0x0A), (.migrMove, 0x60), (.migrFetch, 0x60), (.migrFlush, 0x60),
      (.migrPooladd, 0x60), (.migrPooltake, 0x60)] : List ((Ctl → CK → Instr) × Nat))) :
    exec (e.1 c o) s = engineOp e.2 c o s ∧ ¬(0x40 ≤ e.2 ∧ e.2 ≤ 0x5F) := by
  simp only [List.mem_cons, List.not_mem_nil, or_false] at he
  rcases he with rfl | rfl | rfl | rfl | rfl | rfl | rfl | rfl <;> exact ⟨rfl, by decide⟩

theorem exec_rackCommand {c : Ctl} {o : CK} {s : State} {mk : Ctl → CK → Instr}
    (he : mk ∈ ([.kvrackRack, .kvrackPooladd, .kvrackPooltake] : List (Ctl → CK → Instr))) : exec (mk c o) s = rackIssue c o s := by
  simp only [List.mem_cons, List.not_mem_nil, or_false] at he
  rcases he with rfl | rfl | rfl <;> rfl

theorem exec_collective {c : Ctl} {o : CK} {s : State} {e : (Ctl → CK → Instr) × Nat}
    (he : e ∈ ([(.cred, 0x61), (.cbcast, 0x62)] : List ((Ctl → CK → Instr) × Nat))) : exec (e.1 c o) s = collOp e.2 c o s := by
  simp only [List.mem_cons, List.not_mem_nil, or_false] at he
  rcases he with rfl | rfl <;> rfl

theorem exec_mapCommand {c : Ctl} {o : CK} {s : State} {e : (Ctl → CK → Instr) × Nat × (Nat → M Nat)}
    (he : e ∈ ([(.spmap, 0x10, mapNew), (.spmapUnmap, 0x10, mapRemove), (.spsync, 0x11, mapSync), (.spinv, 0x12, mapInv)] :
      List ((Ctl → CK → Instr) × Nat × (Nat → M Nat)))) : exec (e.1 c o) s = mapOp e.2.1 e.2.2 c o s := by
  simp only [List.mem_cons, List.not_mem_nil, or_false] at he
  rcases he with rfl | rfl | rfl | rfl <;> rfl

end Sys2Proof.Machine
end

section
/-! PROOFS. The statuses of the region-map commands and what they make of the maps (R352). -/

namespace Sys2Proof.Machine

/-! ### Descriptors -/

/-- A bit of a field is a bit of its number. -/
theorem testBit_bits (x hi lo i : Nat) : (bits x hi lo).testBit i = (decide (i < hi + 1 - lo) && x.testBit (lo + i)) := by
  rw [bits, Nat.testBit_mod_two_pow, Nat.testBit_shiftRight]

/-- A field is zero where its top bit is clear and the field below it is zero. -/
theorem bits_succ_eq_zero {x hi lo : Nat} (htop : bit x (hi + 1) = false) (hrest : bits x hi lo = 0) : bits x (hi + 1) lo = 0 := by
  refine Nat.eq_of_testBit_eq fun i => ?_
  rw [testBit_bits, Nat.zero_testBit, Bool.and_eq_false_iff, decide_eq_false_iff_not]
  by_cases hi' : lo + i = hi + 1
  · exact .inr (hi' ▸ htop)
  · by_cases hlt : i < hi + 1 + 1 - lo
    · have hbit := testBit_bits x hi lo i
      rw [hrest, Nat.zero_testBit, decide_eq_true (by omega), Bool.true_and] at hbit
      exact .inr hbit.symm
    · exact .inl hlt

/-! ### The statuses -/

section Status

variable {s : State} {d : Nat}

theorem mapNew_malformed (h : rangeBad d = true) : mapNew d s = .ok (0x01, s) := by simp [mapNew, h]
theorem mapRemove_malformed (h : rangeBad d = true) : mapRemove d s = .ok (0x01, s) := by simp [mapRemove, h]
theorem mapSync_malformed (h : rangeBad d = true) : mapSync d s = .ok (0x01, s) := by simp [mapSync, h]
theorem mapInv_malformed (h : rangeBad d = true) : mapInv d s = .ok (0x01, s) := by simp [mapInv, h]

/-- Does a map of the bundle in progress share a byte with a range? -/
def Core.mapMeets (k : Core) (off len : Nat) : Bool := k.nextMaps.any fun m => decide (m.off < off + len) && decide (off < m.off + m.len)

section New

variable (hrange : rangeBad d = false) (hmap : bit d 116 = false) (hgva : bits d 115 64 % 256 = 0)
  (hgroup : spGroup (bits d 20 0) = spGroup (bits d 20 0 + bits d 52 32 - 1))

include hrange hmap hgva hgroup

theorem mapNew_run : mapNew d s =
    if 8 ≤ s.core.nextMaps.length ∨ s.core.mapMeets (bits d 20 0) (bits d 52 32) = true then .ok (0x08, s)
    else .ok (0, s.post (.mapNew (bits d 20 0) (bits d 52 32) (bits d 115 64))) := by
  have hok : ¬(rangeBad d = true ∨ bits d 115 64 % 256 ≠ 0 ∨ spGroup (bits d 20 0) ≠ spGroup (bits d 20 0 + bits d 52 32 - 1) ∨
      bit d 116 = true) := by
    simp only [hrange, hmap, hgva, ne_eq, not_true, Bool.false_eq_true, or_false, false_or]
    exact Classical.not_not.2 hgroup
  simp only [mapNew, M.bind_run, M.get_run, if_neg hok, M.ite_run, M.pure_run, M.change_run]
  rfl

theorem mapNew_made (hlen : s.core.nextMaps.length < 8)
    (hfree : ∀ m ∈ s.core.nextMaps, m.off + m.len ≤ bits d 20 0 ∨ bits d 20 0 + bits d 52 32 ≤ m.off) :
    mapNew d s = .ok (0, s.post (.mapNew (bits d 20 0) (bits d 52 32) (bits d 115 64))) := by
  have hmeets : s.core.mapMeets (bits d 20 0) (bits d 52 32) = false := by
    refine List.any_eq_false.2 fun m hm => ?_
    have hm := hfree m hm
    simp only [Bool.and_eq_true, decide_eq_true_eq]
    omega
  rw [mapNew_run hrange hmap hgva hgroup, if_neg (by simp [hmeets, hlen])]

theorem mapNew_refused (h : 8 ≤ s.core.nextMaps.length ∨
      ∃ m ∈ s.core.nextMaps, m.off < bits d 20 0 + bits d 52 32 ∧ bits d 20 0 < m.off + m.len) :
    mapNew d s = .ok (0x08, s) := by
  rw [mapNew_run hrange hmap hgva hgroup]
  refine if_pos (h.imp_right fun ⟨m, hm, hmeet⟩ => List.any_eq_true.2 ⟨m, hm, ?_⟩)
  simpa using hmeet

end New

/-- The DIRTY granules of the map at an offset. -/
def Core.dirtyAt (k : Core) (off : Nat) : List (Nat × Nat) := k.dirty.filter fun e => (k.maps[e.1]?).any (·.off == off)

section Remove

variable (hrange : rangeBad d = false) (hgva : bits d 115 64 % 256 = 0)

include hrange hgva

theorem mapRemove_missing (h : ∀ m ∈ s.core.nextMaps, ¬(m.off = bits d 20 0 ∧ m.len = bits d 52 32)) : mapRemove d s = .ok (0x08, s) := by
  have hok : ¬(rangeBad d = true ∨ bits d 115 64 % 256 ≠ 0) := by simp [hrange, hgva]
  simp only [mapRemove, M.bind_run, M.get_run, if_neg hok, M.ite_run, M.pure_run]
  exact if_pos (by simpa using h)

/-- The map is dropped after the write-backs of its DIRTY granules, whatever each of them comes to (R45). -/
theorem mapRemove_dropped (h : ∃ m ∈ s.core.nextMaps, m.off = bits d 20 0 ∧ m.len = bits d 52 32) {l : List Unit} {u : State}
    (hback : ((s.core.dirtyAt (bits d 20 0)).mapM fun e => finalWriteBack e.1 e.2) s = .ok (l, u)) :
    mapRemove d s = .ok (0, u.post (.mapDrop (bits d 20 0) (bits d 52 32))) := by
  have hok : ¬(rangeBad d = true ∨ bits d 115 64 % 256 ≠ 0) := by simp [hrange, hgva]
  have hthere : (s.core.nextMaps.any fun m => m.off = bits d 20 0 ∧ m.len = bits d 52 32) = true := by simpa using h
  rw [Core.dirtyAt] at hback
  simp only [mapRemove, M.bind_run, M.get_run, if_neg hok, hthere, Bool.not_true, Bool.false_eq_true, if_false, hback, M.change_run, M.pure_run]

theorem mapRemove_clean (h : ∃ m ∈ s.core.nextMaps, m.off = bits d 20 0 ∧ m.len = bits d 52 32)
    (hclean : s.core.dirtyAt (bits d 20 0) = []) : mapRemove d s = .ok (0, s.post (.mapDrop (bits d 20 0) (bits d 52 32))) :=
  mapRemove_dropped hrange hgva h (l := []) (by rw [hclean, List.mapM_nil, M.pure_run])

end Remove

section Range

variable (hrange : rangeBad d = false) (hrest : bits d 116 64 = 0)

include hrange hrest

theorem mapSync_synced {u : State} (h : syncChecks (bits d 20 0) (s.core.dirtyIn (bits d 20 0) (bits d 52 32)) s = .ok ((), u)) :
    mapSync d s = .ok (0, u.syncRange (bits d 20 0) (bits d 52 32)) := by
  simp [mapSync, hrange, hrest, h]

theorem mapSync_clean (h : s.core.dirtyIn (bits d 20 0) (bits d 52 32) = []) :
    mapSync d s = .ok (0, s.syncRange (bits d 20 0) (bits d 52 32)) :=
  mapSync_synced hrange hrest (by rw [h, syncChecks, M.pure_run])

theorem mapInv_run : mapInv d s = .ok (0, s.post (.mapInv (bits d 20 0) (bits d 52 32))) := by
  simp [mapInv, hrange, hrest]

end Range

end Status

/-! ### The maps as a bundle that commits leaves them -/

theorem State.applyPost_mapNew_maps (s : State) (off len gva : Nat) :
    (s.applyPost (.mapNew off len gva)).core.maps = s.core.maps ++ [⟨off, len, gva, s.core.asid, []⟩] := by
  simp [State.applyPost, State.newMap]

theorem State.applyPost_mapDrop (s : State) (off len : Nat) : s.applyPost (.mapDrop off len) =
    s.setCore { s.core with maps := s.core.maps.filter fun m => !(decide (m.off = off ∧ m.len = len)) } := by
  have hsame (m : RegMap) : (m.off == off && m.len == len) = decide (m.off = off ∧ m.len = len) := by
    rw [Bool.decide_and]
    rfl
  simp only [State.applyPost, State.onCore, hsame]

/-- A map without its granules in a range. -/
def RegMap.without (m : RegMap) (off len : Nat) : RegMap :=
  { m with gran := m.gran.filter fun g => !(decide (off ≤ m.off + 256 * g.1 ∧ m.off + 256 * g.1 < off + len)) }

theorem State.applyPost_mapInv (s : State) (off len : Nat) : s.applyPost (.mapInv off len) = s.setCore { s.core with
    maps := s.core.maps.map fun m => m.without off len,
    pend := s.core.pend.filter fun e =>
      !(decide (e.file = .sp) && decide (off ≤ 64 * e.key) && decide (64 * e.key < off + len) && (s.core.mapOf (64 * e.key)).isSome) } := by
  simp only [State.applyPost, State.invMaps, State.onCore, RegMap.without, Bool.decide_and]

end Sys2Proof.Machine
end

section
/-! PROOFS. The final write-back of a granule: which bytes it takes, and what it leaves in device memory (R44, R45). -/

namespace Sys2Proof.Machine

/-! ### The marked bytes -/

theorem Core.mem_marked {k : Core} {off : Nat} {e : Granule} {b : Nat × Byte} :
    b ∈ k.marked off e ↔ b.1 < 256 ∧ e.mask.getLsbD b.1 = true ∧ b.2 = k.sp.byte (off + b.1) := by
  obtain ⟨i, v⟩ := b
  simp only [Core.marked, List.mem_map, List.mem_filter, List.mem_range, Prod.mk.injEq]
  constructor
  · rintro ⟨j, ⟨hj, hmask⟩, rfl, rfl⟩
    exact ⟨hj, hmask, rfl⟩
  · rintro ⟨hi, hmask, rfl⟩
    exact ⟨i, ⟨hi, hmask⟩, rfl, rfl⟩

theorem M.attempt_ok {α : Type} {m : M α} {a : α} {s t : State} (h : m s = .ok (a, t)) : M.attempt m s = .ok (.ok a, t) := by
  simp [M.attempt, h]

/-- A final write-back whose place is translated, and that meets no watchpoint of the task's own job. -/
theorem finalWriteBack_run {s s1 : State} {i g : Nat} {m : RegMap} {l : Loc} (hm : s.core.maps[i]? = some m)
    (hx : xlateAs m.asid ((m.gva + 256 * g) % 2 ^ 52) .write s = .ok (l, s1))
    (hw : s1.wbWatched l ({ s.core with sp := s.snapshot }.marked (m.off + 256 * g) (m.granule g)) = false) :
    finalWriteBack i g s = .ok ((), s1.wbTo l m.asid ({ s.core with sp := s.snapshot }.marked (m.off + 256 * g) (m.granule g))
      (s1.core.badLines (m.off + 256 * g))) := by
  simp [-Nat.reducePow, finalWriteBack, hm, M.attempt_ok hx, hw]

/-! ### A write of any length takes place in device memory -/

theorem State.StoreOnly.csrs {s t : State} (h : s.StoreOnly t) : t.csrs = s.csrs := by rw [h.2]

theorem State.cleanLines_mem (s : State) (cs : List Host.Cell) : (s.cleanLines cs).mem = s.mem := by
  unfold State.cleanLines
  dsimp only
  split <;> rfl

theorem State.cleanLines_csrs (s : State) (cs : List Host.Cell) : (s.cleanLines cs).csrs = s.csrs := by
  unfold State.cleanLines
  dsimp only
  split <;> rfl

/-- The watchpoints stand in CSRs. -/
theorem State.watchHits_congr {s t : State} (h : t.csrs = s.csrs) (pa n : Nat) : t.watchHits pa n = s.watchHits pa n := by
  have hcsrs : t.watchHits pa n = ({ s with csrs := t.csrs } : State).watchHits pa n := rfl
  rw [hcsrs, h]

section Performed

variable (s : State) (h : Held)

/-- The bytes of a write in place, the poison of the lines that it covers whole cleared, and its record. -/
def State.placedClean : State := s.recorded h.tag h.rels h.units ((s.wrCells h.tag h.cells).cleanLines h.cells)

theorem State.placedClean_mem : (s.placedClean h).mem = (s.wrCells h.tag h.cells).mem := by
  rw [State.placedClean, State.recorded_mem, State.cleanLines_mem]

theorem State.placedClean_csrs : (s.placedClean h).csrs = s.csrs := by
  rw [State.placedClean, (State.storeOnly_recorded _ _ _ _ _).csrs, State.cleanLines_csrs, (s.storeOnly_wrCells _ _).csrs]

/-- After its bytes are placed, a write changes VCLOCK and the L1 lines that hold them, and no memory (R97, R126). -/
theorem State.quiet_placedClean : (s.placedClean h).Quiet (s.writeHeld true h) := by
  have hunit (t : State) (e : Nat × List Host.Cell) : t.Quiet (e.2.foldl (fun t c => t.l1Update (s.writes + e.1) c.1 c.2) t) :=
    State.quiet_foldl (fun t (c : Host.Cell) => t.quiet_l1Update (s.writes + e.1) c.1 c.2) e.2 t
  exact ((s.placedClean h).quiet_crosses s.die (h.cells.head?.elim 0 (·.1))).trans
    (State.quiet_foldl hunit (h.units.mapIdx fun i u => (i, u)) _)

variable {s h}

/-- A write to device memory that no watchpoint names leaves memory as its bytes make it, however many they are. -/
theorem State.performHeld_wrCells (hd : h.host = none) (hw : ∀ pa n, s.watchHits pa n = []) :
    (s.performHeld h).mem = (s.wrCells h.tag h.cells).mem := by
  cases hcells : h.cells with
  | nil => simp only [State.performHeld, hd, hcells]; rfl
  | cons c cs =>
    have hq := (s.quiet_placedClean h).trans (State.quiet_wrote _ h.nt ((s.writeHeld true h).madeSince s))
    have hcsrs := hq.2.csrs.trans (s.placedClean_csrs h)
    simp only [State.performHeld, hd, hcells]
    rw [State.watchEvents_none ((State.watchHits_congr hcsrs _ _).trans (hw _ _)), hq.1.1, State.placedClean_mem, hcells]

end Performed

/-! ### The write-back to device memory (R44) -/

/-- The bytes of a granule at their places. -/
def cellsOf (pa : Nat) (bs : List (Nat × Byte)) : List Host.Cell := bs.map fun b => (pa + b.1, b.2)

theorem mem_cellsOf {pa : Nat} {bs : List (Nat × Byte)} {c : Host.Cell} : c ∈ cellsOf pa bs ↔ ∃ b ∈ bs, (pa + b.1, b.2) = c := List.mem_map

theorem cellsOf_nodup {pa : Nat} {bs : List (Nat × Byte)} (h : (bs.map (·.1)).Nodup) : ((cellsOf pa bs).map (·.1)).Nodup := by
  have hmap : (cellsOf pa bs).map (·.1) = (bs.map (·.1)).map (pa + ·) := by simp only [cellsOf, List.map_map]; rfl
  rw [hmap]
  exact List.pairwise_map.2 (h.imp fun hne e => hne (Nat.add_left_cancel e))

/-- A write-back that waits for no older store and carries no poison is one store of the task. -/
theorem State.wbTo_dev {s : State} (hq : s.core.ntq = []) (hh : s.core.held = []) (pa asid : Nat) (tag : LineTag) (bs : List (Nat × Byte)) :
    s.wbTo (.dev pa tag) asid bs [] = s.performHeld (s.heldOf (.dev pa tag) asid false none bs) := by
  cases bs with
  | nil => rfl
  | cons b bs =>
    have hclean : bs.filter (not ∘ fun _ => false) = bs := List.filter_eq_self.2 fun _ _ => rfl
    simp [State.wbTo, hq, hh, hclean]

section WriteBack

variable {s : State} (hq : s.core.ntq = []) (hh : s.core.held = []) (hoff : ∀ w, w < 8 → (s.csr (0xC98 + w)).getLsbD 0 = false)
  (pa asid : Nat) (tag : LineTag) {bs : List (Nat × Byte)}

include hq hh hoff

theorem State.wbTo_dev_mem : (s.wbTo (.dev pa tag) asid bs []).mem = (s.wrCells tag (cellsOf pa bs)).mem := by
  rw [State.wbTo_dev hq hh]
  exact State.performHeld_wrCells rfl (State.watchHits_off hoff)

theorem State.wbTo_dev_read (hd : (bs.map (·.1)).Nodup) {b : Nat × Byte} (hb : b ∈ bs) :
    (s.wbTo (.dev pa tag) asid bs []).mem.read (pa + b.1) = b.2 := by
  rw [State.wbTo_dev_mem hq hh hoff]
  exact s.wrCells_read tag _ (cellsOf_nodup hd) (mem_cellsOf.2 ⟨b, hb, rfl⟩)

theorem State.wbTo_dev_otherLine {a : Nat} (ha : ∀ b ∈ bs, a / 64 ≠ (pa + b.1) / 64) :
    (s.wbTo (.dev pa tag) asid bs []).mem.read a = s.mem.read a := by
  rw [State.wbTo_dev_mem hq hh hoff]
  refine s.wrCells_out tag _ fun c hc => ?_
  obtain ⟨b, hb, rfl⟩ := mem_cellsOf.1 hc
  exact ha b hb

/-- Where the written lines bear the key already, no byte changes that is not marked. -/
theorem State.wbTo_dev_unmarked (htag : ∀ b ∈ bs, s.lineTagOf (pa + b.1) = tagAt tag (pa + b.1)) {a : Nat} (ha : ∀ b ∈ bs, a ≠ pa + b.1) :
    (s.wbTo (.dev pa tag) asid bs []).mem.read a = s.mem.read a := by
  by_cases hline : ∃ b ∈ bs, a / 64 = (pa + b.1) / 64
  · obtain ⟨b, hb, hab⟩ := hline
    rw [State.wbTo_dev_mem hq hh hoff]
    refine s.wrCells_keeps tag _ (by rw [s.lineTagOf_congr hab, htag b hb, tagAt_congr tag hab]) fun c hc => ?_
    obtain ⟨b', hb', rfl⟩ := mem_cellsOf.1 hc
    exact (ha b' hb').symm
  · exact State.wbTo_dev_otherLine hq hh hoff pa asid tag fun b hb e => hline ⟨b, hb, e⟩

end WriteBack

end Sys2Proof.Machine
end

section
/-! PROOFS. The commands leave for their engines, and the region maps change, as R316, R338 and R352 say. -/

namespace Sys2Proof.Machine

/-- Settles O54: each row is run to the form of its kind's issue, and the region-map commands go on to their statuses, write-backs and posts. -/
theorem commandsIssue : Obligations.CommandsIssue := by
  unfold Obligations.CommandsIssue
  refine ⟨?issue, ?status, ?writeBack, ?memory, ?maps⟩
  case issue =>
    intro c o s s1 d on hdesc
    refine ⟨?kv, ?copy, ?rack, ?coll, ?map⟩
    case kv =>
      intro e he
      obtain ⟨hexec, hop⟩ := exec_kvCommand (c := c) (o := o) (s := s) he
      rw [hexec]
      exact ⟨fun hfull => engineOp_full on hdesc (by rw [roomFor_kv hop]; exact decide_eq_false (Nat.not_lt.2 hfull)),
        fun hroom held t hflags => engineOp_room on hdesc (by rw [roomFor_kv hop]; exact decide_eq_true hroom) hflags⟩
    case copy =>
      intro e he
      obtain ⟨hexec, hop⟩ := exec_copyCommand (c := c) (o := o) (s := s) he
      rw [hexec]
      exact ⟨fun hfull => engineOp_full on hdesc (by rw [roomFor_copy hop]; exact decide_eq_false (Nat.not_lt.2 hfull)),
        fun hroom held t hflags => engineOp_room on hdesc (by rw [roomFor_copy hop]; exact decide_eq_true hroom) hflags⟩
    case rack =>
      intro queue mk hmk
      rw [exec_rackCommand hmk]
      exact ⟨fun hfull => rackIssue_full on hdesc hfull, fun hroom cmd t hsend => rackIssue_room on hdesc hroom hsend⟩
    case coll =>
      intro e he
      rw [exec_collective he]
      exact ⟨fun hfull => collOp_full on hdesc hfull, fun hroom cmd t hsend =>
        ⟨fun hout => collOp_outside on hdesc hroom hsend hout,
          fun hin => collOp_member on hdesc hroom hsend hin⟩⟩
    case map =>
      intro e he
      rw [exec_mapCommand he]
      exact ⟨fun hfull => mapOp_full on hdesc hfull, fun hroom cmd t hsend =>
        ⟨fun hbad => mapOp_bad on hdesc hroom hsend hbad, fun hgood st u hf => mapOp_status on hdesc hroom hsend hgood hf⟩⟩
  case status =>
    intro s d so len gva
    refine ⟨fun hbad => ⟨mapNew_malformed hbad, mapRemove_malformed hbad, mapSync_malformed hbad, mapInv_malformed hbad⟩, fun hrange => ?_⟩
    refine ⟨fun hmap hgva hgroup => ?new, fun _ hgva => ?remove, fun hmap hgva => ?range⟩
    case new => exact ⟨mapNew_made hrange hmap hgva hgroup, mapNew_refused hrange hmap hgva hgroup⟩
    case remove =>
      exact ⟨mapRemove_missing hrange hgva, fun hthere => ⟨mapRemove_clean hrange hgva hthere,
        fun l u hback => mapRemove_dropped hrange hgva hthere hback⟩⟩
    case range =>
      have hrest : bits d 116 64 = 0 := bits_succ_eq_zero hmap hgva
      exact ⟨mapSync_clean hrange hrest, fun u hchecks => mapSync_synced hrange hrest hchecks, mapInv_run hrange hrest⟩
  case writeBack =>
    intro s i g m l s1 hm hx bs
    exact ⟨fun b hb => Core.mem_marked.1 hb, finalWriteBack_run hm hx⟩
  case memory =>
    intro s pa asid tag bs hq hh hd hoff t
    exact ⟨fun b hb => State.wbTo_dev_read hq hh hoff pa asid tag hd hb,
      fun a ha => State.wbTo_dev_otherLine hq hh hoff pa asid tag ha,
      fun htag a ha => State.wbTo_dev_unmarked hq hh hoff pa asid tag htag ha⟩
  case maps =>
    intro s so len gva
    refine ⟨s.applyPost_mapNew_maps so len gva, s.applyPost_mapDrop so len, ?_⟩
    have hmaps : (s.applyPost (.mapInv so len)).core.maps = s.core.maps.map fun m => m.without so len := by
      rw [s.applyPost_mapInv so len, State.setCore, State.core_setCoreAt]
    refine ⟨by rw [hmaps, s.applyPost_mapInv so len], by rw [hmaps, List.length_map], fun i m hm => ?_⟩
    exact ⟨m.without so len, by rw [hmaps, List.getElem?_map, hm, Option.map_some], rfl, rfl⟩

end Sys2Proof.Machine
end

section
/-! PROOFS. A packet that the device stamps with its source: every other field stands (R10, R164). -/

namespace Sys2Proof.Machine

/-- The three parts of a number with a field replaced: what lies above the field, the new value, and what lies below it. -/
theorem setBits_eq {hi lo : Nat} (h : lo ≤ hi + 1) (x v : Nat) :
    setBits x hi lo v = 2 ^ lo * (2 ^ (hi + 1 - lo) * (x / 2 ^ (hi + 1)) + v % 2 ^ (hi + 1 - lo)) + x % 2 ^ lo := by
  obtain ⟨w, hw⟩ := Nat.exists_eq_add_of_le h
  have hlow := Nat.div_add_mod x (2 ^ lo)
  have hfield := Nat.div_add_mod (x / 2 ^ lo) (2 ^ w)
  rw [setBits, bits, Nat.shiftRight_eq_div_pow, hw, Nat.add_sub_cancel_left, Nat.pow_add, ← Nat.div_div_eq_div_mul]
  generalize x / 2 ^ lo / 2 ^ w = top at hfield ⊢
  generalize x / 2 ^ lo % 2 ^ w = field at hfield ⊢
  rw [← hfield, Nat.mul_add] at hlow
  rw [Nat.mul_add, Nat.mul_comm field, Nat.mul_comm (v % 2 ^ w)]
  omega

theorem testBit_setBits_of_lt {hi lo i : Nat} (h : lo ≤ hi + 1) (x v : Nat) (hi' : i < lo) : (setBits x hi lo v).testBit i = x.testBit i := by
  rw [setBits_eq h, Nat.testBit_two_pow_mul_add _ (Nat.mod_lt _ (Nat.two_pow_pos _)), if_pos hi', Nat.testBit_mod_two_pow,
    decide_eq_true hi', Bool.true_and]

theorem testBit_setBits_of_gt {hi lo i : Nat} (h : lo ≤ hi + 1) (x v : Nat) (hi' : hi < i) : (setBits x hi lo v).testBit i = x.testBit i := by
  rw [setBits_eq h, Nat.testBit_two_pow_mul_add _ (Nat.mod_lt _ (Nat.two_pow_pos _)), if_neg (by omega),
    Nat.testBit_two_pow_mul_add _ (Nat.mod_lt _ (Nat.two_pow_pos _)), if_neg (by omega), Nat.testBit_div_two_pow]
  congr 1
  omega

/-- A field that does not meet the replaced one stands. -/
theorem bits_setBits_of_disjoint {hi lo hi' lo' : Nat} (h : lo ≤ hi + 1) (x v : Nat) (hd : hi' < lo ∨ hi < lo') :
    bits (setBits x hi lo v) hi' lo' = bits x hi' lo' := by
  refine Nat.eq_of_testBit_eq fun i => ?_
  rw [testBit_bits, testBit_bits]
  by_cases hin : i < hi' + 1 - lo'
  · congr 1
    cases hd with
    | inl hbelow => exact testBit_setBits_of_lt h x v (by omega)
    | inr habove => exact testBit_setBits_of_gt h x v (by omega)
  · rw [decide_eq_false hin, Bool.false_and, Bool.false_and]

theorem setBits_toNat_lt {hi lo n : Nat} (h : lo ≤ hi + 1) (hn : hi < n) (x : BitVec n) (v : Nat) : setBits x.toNat hi lo v < 2 ^ n := by
  refine Nat.lt_pow_two_of_testBit _ fun i hi' => ?_
  rw [testBit_setBits_of_gt h _ v (by omega)]
  exact Nat.testBit_lt_two_pow (Nat.lt_of_lt_of_le x.isLt (Nat.pow_le_pow_right (by decide) hi'))

theorem toNat_withSrc (pk : BitVec 512) (src : Nat) : (withSrc pk src).toNat = setBits pk.toNat 161 160 src := by
  rw [withSrc, BitVec.toNat_ofNat, Nat.mod_eq_of_lt (setBits_toNat_lt (by decide) (by decide) pk src)]

/-- The source stands in bits 161:160, and no other field of the packet changes. -/
theorem bits_withSrc {hi lo : Nat} (pk : BitVec 512) (src : Nat) (hd : hi < 160 ∨ 161 < lo) :
    bits (withSrc pk src).toNat hi lo = bits pk.toNat hi lo := by
  rw [toNat_withSrc, bits_setBits_of_disjoint (by decide) _ _ hd]

theorem bit_withSrc {i : Nat} (pk : BitVec 512) (src : Nat) (hi : i < 160) : bit (withSrc pk src).toNat i = bit pk.toNat i := by
  rw [toNat_withSrc, bit, testBit_setBits_of_lt (by decide) _ _ hi, bit]

theorem key_withSrc (pk : BitVec 512) (src : Nat) : (withSrc pk src).extractLsb' 0 128 = pk.extractLsb' 0 128 := by
  refine BitVec.eq_of_toNat_eq ?_
  rw [BitVec.extractLsb'_toNat, BitVec.extractLsb'_toNat]
  exact bits_withSrc (hi := 127) (lo := 0) pk src (.inl (by decide))

/-- The packets that R169 does not refuse for their form: reserved bits zero, and an operation that there is. -/
structure LegalPacket (pk : BitVec 512) : Prop where
  reservedOp : bits pk.toNat 143 137 = 0
  reservedMc : bits pk.toNat 159 158 = 0
  reservedSrc : bits pk.toNat 255 162 = 0
  opPos : 1 ≤ bits pk.toNat 135 128
  opLe : bits pk.toNat 135 128 ≤ 12

theorem LegalPacket.withSrc {pk : BitVec 512} (h : LegalPacket pk) (src : Nat) : LegalPacket (withSrc pk src) where
  reservedOp := (bits_withSrc pk src (.inl (by decide))).trans h.reservedOp
  reservedMc := (bits_withSrc pk src (.inl (by decide))).trans h.reservedMc
  reservedSrc := (bits_withSrc pk src (.inr (by decide))).trans h.reservedSrc
  opPos := by rw [bits_withSrc pk src (.inl (by decide))]; exact h.opPos
  opLe := by rw [bits_withSrc pk src (.inl (by decide))]; exact h.opLe

end Sys2Proof.Machine
end

section
/-! PROOFS. A push (R169, R170, R171): the record that it inserts, folds into, or does not fit. -/

namespace Sys2Proof.Machine

section Push

variable {s : State} {m : Nat} {pk : BitVec 512} {view : List Nat} (legal : LegalPacket pk) (hmc : s.mcState m ≠ 0)
  (hphase : s.csrF (0xCA0 + s.mcPart m) 2 0 ≠ 3)

include legal hmc hphase

/-- A key that waits for nothing gets a new record, where the partition's floor and the shard have room (R169, R172). -/
theorem State.push_insert (hw : s.waiting m (pk.extractLsb' 0 128) = none)
    (hquota : s.heldRecs (s.mcPart m) (m % 8) < s.csrF (0x0D0 + s.mcPart m) 15 0) (hroom : s.freeRecs (m % 8) ≠ 0) :
    s.push m true pk view = (1, ({ s with
      recs := s.recs ++ [⟨pk.extractLsb' 0 128, BitVec.ofNat 8 (bits pk.toNat 135 128), bit pk.toNat 136, false, 1, m, s.mcPart m, s.time,
        initPayload (bits pk.toNat 135 128) (pk.extractLsb' 256 256), view⟩],
      pending := s.pending.insert m true, defer := s.defer.erase m } : State).count m 0 6 1) := by
  obtain ⟨hr1, hr2, hr3, hpos, hle⟩ := legal
  simp [State.push, State.pushRec, State.insertRec, hr1, hr2, hr3, Nat.ne_of_gt hpos, Nat.not_lt.2 hle, hmc, hphase, hw, Nat.not_le.2 hquota, hroom]

variable {i : Nat} {r : Rec} (hw : s.waiting m (pk.extractLsb' 0 128) = some i) (hr : s.recs[i]? = some r)

include hw hr

/-- A packet of the operation of the record that waits for its key folds into it (R167, R170). -/
theorem State.push_fold (hop : r.op.toNat = bits pk.toNat 135 128) (hcap : r.count ≤ spliceCap (bits pk.toNat 135 128)) :
    s.push m true pk view = (0, ({ s with
      recs := setAt s.recs i { r with payload := foldPayload (bits pk.toNat 135 128) r.count r.payload (pk.extractLsb' 256 256),
                                      count := r.count + 1, view := addIds r.view view, sealed_ := bit pk.toNat 136 },
      defer := s.defer.erase m } : State).count m 0 6 1) := by
  obtain ⟨hr1, hr2, hr3, hpos, hle⟩ := legal
  simp [State.push, State.pushRec, hr1, hr2, hr3, Nat.ne_of_gt hpos, Nat.not_lt.2 hle, hmc, hphase, hw, hr, hop, hcap]

/-- A packet of another operation is refused (R170). -/
theorem State.push_otherOp (hop : r.op.toNat ≠ bits pk.toNat 135 128) : s.push m true pk view = (4, s) := by
  obtain ⟨hr1, hr2, hr3, hpos, hle⟩ := legal
  simp [State.push, State.pushRec, hr1, hr2, hr3, Nat.ne_of_gt hpos, Nat.not_lt.2 hle, hmc, hphase, hw, hr, hop]

end Push

/-- A push from a source of the MC's own partition reaches it (R171). -/
theorem exec_push {s t : State} {src st : Nat} {pk : BitVec 512} (h : s.push (packetMc pk) true (withSrc pk src) = (st, t)) :
    exec (.push src (s.mcPart (packetMc pk)) pk) s = .next t := by
  show execPush src (s.mcPart (packetMc pk)) pk s = _
  rw [execPush, beq_self_eq_true, h]

end Sys2Proof.Machine
end

section
/-! PROOFS. Work from the host's rings and from the Ethernet ports (R178, R179, R180, R184, R388). -/

namespace Sys2Proof.Machine

theorem runAgent_ok {m : M Unit} {s t : State} {u : Unit} (h : m s = .ok (u, t)) : runAgent m s = .next t := by simp [runAgent, h]

/-! ### Notify writes and rings -/

theorem exec_notifyWrite {s : State} {fn m : Nat} (v : BitVec 64) (hm : m < 16384) (hmc : s.mcState m ≠ 0) (hfn : s.fnReaches fn m = true) :
    exec (.notifyWrite fn m v) s = .next { s.setMcbF m 383 352 (bits v.toNat 31 0) with ringPend := s.ringPend.insert m true } := by
  show execNotifyWrite fn m v s = _
  rw [execNotifyWrite, if_pos ⟨hm, hmc, hfn⟩]

section Ring

variable {s t : State} {m : Nat} (hpend : FMap.get false s.ringPend m = true) (hheld : s.ringHeld m = false)

include hpend hheld

/-- A ring that has pushed is fetched again, after FULL or QUOTA not before the next frame (R179 step 3). -/
theorem exec_ringFetch_pushed {st : Nat} (h : ringStep m s = .ok (.pushed st, t)) :
    exec (.ringFetch (m / 4096) m) s = .next (if st = 2 ∨ st = 3 then { t with ringHold := t.ringHold.insert m t.frame } else t) := by
  show execRingFetch (m / 4096) m s = _
  rw [execRingFetch, if_pos ⟨rfl, hpend, by rw [hheld]; rfl⟩]
  exact runAgent_ok (u := ()) (by simp [h])

/-- A ring that is empty, or whose entry bears no mark, is left until the next notify write (R179). -/
theorem exec_ringFetch_done {r : RingOut} (h : ringStep m s = .ok (r, t)) (hr : r = .empty ∨ r = .badMark) :
    exec (.ringFetch (m / 4096) m) s = .next { t with ringPend := t.ringPend.erase m } := by
  show execRingFetch (m / 4096) m s = _
  rw [execRingFetch, if_pos ⟨rfl, hpend, by rw [hheld]; rfl⟩]
  refine runAgent_ok (u := ()) ?_
  rcases hr with rfl | rfl
  · simp [h]
  · simp [h]

end Ring

/-! ### Frames -/

/-- A message shorter than its header and its tag is dropped (R184). -/
theorem crpIngest_short {s : State} {msg : List Byte} (port p : Nat) (hdr : List Byte) (h : msg.length < 64) :
    crpIngest port p hdr msg s = .ok ((), s) := by
  rw [crpIngest, M.bind_run, M.get_run]
  dsimp only
  rw [if_pos (.inl h), M.pure_run]

/-- Where the ring of the partition is not valid, a raw frame counts in LOST (R388). -/
theorem rawReceive_lost {s t : State} {port p : Nat} (f : List Byte) (hv : bit (s.csrN (0xCE0 + p)) 0 = false)
    (h : rawLost p port (s.csrF (0x070 + p) 9 0) (bits (s.csrN (0xCE0 + p)) 51 12 * 4096) s = .ok ((), t)) :
    rawReceive port p f s = .ok ((), t.dropGiven (rawAgent p)) := by
  simp [rawReceive, hv, h]

section Frame

variable {s t : State} {port p : Nat} {f : List Byte} (hpart : s.framePart f = some p)

include hpart

/-- While a partition is in SCRUB, its frames are dropped (R384). -/
theorem exec_crpIngress_scrub (hp : s.phase p = 3) : exec (.crpIngress port f) s = .next s := by
  show execCrpIngress port f s = _
  rw [execCrpIngress, hpart]
  cases frameKind (s.csrF 0x060 15 0) f with
  | raw => rfl
  | drop => rfl
  | crp hdr msg => exact if_neg fun h => h.2 hp

theorem exec_rawFrameReceive_scrub (hp : s.phase p = 3) : exec (.rawFrameReceive port f) s = .next s := by
  show execRawFrameReceive port f s = _
  rw [execRawFrameReceive, hpart]
  cases frameKind (s.csrF 0x060 15 0) f with
  | raw => exact if_neg fun h => h.2 hp
  | drop => rfl
  | crp hdr msg => rfl

variable (hport : port < 8) (hp : s.phase p ≠ 3)

include hport hp

theorem exec_crpIngress_ok {hdr msg : List Byte} (hkind : frameKind (s.csrF 0x060 15 0) f = .crp hdr msg)
    (h : crpIngest port p hdr msg s = .ok ((), t)) : exec (.crpIngress port f) s = .next t := by
  show execCrpIngress port f s = _
  rw [execCrpIngress, hpart, hkind]
  exact (if_pos ⟨hport, hp⟩).trans (runAgent_ok h)

theorem exec_rawFrameReceive_ok (hkind : frameKind (s.csrF 0x060 15 0) f = .raw) (h : rawReceive port p f s = .ok ((), t)) :
    exec (.rawFrameReceive port f) s = .next t := by
  show execRawFrameReceive port f s = _
  rw [execRawFrameReceive, hpart, hkind]
  exact (if_pos ⟨hport, hp⟩).trans (runAgent_ok h)

end Frame

end Sys2Proof.Machine
end

section
/-! PROOFS. Errors, links, peers, and writes of the host and of other writers (R139, R142, R163, R378, R415, R416). -/

namespace Sys2Proof.Machine

/-! ### Errors -/

theorem exec_poison {s : State} {pa : Nat} (h : s.frameOk pa = true) : exec (.poison pa) s = .next (s.poisonLine (pa / 64)) :=
  congrArg Host.Outcome.next (if_pos h)

theorem exec_patrolScrub {s : State} {line : Nat} (h : s.frameOk (64 * line) = true) :
    exec (.patrolScrub line) s = .next { s with patrol := line } :=
  congrArg Host.Outcome.next (if_pos h)

/-! ### Links -/

/-- A link that is lost ends the jobs that depend on it, the requests to its peer, and then the launches that it cuts (R163, R140, R421). -/
theorem exec_linkDown_lost {s : State} {l : Link} (h : normLink l ∉ s.linksDown) :
    let u := { s with linksDown := normLink l :: s.linksDown }
    let t := (((u.jobs.filter fun j => u.dependsOn j (normLink l)).map (·.mcid)).foldl State.cutJob u).dropPeer (normLink l)
    exec (.linkDown l) s = .next ((t.cutPlans (normLink l)).foldl State.failLaunch t) :=
  if_neg fun hc => h (List.contains_iff_mem.1 hc)

theorem exec_linkDown_again {s : State} {l : Link} (h : normLink l ∈ s.linksDown) : exec (.linkDown l) s = .next s :=
  if_pos (List.contains_iff_mem.2 h)

/-! ### Peers -/

theorem M.map_ok {α β : Type} {m : M α} {a : α} {s t : State} (f : α → β) (h : m s = .ok (a, t)) : (f <$> m) s = .ok (f a, t) := by
  rw [M.map_run, h]

section Access

variable {s s1 : State} {fab part p va : Nat} {data : List Byte} {ep sys : Bool} (hup : s.peerUp fab = true)

include hup

/-- A peer that the root has paired with no partition is refused (R61). -/
theorem exec_peerAccess_unpaired (op : Nat) (hp : s.paired fab part = none) :
    exec (.peerAccess fab part op va data ⟨ep, sys⟩) s = .next (s.answerPeer fab 0 []) := by
  show execPeerAccess fab part op va data ⟨ep, sys⟩ s = _
  simp [execPeerAccess, hup, hp]

/-- What a paired peer's access does is the work of its partition's row (R339). -/
theorem exec_peerAccess_paired (op : Nat) (hp : s.paired fab part = some p) :
    exec (.peerAccess fab part op va data ⟨ep, sys⟩) s = runAgent (peerServe fab p op va data ep sys) s := by
  show execPeerAccess fab part op va data ⟨ep, sys⟩ s = _
  simp [execPeerAccess, hup, hp]

variable (hp : s.paired fab part = some p)

include hp

theorem exec_peerAccess_read {bs : List Byte} {bad : Bool}
    (h : peerRead fab (s.csrF (0x070 + p) 9 0) (va % 2 ^ 52) data.length sys s = .ok ((bs, bad), s1)) :
    exec (.peerAccess fab part 0 va data ⟨ep, sys⟩) s =
      .next (((s1.answerPeer fab (if bad then 3 else 1) bs).dropGiven (peerAgent fab)).forgetAsks (· == peerAgent fab)) := by
  rw [exec_peerAccess_paired hup 0 hp]
  exact runAgent_ok (u := ()) (by simp [-Nat.reducePow, peerServe, M.attempt_ok h])

theorem exec_peerAccess_write (h : peerStore fab (s.csrF (0x070 + p) 9 0) (va % 2 ^ 52) data ep sys s = .ok ((), s1)) :
    exec (.peerAccess fab part 1 va data ⟨ep, sys⟩) s =
      .next (((s1.answerPeer fab 1 []).dropGiven (peerAgent fab)).forgetAsks (· == peerAgent fab)) := by
  rw [exec_peerAccess_paired hup 1 hp]
  exact runAgent_ok (u := ()) (by simp [-Nat.reducePow, peerServe, M.attempt_ok (M.map_ok _ h)])

theorem exec_peerAccess_reduce {rop : Nat} (h : peerReduce fab (s.csrF (0x070 + p) 9 0) rop (va % 2 ^ 52) data ep sys s = .ok ((), s1)) :
    exec (.peerAccess fab part (rop + 2) va data ⟨ep, sys⟩) s =
      .next (((s1.answerPeer fab 1 []).dropGiven (peerAgent fab)).forgetAsks (· == peerAgent fab)) := by
  rw [exec_peerAccess_paired hup (rop + 2) hp]
  exact runAgent_ok (u := ()) (by simp [-Nat.reducePow, peerServe, M.attempt_ok (M.map_ok _ h)])

/-- A packet of a paired peer is answered with the status of its push (R171). -/
theorem exec_peerEnq {pk : BitVec 512} {st : Nat} {u : State}
    (h : s.push (packetMc pk) (s.mcPart (packetMc pk) == p) (withSrc pk 3) (s.alive (s.peerView fab)) = (st, u)) :
    exec (.peerEnq fab part pk) s = .next (u.answerPeer fab 1 (toBytes 1 st)) := by
  show execPeerEnq fab part pk s = _
  rw [execPeerEnq, if_neg (by simp [hup])]
  extract_lets m reach
  have hreach : reach = (s.mcPart m == p) := by simp only [reach, hp]
  rw [← hreach] at h
  rw [h]

end Access

section Acknowledgement

variable {s : State} {req : Nat} {q : PeerReq} {ok ep : Bool} {data : List Byte} (hq : s.peerReqs.find? (·.id = req) = some q)

include hq

/-- Nobody wants the answer, and the peer has taken nothing for it. -/
theorem exec_peerAcknowledgement_refused (hnone : q.agent = nobody) : exec (.peerAcknowledgement req false ep data) s =
    .next { s with peerReqs := s.peerReqs.filter (·.id ≠ req) } := by
  show execPeerAcknowledgement req false ep data s = _
  simp [execPeerAcknowledgement, hq, hnone]

/-- The pin of a row that nobody wants any more is released (R75). -/
theorem exec_peerAcknowledgement_unpin (hnone : q.agent = nobody) (hkey : q.key < 16) (hrow : q.data.head? = some 0) :
    exec (.peerAcknowledgement req true ep data) s =
      .next (({ s with peerReqs := s.peerReqs.filter (·.id ≠ req) } : State).sendOwner q.fab
        (.peerUnpin q.fab (ofBytes ((q.data.drop 1).take 8)))) := by
  show execPeerAcknowledgement req true ep data s = _
  simp [execPeerAcknowledgement, hq, hnone, hkey, hrow]

/-- The reference that a failed fork has asked for is given back (R81). -/
theorem exec_peerAcknowledgement_dec (hnone : q.agent = nobody) (hfork : q.data.head? = some 3) (hlen : q.data.length = 17) :
    exec (.peerAcknowledgement req true ep data) s =
      .next (({ s with peerReqs := s.peerReqs.filter (·.id ≠ req) } : State).sendOwner q.fab
        (.peerDec q.fab (ofBytes ((q.data.drop 1).take 8)))) := by
  show execPeerAcknowledgement req true ep data s = _
  simp [execPeerAcknowledgement, hq, hnone, hfork, hlen]

/-- The answer is kept for the agent that asked. -/
theorem exec_peerAcknowledgement_given (hagent : q.agent ≠ nobody) (hother : 256 ≤ q.agent ∨ 16 ≤ q.key) :
    exec (.peerAcknowledgement req ok ep data) s = .next { s with
      peerReqs := s.peerReqs.filter (·.id ≠ req),
      given := s.given ++ [⟨q.agent, q.key, BitVec.ofNat 8 (ok.toNat + 2 * (ok && ep).toNat) :: data⟩] } := by
  have hrow : ¬(q.agent < 256 ∧ q.key < 16) := by omega
  show execPeerAcknowledgement req ok ep data s = _
  simp only [execPeerAcknowledgement, hq, if_neg hagent, if_neg hrow]

/-- The row of a KV stream reaches its stream (R61, R321). -/
theorem exec_peerAcknowledgement_row (hcore : q.agent < 256) (hkey : q.key < 16) : exec (.peerAcknowledgement req ok ep data) s =
    .next (({ s with peerReqs := s.peerReqs.filter (·.id ≠ req) } : State).rowAnswer q ok ep data) := by
  have hagent : q.agent ≠ nobody := Nat.ne_of_lt (Nat.lt_trans hcore (by decide))
  show execPeerAcknowledgement req ok ep data s = _
  simp only [execPeerAcknowledgement, hq, if_neg hagent, if_pos (And.intro hcore hkey)]

end Acknowledgement

/-! ### Writes of the host and of other writers -/

/-- A host write takes its place, in the order of its function unless it is relaxed, and poisons its lines if it came poisoned (R142, R416). -/
theorem exec_hostWrite {s : State} {fn pa : Nat} {data : List Byte} (ep ro : Bool) (hdata : data ≠ [])
    (hmay : s.fnMay fn pa data.length = true) :
    let t := if ro then s.writeInPlace 4 fn 0 [] pa data else s.hostPosted fn pa data
    exec (.hostWrite fn pa data ⟨ep, ro⟩) s = .next (if ep then t.poisonLines pa data.length else t) := by
  refine congrArg Host.Outcome.next (if_neg ?_)
  rintro (h | h)
  · exact hdata h
  · exact Bool.false_ne_true (h.symm.trans hmay)

theorem exec_watchev {s : State} {pa : Nat} {data : List Byte} (kind who wmc : Nat) (hvalid : s.rangeValid 16 pa data.length = true)
    (hhits : s.watchHits pa data.length ≠ []) :
    exec (.watchev kind who wmc pa data) s = .next (s.writeInPlace kind who wmc [] pa data) :=
  congrArg Host.Outcome.next (if_pos ⟨hvalid, hhits⟩)

end Sys2Proof.Machine
end

section
/-! PROOFS. Work intake, Ethernet, errors, links and peers: each event of the package's units has the effect of its rule. -/

namespace Sys2Proof.Machine

/-- Settles O59: each event is run to the effect of its own law, the pushes after the packet's fields have passed the source stamp. -/
theorem packageUnits : Obligations.PackageUnits := by
  unfold Obligations.PackageUnits
  refine ⟨?push, ?notify, ?ring, ?scrub, ?frames, ?slot, ?poison, ?corrected, ?patrol, ?link, ?peer, ?answer, ?host, ?watch⟩
  case push =>
    intro s src part pk m n op r0 hpart hr1 hr2 hr3 hpos hle hmc hphase
    subst hpart
    have legal := (LegalPacket.mk hr1 hr2 hr3 hpos hle).withSrc src
    have hop : bits (withSrc pk src).toNat 135 128 = op := bits_withSrc pk src (.inl (by decide))
    have hseal : bit (withSrc pk src).toNat 136 = bit n 136 := bit_withSrc pk src (by decide)
    refine ⟨fun hw hquota hroom => ?_, fun i r hw hr hsame hcap => ?_, fun i r hw hr hother => ?_⟩
    · have hpush := State.push_insert (view := []) legal hmc hphase (by rwa [key_withSrc]) hquota hroom
      rw [hop, hseal, key_withSrc] at hpush
      exact exec_push hpush
    · have hpush := State.push_fold (view := []) legal hmc hphase (by rwa [key_withSrc]) hr (by rwa [hop]) (by rwa [hop])
      rw [hop, hseal] at hpush
      exact exec_push hpush
    · exact exec_push (State.push_otherOp legal hmc hphase (by rwa [key_withSrc]) hr (by rwa [hop]))
  case notify => exact fun s fn m v hm hmc hfn => exec_notifyWrite v hm hmc hfn
  case ring =>
    exact fun s t m hpend hheld => ⟨fun st h => exec_ringFetch_pushed hpend hheld h, fun r h hr => exec_ringFetch_done hpend hheld h hr⟩
  case scrub => exact fun s port p f hpart hp => ⟨exec_crpIngress_scrub hpart hp, exec_rawFrameReceive_scrub hpart hp⟩
  case frames =>
    intro s t port p f hport hpart hp
    refine ⟨fun hdr msg hkind => ⟨exec_crpIngress_ok hpart hport hp hkind, fun hshort => ?_⟩, fun hkind => ?_⟩
    · exact exec_crpIngress_ok hpart hport hp hkind (crpIngest_short port p hdr hshort)
    · exact ⟨exec_rawFrameReceive_ok hpart hport hp hkind,
        fun hv hlost => exec_rawFrameReceive_ok hpart hport hp hkind (rawReceive_lost f hv hlost)⟩
  case slot => exact fun s die slot => rfl
  case poison => exact fun s pa h => exec_poison h
  case corrected => exact fun s => rfl
  case patrol => exact fun s line h => exec_patrolScrub h
  case link => exact fun s link => ⟨exec_linkDown_lost, exec_linkDown_again, rfl⟩
  case peer =>
    intro s s1 fab part va data ep sys hup
    refine ⟨fun hp op => exec_peerAccess_unpaired hup op hp, fun p hp => ?_⟩
    exact ⟨fun bs bad h => exec_peerAccess_read hup hp h, exec_peerAccess_write hup hp, fun rop h => exec_peerAccess_reduce hup hp h,
      fun pk st u h => exec_peerEnq hup hp h⟩
  case answer =>
    intro s req q ok ep data hq
    refine ⟨fun hnone => ⟨?refused, ?unpin, ?dec⟩, exec_peerAcknowledgement_given hq, exec_peerAcknowledgement_row hq⟩
    case refused => rintro rfl; exact exec_peerAcknowledgement_refused hq hnone
    case unpin => rintro rfl hkey hrow; exact exec_peerAcknowledgement_unpin hq hnone hkey hrow
    case dec => rintro rfl hfork hlen; exact exec_peerAcknowledgement_dec hq hnone hfork hlen
  case host => exact fun s fn pa data ro hdata hmay => ⟨exec_hostWrite false ro hdata hmay, exec_hostWrite true ro hdata hmay⟩
  case watch => exact fun s kind who wmc pa data hvalid hhits => exec_watchev kind who wmc hvalid hhits

end Sys2Proof.Machine
end
